-- ==== Sys2Proof/Word.lean ====
section
/-!
DEFINITION. The word types of the package (R16, R17) and their plainest arithmetic.
-/
namespace Sys2Proof

/-- One byte of memory. -/
abbrev Byte := BitVec 8
/-- A 16-bit field. -/
abbrev W16 := BitVec 16
/-- A register of the package: every register is 32 bits wide (R18). -/
abbrev W32 := BitVec 32
/-- A 64-bit register, counter or scratchpad word. -/
abbrev W64 := BitVec 64
/-- One instruction word of a tile program: 16 bytes (R380). -/
abbrev W128 := BitVec 128

end Sys2Proof
end

