-- ==== Sys2Proof/Machine/Table.lean ====
section
/-!
DEFINITION. Sparse tables: a list of (number, value) pairs in rising order of number, read with a
default for a number that is not listed. Registers files, rings, contexts, cores, ports, windows and
every other numbered structure of the package are held this way.
-/
namespace Sys2Proof.Machine

/-- A sparse table. -/
abbrev Tbl (α : Type) := List (Nat × α)

/-- The value at number `k`; `d` where none is listed. -/
def Tbl.get {α : Type} (d : α) : Tbl α → Nat → α
  | [], _ => d
  | (j, v) :: t, k => if k = j then v else if k < j then d else Tbl.get d t k

/-- The value at number `k`, if one is listed. -/
def Tbl.find {α : Type} : Tbl α → Nat → Option α
  | [], _ => none
  | (j, v) :: t, k => if k = j then some v else if k < j then none else Tbl.find t k

/-- The table with `v` at number `k`. -/
def Tbl.set {α : Type} : Tbl α → Nat → α → Tbl α
  | [], k, v => [(k, v)]
  | (j, w) :: t, k, v =>
    if k < j then (k, v) :: (j, w) :: t else if k = j then (k, v) :: t else (j, w) :: Tbl.set t k v

/-- The table without number `k`. -/
def Tbl.erase {α : Type} (t : Tbl α) (k : Nat) : Tbl α := t.filter (fun p => p.1 != k)

/-- The table with the value at `k` changed by `f`. -/
def Tbl.upd {α : Type} (d : α) (t : Tbl α) (k : Nat) (f : α → α) : Tbl α := Tbl.set t k (f (Tbl.get d t k))

/-- Every listed value changed by `f`. -/
def Tbl.mapVal {α : Type} (f : Nat → α → α) (t : Tbl α) : Tbl α := t.map (fun p => (p.1, f p.1 p.2))

/-- A sorted list of numbers with `k` in it. -/
def natInsert : List Nat → Nat → List Nat
  | [], k => [k]
  | j :: t, k => if k < j then k :: j :: t else if k = j then j :: t else j :: natInsert t k

/-- A sorted list of numbers with every number of `ks` in it. -/
def natInsertAll (l : List Nat) (ks : List Nat) : List Nat := ks.foldl natInsert l

/-- `n`, or `limit` where it is larger: the counters that stop at their largest value. -/
def satTo (limit n : Nat) : Nat := if n ≤ limit then n else limit

/-- A 32-bit counter that stops at 0xFFFF_FFFF. -/
def sat32 (n : Nat) : Nat := satTo 0xFFFFFFFF n

/-- Bits `hi` down to `lo` of a number. -/
def field (x hi lo : Nat) : Nat := (x / 2 ^ lo) % 2 ^ (hi + 1 - lo)

/-- Bit `i` of a number. -/
def bitN (x i : Nat) : Bool := (x / 2 ^ i) % 2 == 1

/-- A bit as a number. -/
def b2n (b : Bool) : Nat := if b then 1 else 0

/-- The largest multiple of `g` at or below `a`. -/
def alignDown (g a : Nat) : Nat := a / g * g

end Sys2Proof.Machine
end

