-- ==== Sys2Proof/Machine/CmdOps.lean ====
section
/-!
DEFINITION. The operand types of the commands: what a command's sender, or the world outside the
package, says with it.
-/
namespace Sys2Proof.Machine

/-- The memory errors that the reads of one command meet: the granules (an HBM sector of 32 bytes, a
scratchpad word of 8, an accumulator word of 4) named by an address in them whose error is corrected,
and those whose error cannot be corrected. Only granules that the command reads count. -/
structure MemFaults where
  corrected : List Nat
  uncorrectable : List Nat
deriving DecidableEq, Repr

/-- No memory error. -/
def MemFaults.none : MemFaults := ⟨[], []⟩

/-- The master that makes a register access (R958). -/
inductive Master where
  /-- The management core, also for the test access port and for commands it performs itself. -/
  | scarab
  /-- Application core `h`, by its logical number, in the mode it executes in. -/
  | core (h : Fin 64)
deriving DecidableEq, Repr

/-- A link frame as received, its header fields of R749 and, for a TRAIN frame, its payload's fields of R768. -/
structure Frame where
  ty : Nat
  seq : Nat
  ack : Nat
  ackv : Bool
  cvc : Bool
  vc : Bool
  len : Nat
  cred : Nat
  ctl : Nat
  payload : List Nat
deriving DecidableEq, Repr

/-- What a firmware image slot of the flash device holds when the package is first powered: present, its
security version, image version, stepping and microcode level, and its bytes. -/
structure ImageInfo where
  present : Bool
  secVersion : Nat
  imgVersion : Nat
  stepping : Nat
  mcode : Nat
  bytes : Nat
deriving DecidableEq, Repr

/-- What the fuse bank holds (R892): whether its integrity check passes, the grade, the stepping, the serial
number, the anti-rollback security version, and the factory repair map as (array, entry, physical line). -/
structure Fuses where
  good : Bool
  grade : Fin 2
  stepping : Fin 256
  serial : W64
  secVersion : Nat
  maps : List (Fin 16 × Fin 641 × Fin 1024)
deriving DecidableEq, Repr

/-- A stack that has passed its training (R479): its vendor code, the soft and hard repair resources of each of
its banks that is not listed, and those of the banks listed. -/
structure TrainedStack where
  stack : Fin 8
  vendor : Fin 256
  sppr : Fin 16
  hppr : Fin 16
  banks : List (Fin 4096 × Fin 16 × Fin 16)
deriving DecidableEq, Repr

/-- What the outside world shows while Scarab performs a maintenance command: whether the standby slot's blocks are worn
(R948), whether an image verifies and what it says of itself (R896), the failing address of a stack's self-test or none,
whether a Tiller passes its built-in test, and the memory errors that are met. -/
structure Observed where
  worn : Bool
  good : Bool
  image : ImageInfo
  failAt : Option Nat
  passes : Bool
  mf : MemFaults
deriving DecidableEq, Repr

/-- Nothing out of the ordinary: every test passes, and no memory error is met. -/
def Observed.plain : Observed := ⟨false, true, ⟨true, 0, 0, 0, 0, 0⟩, none, true, MemFaults.none⟩

/-- An export entry (R599); `rights` has R, W, A in bits 0 to 2. -/
structure Export where
  valid : Bool
  partition : Nat
  job : Nat
  rights : Nat
  base : Nat
  len : Nat
  cntBase : Nat
  cntCount : Nat
deriving DecidableEq, Repr

def Export.reset : Export := ⟨false, 0, 0, 0, 0, 0, 0, 0⟩

end Sys2Proof.Machine
end

