-- ==== Sys2Proof/Syntax.lean ====
section
/-! DEFINITION. The commands of the GN8 package: one constructor of `Instr` for each row of the
table of operations and events, with the operands the row needs. A command stands for one whole,
indivisible step of the part: a register access, a Sunas command, a tile or core instruction, an
arrival from outside, or an event of the part. What the outside world decides (a sensor reading, a
frame received, a memory error found) is an operand. -/

namespace Sys2Proof

open Sys2Proof.Machine

/-- The commands, in the order of the table. -/
inductive Instr where
  /-- PWRGD_RISE (R888). -/
  | pwrgdRise (fuses : Fuses) (latchLow : Bool)
  /-- PWRGD_FALL (R915). -/
  | pwrgdFall
  /-- RESET_ASSERT (R914). -/
  | resetAssert
  /-- RESET_RELEASE (R914). -/
  | resetRelease
  /-- REFCLK_LOSS (R1064). -/
  | refclkLoss
  /-- REFCLK_RETURN (R1064). -/
  | refclkReturn
  /-- LATCH_OPEN (R895). -/
  | latchOpen
  /-- LATCH_CLOSE (R1101). -/
  | latchClose
  /-- BUTTON_PRESS (R1063). -/
  | buttonPress
  /-- SERVICE_BUTTON (R1094). -/
  | serviceButton (ms : Nat)
  /-- BUTTON_STUCK (R1094). -/
  | buttonStuck
  /-- OVERCURRENT (R1081). -/
  | overcurrent (t : Fin 4)
  /-- RAIL_SAMPLE (R1076). -/
  | railSample (samples : List (Nat × Nat)) (watts : Nat)
  /-- THERMAL_SAMPLE (R1084). -/
  | thermalSample (temps : List Int)
  /-- THERMTRIP (R1087). -/
  | thermtrip (stack : Bool) (idx : Fin 13) (temp : Int)
  /-- THERMTRIP_RELEASE (R1088). -/
  | thermtripRelease
  /-- VACK_WRITE (R1077). -/
  | vackWrite (k : Fin 6) (v : Nat)
  /-- VSET_TIMEOUT (R1079). -/
  | vsetTimeout (k : Fin 6)
  /-- ISLAND_SAMPLE (R48). -/
  | islandSample (samples : List (Nat × Int × Nat)) (requests : List (Nat × Nat))
  /-- I3C_ADDRESS_ASSIGN (R1065). -/
  | i3cAddressAssign (addr : Fin 128)
  /-- I3C_ENEC (R1065). -/
  | i3cEnec
  /-- I3C_PRIVATE_WRITE (R1066). -/
  | i3cPrivateWrite (off : Fin 65536) (data : List Byte)
  /-- I3C_PRIVATE_READ (R1066). -/
  | i3cPrivateRead (len : Nat)
  /-- EXTEST (R1071). -/
  | extest (data : Nat)
  /-- SAMPLE_PRELOAD (R1071). -/
  | samplePreload (data : Nat)
  /-- IDCODE (R1071). -/
  | idcode (data : Nat)
  /-- MBACC (R1071). -/
  | mbacc (off : Fin 512) (write : Option W64)
  /-- BYPASS (R1071). -/
  | bypass (opcode : Fin 256) (data : Nat)
  /-- TRST (R1062). -/
  | trst
  /-- STAGE_1_IMAGE_VERIFY (R896). -/
  | stage1ImageVerify (sigA sigB journalOk : Bool) (failedCores : List (Fin 64)) (modules : List (Fin 6 × Bool × Nat))
  /-- STAGE_2_HBM (R902). -/
  | stage2Hbm (up : List TrainedStack)
  /-- STAGE_3_BOOT (R904). -/
  | stage3Boot (image : List Byte)
  /-- STAGE_4_TILLER_BRINGUP (R907). -/
  | stage4TillerBringup (t : Fin 4) (banks : List (Fin 64)) (defects : List (Fin 4 × List (Fin 641)))
  /-- STAGE_4_COMPLETE (R909). -/
  | stage4Complete
  /-- DOMAIN_JOIN (R911). -/
  | domainJoin
  /-- STAGE_BUDGET_EXPIRY (R913). -/
  | stageBudgetExpiry
  /-- SCARAB_LOCKSTEP (R995). -/
  | scarabLockstep
  /-- SCARAB_RESTART_DONE (R996). -/
  | scarabRestartDone
  /-- FW_REVERTED (R953). -/
  | fwReverted
  /-- STATUS (R938). -/
  | status (m : Fin 64)
  /-- NODE_READY (R905). -/
  | nodeReady (m : Fin 64)
  /-- RESTART (R914). -/
  | restart (m : Fin 64)
  /-- CORE_START (R586). -/
  | coreStart (m : Fin 64)
  /-- JOIN (R911). -/
  | join (m : Fin 64)
  /-- PLACE_SET (R805). -/
  | placeSet (m : Fin 64)
  /-- NOTIFY_SET (R939). -/
  | notifySet (m : Fin 64)
  /-- PART_SET (R938). -/
  | partSet (m : Fin 64)
  /-- PART_START (R938). -/
  | partStart (m : Fin 64)
  /-- PART_STOP (R938). -/
  | partStop (m : Fin 64)
  /-- PART_RESET (R375). -/
  | partReset (m : Fin 64)
  /-- KEY_SET (R831). -/
  | keySet (m : Fin 64)
  /-- KEY_GET (R838). -/
  | keyGet (m : Fin 64)
  /-- MEM_INTERLEAVE (R430). -/
  | memInterleave (m : Fin 64)
  /-- MEM_REGULATOR (R446). -/
  | memRegulator (m : Fin 64)
  /-- MEM_BLOCK_MODE (R442). -/
  | memBlockMode (m : Fin 64)
  /-- MEM_UE_LIMIT (R475). -/
  | memUeLimit (m : Fin 64)
  /-- MEM_SCRUB (R463). -/
  | memScrub (m : Fin 64)
  /-- ROW_ACK (R470). -/
  | rowAck (m : Fin 64)
  /-- RETIRE_READ (R938). -/
  | retireRead (m : Fin 64)
  /-- PORT_ROLES (R741). -/
  | portRoles (m : Fin 64)
  /-- LANE_LIMIT (R775). -/
  | laneLimit (m : Fin 64)
  /-- PORT_RETRAIN (R772). -/
  | portRetrain (m : Fin 64)
  /-- LASER_EVACUATE (R788). -/
  | laserEvacuate (m : Fin 64)
  /-- TABLE_SET (R814). -/
  | tableSet (m : Fin 64) (peer : List Export)
  /-- EXPORT_SET (R601). -/
  | exportSet (m : Fin 64)
  /-- REPLICA_SET (R634). -/
  | replicaSet (m : Fin 64)
  /-- DOMAIN_TIMEOUT (R641). -/
  | domainTimeout (m : Fin 64)
  /-- WINDOW_SET (R659). -/
  | windowSet (m : Fin 64)
  /-- CONN_OPEN (R665). -/
  | connOpen (m : Fin 64)
  /-- CONN_CLOSE (R938). -/
  | connClose (m : Fin 64)
  /-- CONN_TIMEOUT (R684). -/
  | connTimeout (m : Fin 64)
  /-- VIEW_SET (R488). -/
  | viewSet (m : Fin 64)
  /-- VIEW_COUNTS (R524). -/
  | viewCounts (m : Fin 64)
  /-- HUSK_CONFIG (R844). -/
  | huskConfig (m : Fin 64)
  /-- HUSK_FREEZE (R850). -/
  | huskFreeze (m : Fin 64)
  /-- HUSK_ABANDON (R870). -/
  | huskAbandon (m : Fin 64)
  /-- HUSK_COMMIT (R873). -/
  | huskCommit (m : Fin 64)
  /-- HUSK_ROLLBACK (R875). -/
  | huskRollback (m : Fin 64)
  /-- HUSK_RESTORE (R877). -/
  | huskRestore (m : Fin 64)
  /-- RING_SET (R1110). -/
  | ringSet (m : Fin 64)
  /-- GROUP_SET (R693). -/
  | groupSet (m : Fin 64)
  /-- GROUP_RESET (R695). -/
  | groupReset (m : Fin 64)
  /-- SENSORS (R938). -/
  | sensors (m : Fin 64)
  /-- TILLER_CAP (R1082). -/
  | tillerCap (m : Fin 64)
  /-- TILLER_STATE (R990). -/
  | tillerState (m : Fin 64) (o : Observed)
  /-- FW_INFO (R938). -/
  | fwInfo (m : Fin 64)
  /-- FW_WRITE (R947). -/
  | fwWrite (m : Fin 64) (o : Observed)
  /-- FW_VERIFY (R896). -/
  | fwVerify (m : Fin 64) (o : Observed)
  /-- FW_ACTIVATE (R950). -/
  | fwActivate (m : Fin 64)
  /-- FW_COMMIT (R954). -/
  | fwCommit (m : Fin 64)
  /-- UCODE_APPLY (R833). -/
  | ucodeApply (m : Fin 64)
  /-- LOG_INFO (R1020). -/
  | logInfo (m : Fin 64)
  /-- LOG_READ (R1020). -/
  | logRead (m : Fin 64)
  /-- HBM_1500 (R481). -/
  | hbm1500 (m : Fin 64) (o : Observed)
  /-- HBM_BIST (R481). -/
  | hbmBist (m : Fin 64) (o : Observed)
  /-- HBM_MODEREG (R481). -/
  | hbmModereg (m : Fin 64) (o : Observed)
  /-- HBM_REPAIR (R468). -/
  | hbmRepair (m : Fin 64) (o : Observed)
  /-- ARRAY_MAP (R174). -/
  | arrayMap (m : Fin 64)
  /-- MAINT_STATUS (R938). -/
  | maintStatus (m : Fin 64)
  /-- MAINT_CANCEL (R946). -/
  | maintCancel (m : Fin 64)
  /-- MAINT_DEFERRED_START (R944). -/
  | maintDeferredStart (n : Nat) (o : Observed)
  /-- LOG_PROGRAM (R1018). -/
  | logProgram (n erases : Nat) (worn : Bool)
  /-- PINNED_WRITE (R1010). -/
  | pinnedWrite (erases : Nat) (worn : Bool)
  /-- ENTRY_START (R366). -/
  | entryStart (t : Fin 4) (mf : MemFaults)
  /-- COLL_SLOT_RELEASE (R697). -/
  | collSlotRelease (t : Fin 4) (c : Fin 128)
  /-- TIME_SLICE (R348). -/
  | timeSlice (t : Fin 4) (c : Fin 128)
  /-- CONTEXT_WAKE (R349). -/
  | contextWake (t : Fin 4) (c : Fin 128)
  /-- QUEUE_SPACE_FREED (R355). -/
  | queueSpaceFreed (t : Fin 4) (c : Fin 128)
  /-- QUEUE_ENTRY (R351). -/
  | queueEntry (t : Fin 4) (c : Fin 128) (mf : MemFaults)
  /-- ENTRY_TIMEOUT (R417). -/
  | entryTimeout (t : Fin 4) (c : Fin 128)
  /-- ENTRY_COMPLETE (R373). -/
  | entryComplete (t : Fin 4) (c : Fin 128)
  /-- NOP (R387). -/
  | nop (t : Fin 4) (c : Fin 128) (mf : MemFaults)
  /-- END (R387). -/
  | endEntry (t : Fin 4) (c : Fin 128) (mf : MemFaults)
  /-- END_ABORT (R387). -/
  | endAbort (t : Fin 4) (c : Fin 128) (mf : MemFaults)
  /-- LI (R387). -/
  | li (t : Fin 4) (c : Fin 128) (mf : MemFaults)
  /-- ALU (R388). -/
  | alu (t : Fin 4) (c : Fin 128) (mf : MemFaults)
  /-- ALUI (R388). -/
  | alui (t : Fin 4) (c : Fin 128) (mf : MemFaults)
  /-- LD (R358). -/
  | ld (t : Fin 4) (c : Fin 128) (mf : MemFaults)
  /-- ST (R358). -/
  | st (t : Fin 4) (c : Fin 128) (mf : MemFaults)
  /-- BR (R387). -/
  | br (t : Fin 4) (c : Fin 128) (mf : MemFaults)
  /-- JAL (R1111). -/
  | jal (t : Fin 4) (c : Fin 128) (mf : MemFaults)
  /-- JALR (R1111). -/
  | jalr (t : Fin 4) (c : Fin 128) (mf : MemFaults)
  /-- YIELD (R348). -/
  | yield (t : Fin 4) (c : Fin 128) (mf : MemFaults)
  /-- CSRR (R388). -/
  | csrr (t : Fin 4) (c : Fin 128) (mf : MemFaults)
  /-- SFENCE_QUEUE (R392). -/
  | sfenceQueue (t : Fin 4) (c : Fin 128) (mf : MemFaults)
  /-- SFENCE_ALL (R392). -/
  | sfenceAll (t : Fin 4) (c : Fin 128) (mf : MemFaults)
  /-- SQWAIT (R392). -/
  | sqwait (t : Fin 4) (c : Fin 128) (mf : MemFaults)
  /-- SQWAIT_RELEASE (R392). -/
  | sqwaitRelease (t : Fin 4) (q : Fin 16)
  /-- SQWAIT_TIMEOUT (R278). -/
  | sqwaitTimeout (t : Fin 4) (q : Fin 16)
  /-- TADD (R627). -/
  | tadd (t : Fin 4) (c : Fin 128) (mf : MemFaults)
  /-- TSET (R627). -/
  | tset (t : Fin 4) (c : Fin 128) (mf : MemFaults)
  /-- TCAS (R627). -/
  | tcas (t : Fin 4) (c : Fin 128) (mf : MemFaults)
  /-- TREAD (R627). -/
  | tread (t : Fin 4) (c : Fin 128) (mf : MemFaults)
  /-- TWAIT (R630). -/
  | twait (t : Fin 4) (c : Fin 128) (mf : MemFaults)
  /-- TWAIT_TIMEOUT (R278). -/
  | twaitTimeout (t : Fin 4) (c : Fin 128)
  /-- CCOPY (R396). -/
  | ccopy (t : Fin 4) (q : Fin 8) (mf : MemFaults)
  /-- CFILL (R397). -/
  | cfill (t : Fin 4) (q : Fin 8) (mf : MemFaults)
  /-- CGATHER (R398). -/
  | cgather (t : Fin 4) (q : Fin 8) (mf : MemFaults)
  /-- COPY_DONE (R402). -/
  | copyDone (t : Fin 4) (q : Fin 8)
  /-- RSTORE (R607). -/
  | rstore (t : Fin 4) (q : Fin 8) (mf : MemFaults)
  /-- RFSTORE (R620). -/
  | rfstore (t : Fin 4) (q : Fin 8) (mf : MemFaults)
  /-- RLOAD (R611). -/
  | rload (t : Fin 4) (q : Fin 8) (mf : MemFaults)
  /-- RATOM (R609). -/
  | ratom (t : Fin 4) (q : Fin 8) (mf : MemFaults)
  /-- RPUT (R668). -/
  | rput (t : Fin 4) (q : Fin 8) (mf : MemFaults)
  /-- RGET (R668). -/
  | rget (t : Fin 4) (q : Fin 8) (mf : MemFaults)
  /-- RTADD (R669). -/
  | rtadd (t : Fin 4) (q : Fin 8) (mf : MemFaults)
  /-- REMOTE_OP_DONE (R402). -/
  | remoteOpDone (op : Nat)
  /-- FLAGGED_STORE_RELEASE (R620). -/
  | flaggedStoreRelease (op : Nat) (mf : MemFaults)
  /-- COUNTER_ADDITION_SEND (R622). -/
  | counterAdditionSend (op : Nat)
  /-- PLANE_HOLD_RELEASE (R643). -/
  | planeHoldRelease (op : Nat) (mf : MemFaults)
  /-- DOMAIN_STORE_PIECE (R608). -/
  | domainStorePiece (slot : Fin 128) (piece job addr : Nat) (data : List Byte) (mf : MemFaults)
  /-- DOMAIN_LOAD_REQUEST (R608). -/
  | domainLoadRequest (slot : Fin 128) (piece job addr len : Nat) (mf : MemFaults)
  /-- DOMAIN_ATOMIC_PIECE (R609). -/
  | domainAtomicPiece (slot : Fin 128) (piece job addr : Nat) (atop : Fin 10) (w64 : Bool) (x cmp : Nat) (mf : MemFaults)
  /-- DOMAIN_COUNTER_ADDITION (R604). -/
  | domainCounterAddition (slot : Fin 128) (piece job ctr : Nat) (x : W64)
  /-- DOMAIN_ACK (R608). -/
  | domainAck (op piece : Nat)
  /-- DOMAIN_LOAD_DATA (R611). -/
  | domainLoadData (op piece : Nat) (data : List Byte) (mf : MemFaults)
  /-- DOMAIN_ATOMIC_RESULT (R609). -/
  | domainAtomicResult (op : Nat) (prior : W64) (mf : MemFaults)
  /-- DOMAIN_REFUSAL (R646). -/
  | domainRefusal (op piece code : Nat)
  /-- DOMAIN_ACCESS_TIMEOUT (R641). -/
  | domainAccessTimeout (op piece : Nat)
  /-- PUT_PIECE (R673). -/
  | putPiece (c psn w gen off : Nat) (data : List Byte) (mf : MemFaults)
  /-- GET_REQUEST (R673). -/
  | getRequest (c psn w gen off len : Nat) (mf : MemFaults)
  /-- GET_RESPONSE (R675). -/
  | getResponse (op piece : Nat) (data : List Byte) (mf : MemFaults)
  /-- TRANSPORT_COUNTER_ADDITION (R679). -/
  | transportCounterAddition (c psn : Nat) (w : Option Nat) (ctr : Nat) (x : W64)
  /-- TRANSPORT_ACK (R676). -/
  | transportAck (c psn srttUs : Nat)
  /-- TRANSPORT_NAK (R678). -/
  | transportNak (c : Nat)
  /-- TRANSPORT_REFUSAL (R681). -/
  | transportRefusal (c psn code : Nat)
  /-- RETRANSMISSION_TIMEOUT (R678). -/
  | retransmissionTimeout (c : Nat)
  /-- CONNECTION_FAILURE (R683). -/
  | connectionFailure (c : Nat)
  /-- WINDOW_FETCH (R661). -/
  | windowFetch (c w : Nat)
  /-- WINDOW_DESCRIPTOR (R661). -/
  | windowDescriptor (c w : Nat) (valid : Bool) (job rights len cntBase cntCount gen : Nat) (mf : MemFaults)
  /-- WINDOW_INVALIDATION (R663). -/
  | windowInvalidation (c w : Nat)
  /-- MLDB (R119). -/
  | mldb (t a : Fin 4) (mf : MemFaults)
  /-- MMUL (R128). -/
  | mmul (t a : Fin 4) (mf : MemFaults) (mism : List Nat)
  /-- MACM (R166). -/
  | macm (t a : Fin 4) (mf : MemFaults)
  /-- MFLD (R193). -/
  | mfld (t a : Fin 4) (mf : MemFaults)
  /-- MCMB (R196). -/
  | mcmb (t a : Fin 4) (mf : MemFaults)
  /-- MSETP (R216). -/
  | msetp (t a : Fin 4) (mf : MemFaults)
  /-- MSETE (R239). -/
  | msete (t a : Fin 4) (mf : MemFaults)
  /-- MEPI (R242). -/
  | mepi (t a : Fin 4) (mf : MemFaults)
  /-- MCHN (R267). -/
  | mchn (t a : Fin 4) (mf : MemFaults)
  /-- MWAIT (R271). -/
  | mwait (t a : Fin 4)
  /-- MWAIT_RELEASE (R275). -/
  | mwaitRelease (t a : Fin 4)
  /-- MWAIT_TIMEOUT (R278). -/
  | mwaitTimeout (t a : Fin 4)
  /-- ARRAY_OP_DONE (R402). -/
  | arrayOpDone (t a : Fin 4)
  /-- ARRAY_ABIST (R159). -/
  | arrayAbist (t a : Fin 4) (defects : List (Fin 641)) (mism : List Nat) (mf : MemFaults)
  /-- VADD (R307). -/
  | vadd (t : Fin 4) (mf : MemFaults)
  /-- VSUB (R307). -/
  | vsub (t : Fin 4) (mf : MemFaults)
  /-- VMUL (R307). -/
  | vmul (t : Fin 4) (mf : MemFaults)
  /-- VFMA (R307). -/
  | vfma (t : Fin 4) (mf : MemFaults)
  /-- VFMS (R307). -/
  | vfms (t : Fin 4) (mf : MemFaults)
  /-- VDIV (R307). -/
  | vdiv (t : Fin 4) (mf : MemFaults)
  /-- VSQRT (R307). -/
  | vsqrt (t : Fin 4) (mf : MemFaults)
  /-- VRSQRT (R307). -/
  | vrsqrt (t : Fin 4) (mf : MemFaults)
  /-- VMAX (R307). -/
  | vmax (t : Fin 4) (mf : MemFaults)
  /-- VMIN (R307). -/
  | vmin (t : Fin 4) (mf : MemFaults)
  /-- VABS (R307). -/
  | vabs (t : Fin 4) (mf : MemFaults)
  /-- VNEG (R307). -/
  | vneg (t : Fin 4) (mf : MemFaults)
  /-- VCMP (R313). -/
  | vcmp (t : Fin 4) (mf : MemFaults)
  /-- VSEL (R307). -/
  | vsel (t : Fin 4) (mf : MemFaults)
  /-- VAND (R307). -/
  | vand (t : Fin 4) (mf : MemFaults)
  /-- VOR (R307). -/
  | vor (t : Fin 4) (mf : MemFaults)
  /-- VXOR (R307). -/
  | vxor (t : Fin 4) (mf : MemFaults)
  /-- VSHL (R307). -/
  | vshl (t : Fin 4) (mf : MemFaults)
  /-- VSRA (R307). -/
  | vsra (t : Fin 4) (mf : MemFaults)
  /-- VSRL (R307). -/
  | vsrl (t : Fin 4) (mf : MemFaults)
  /-- VEXP (R307). -/
  | vexp (t : Fin 4) (mf : MemFaults)
  /-- VEXP2 (R307). -/
  | vexp2 (t : Fin 4) (mf : MemFaults)
  /-- VLOG (R307). -/
  | vlog (t : Fin 4) (mf : MemFaults)
  /-- VLOG2 (R307). -/
  | vlog2 (t : Fin 4) (mf : MemFaults)
  /-- VSIN (R307). -/
  | vsin (t : Fin 4) (mf : MemFaults)
  /-- VCOS (R307). -/
  | vcos (t : Fin 4) (mf : MemFaults)
  /-- VTANH (R307). -/
  | vtanh (t : Fin 4) (mf : MemFaults)
  /-- VERF (R307). -/
  | verf (t : Fin 4) (mf : MemFaults)
  /-- VACT (R1109). -/
  | vact (t : Fin 4) (mf : MemFaults)
  /-- VPOLY (R310). -/
  | vpoly (t : Fin 4) (mf : MemFaults)
  /-- VRSUM (R318). -/
  | vrsum (t : Fin 4) (mf : MemFaults)
  /-- VRDOT (R318). -/
  | vrdot (t : Fin 4) (mf : MemFaults)
  /-- VRMAX (R322). -/
  | vrmax (t : Fin 4) (mf : MemFaults)
  /-- VRMIN (R322). -/
  | vrmin (t : Fin 4) (mf : MemFaults)
  /-- VTOPK (R325). -/
  | vtopk (t : Fin 4) (mf : MemFaults)
  /-- VRNG (R331). -/
  | vrng (t : Fin 4) (mf : MemFaults)
  /-- VCVT (R312). -/
  | vcvt (t : Fin 4) (mf : MemFaults)
  /-- VE_INSTR_DONE (R303). -/
  | veInstrDone (t : Fin 4)
  /-- CSLC (R177). -/
  | cslc (t : Fin 4) (mf : MemFaults)
  /-- CSLC_DONE (R402). -/
  | cslcDone (t : Fin 4)
  /-- SPM_BANK_COPY (R1003). -/
  | spmBankCopy (t : Fin 4)
  /-- HBM_REQUEST_GRANT (R449). -/
  | hbmRequestGrant (k : Fin 8)
  /-- HBM_EPOCH (R450). -/
  | hbmEpoch (k : Fin 8)
  /-- HBM_PATROL_SCRUB (R463). -/
  | hbmPatrolScrub (k : Fin 8) (n : Nat) (mf : MemFaults)
  /-- HBM_REFRESH (R466). -/
  | hbmRefresh (k : Fin 8) (bank : Fin 4096)
  /-- HBM_TEMP_READ (R467). -/
  | hbmTempRead (k : Fin 8) (temp : Fin 256)
  /-- HBM_SOFT_REPAIR (R468). -/
  | hbmSoftRepair (k : Fin 8) (mf : MemFaults)
  /-- HBM_ROW_FENCE (R470). -/
  | hbmRowFence (k : Fin 8) (row : Nat)
  /-- VIEW_READ (R495). -/
  | viewRead (t : Fin 4) (p : Fin 8) (v : Fin 256) (off len : Nat) (mf : MemFaults)
  /-- VIEW_WRITE_REPLACE (R507). -/
  | viewWriteReplace (t : Fin 4) (p : Fin 8) (v : Fin 256) (off : Nat) (data : List Byte) (mf : MemFaults)
  /-- VIEW_WRITE_ACCUMULATE (R508). -/
  | viewWriteAccumulate (t : Fin 4) (p : Fin 8) (v : Fin 256) (off : Nat) (data : List Byte) (mf : MemFaults)
  /-- HUSK_TRIGGER (R849). -/
  | huskTrigger (p : Fin 8)
  /-- HUSK_FROZEN (R850). -/
  | huskFrozen (p : Fin 8)
  /-- HUSK_COW_COPY (R854). -/
  | huskCowCopy (p : Fin 8) (addr : Nat) (data : List Byte) (mf : MemFaults)
  /-- HUSK_RESERVE_FREED (R860). -/
  | huskReserveFreed (p : Fin 8)
  /-- HUSK_OVERFLOW (R861). -/
  | huskOverflow (p : Fin 8)
  /-- HUSK_SHARD_DRAINED (R865). -/
  | huskShardDrained (p : Fin 8) (i : Nat) (mf : MemFaults)
  /-- HUSK_MANIFEST_SEND (R864). -/
  | huskManifestSend (p : Fin 8)
  /-- HUSK_COMPLETE (R869). -/
  | huskComplete (p : Fin 8)
  /-- HUSK_ROLLED_BACK (R876). -/
  | huskRolledBack (p : Fin 8)
  /-- HUSK_MANIFEST_CHECK (R878). -/
  | huskManifestCheck (p : Fin 8) (manifest : List Byte) (verified : Bool)
  /-- HUSK_SHARD_RESTORE (R879). -/
  | huskShardRestore (p : Fin 8) (i : Nat) (data : List Byte)
  /-- HUSK_RESTORED (R882). -/
  | huskRestored (p : Fin 8)
  /-- DATA_FRAME (R758). -/
  | dataFrame (k : Fin 24) (f : Frame)
  /-- IDLE_FRAME (R761). -/
  | idleFrame (k : Fin 24) (f : Frame)
  /-- NAK_FRAME (R761). -/
  | nakFrame (k : Fin 24) (f : Frame)
  /-- LANEMAP_FRAME (R776). -/
  | lanemapFrame (k : Fin 24) (f : Frame)
  /-- TRAIN_FRAME (R768). -/
  | trainFrame (k : Fin 24) (f : Frame)
  /-- BAD_FRAME (R751). -/
  | badFrame (k : Fin 24) (crc : Bool) (codewords : Nat)
  /-- REPLAY_TIMEOUT (R762). -/
  | replayTimeout (k : Fin 24)
  /-- LINK_DOWN_TIMEOUT (R763). -/
  | linkDownTimeout (k : Fin 24)
  /-- DETECT_SUCCESS (R766). -/
  | detectSuccess (k : Fin 24)
  /-- DETECT_TIMEOUT (R766). -/
  | detectTimeout (k : Fin 24)
  /-- ALIGN_SUCCESS (R766). -/
  | alignSuccess (k : Fin 24) (goodTx goodRx : Fin 512)
  /-- ALIGN_TIMEOUT (R766). -/
  | alignTimeout (k : Fin 24)
  /-- EXCHANGE_TIMEOUT (R766). -/
  | exchangeTimeout (k : Fin 24)
  /-- BACKOFF_EXPIRY (R770). -/
  | backoffExpiry (k : Fin 24)
  /-- DARK_PROBE (R771). -/
  | darkProbe (k : Fin 24)
  /-- FIBRE_OUT (R773). -/
  | fibreOut (k : Fin 24)
  /-- FIBRE_IN (R773). -/
  | fibreIn (k : Fin 24)
  /-- LIGHT_LOSS (R774). -/
  | lightLoss (k : Fin 24)
  /-- LANE_FAILING (R775). -/
  | laneFailing (k : Fin 24) (lane : Fin 9)
  /-- SPARING_TIMEOUT (R776). -/
  | sparingTimeout (k : Fin 24)
  /-- LANE_FAILED (R778). -/
  | laneFailed (k : Fin 24) (lane : Fin 18)
  /-- LASER_SOURCE_FAIL (R785). -/
  | laserSourceFail (k : Fin 24) (b : Bool)
  /-- LASER_POLL (R781). -/
  | laserPoll (m : Fin 6) (powers : List Int) (temp10 : Int) (alarm lost : Bool)
  /-- LASER_MODULE_PULL (R789). -/
  | laserModulePull (m : Fin 6)
  /-- LASER_MODULE_INSERT (R790). -/
  | laserModuleInsert (m : Fin 6) (ok : Bool) (vendor : Nat)
  /-- LASER_SETPOINT_REACHED (R790). -/
  | laserSetpointReached (m : Fin 6)
  /-- FEED_OUT (R795). -/
  | feedOut (m : Fin 6)
  /-- FEED_IN (R795). -/
  | feedIn (m : Fin 6) (ok : Bool) (vendor : Nat)
  /-- CACHE_CE (R544). -/
  | cacheCe (owner : Option (Fin 64))
  /-- CACHE_UE (R545). -/
  | cacheUe (owner : Option (Fin 64)) (addr : Nat)
  /-- CORE_LOAD (R558). -/
  | coreLoad (h : Fin 64) (w : Fin 4) (signed fp short : Bool) (rd rs1 : Fin 32) (imm : Int) (mf : MemFaults)
  /-- CORE_STORE (R538). -/
  | coreStore (h : Fin 64) (w : Fin 4) (fp short : Bool) (rs2 rs1 : Fin 32) (imm : Int) (mf : MemFaults)
  /-- CORE_AMO (R610). -/
  | coreAmo (h : Fin 64) (op : Fin 9) (w64 aq rl : Bool) (rd rs1 rs2 : Fin 32) (mf : MemFaults)
  /-- CORE_LR_SC (R538). -/
  | coreLrSc (h : Fin 64) (sc w64 : Bool) (rd rs1 rs2 : Fin 32) (mf : MemFaults)
  /-- CORE_FENCE (R542). -/
  | coreFence (h : Fin 64) (pred succ : Fin 16)
  /-- CORE_CSR_ACCESS (R565). -/
  | coreCsrAccess (h : Fin 64) (csr : Fin 4096) (kind : Fin 3) (imm : Bool) (rd src : Fin 32)
  /-- SVADD (R571). -/
  | svadd (h : Fin 64) (sz : Fin 4) (pg : Fin 8) (rd rs1 rs2 : Fin 32)
  /-- SVSUB (R571). -/
  | svsub (h : Fin 64) (sz : Fin 4) (pg : Fin 8) (rd rs1 rs2 : Fin 32)
  /-- SVADDS (R571). -/
  | svadds (h : Fin 64) (sz : Fin 4) (pg : Fin 8) (rd rs1 rs2 : Fin 32)
  /-- SVADDSU (R571). -/
  | svaddsu (h : Fin 64) (sz : Fin 4) (pg : Fin 8) (rd rs1 rs2 : Fin 32)
  /-- SVSUBS (R571). -/
  | svsubs (h : Fin 64) (sz : Fin 4) (pg : Fin 8) (rd rs1 rs2 : Fin 32)
  /-- SVSUBSU (R571). -/
  | svsubsu (h : Fin 64) (sz : Fin 4) (pg : Fin 8) (rd rs1 rs2 : Fin 32)
  /-- SVMUL (R571). -/
  | svmul (h : Fin 64) (sz : Fin 4) (pg : Fin 8) (rd rs1 rs2 : Fin 32)
  /-- SVMULHR (R571). -/
  | svmulhr (h : Fin 64) (sz : Fin 4) (pg : Fin 8) (rd rs1 rs2 : Fin 32)
  /-- SVSRAR (R571). -/
  | svsrar (h : Fin 64) (sz : Fin 4) (pg : Fin 8) (rd rs1 rs2 : Fin 32)
  /-- SVSLLS (R571). -/
  | svslls (h : Fin 64) (sz : Fin 4) (pg : Fin 8) (rd rs1 rs2 : Fin 32)
  /-- SVSLL (R571). -/
  | svsll (h : Fin 64) (sz : Fin 4) (pg : Fin 8) (rd rs1 rs2 : Fin 32)
  /-- SVSRL (R571). -/
  | svsrl (h : Fin 64) (sz : Fin 4) (pg : Fin 8) (rd rs1 rs2 : Fin 32)
  /-- SVSRA (R571). -/
  | svsra (h : Fin 64) (sz : Fin 4) (pg : Fin 8) (rd rs1 rs2 : Fin 32)
  /-- SVMIN (R571). -/
  | svmin (h : Fin 64) (sz : Fin 4) (pg : Fin 8) (rd rs1 rs2 : Fin 32)
  /-- SVMAX (R571). -/
  | svmax (h : Fin 64) (sz : Fin 4) (pg : Fin 8) (rd rs1 rs2 : Fin 32)
  /-- SVMINU (R571). -/
  | svminu (h : Fin 64) (sz : Fin 4) (pg : Fin 8) (rd rs1 rs2 : Fin 32)
  /-- SVMAXU (R571). -/
  | svmaxu (h : Fin 64) (sz : Fin 4) (pg : Fin 8) (rd rs1 rs2 : Fin 32)
  /-- SVAND (R571). -/
  | svand (h : Fin 64) (sz : Fin 4) (pg : Fin 8) (rd rs1 rs2 : Fin 32)
  /-- SVOR (R571). -/
  | svor (h : Fin 64) (sz : Fin 4) (pg : Fin 8) (rd rs1 rs2 : Fin 32)
  /-- SVXOR (R571). -/
  | svxor (h : Fin 64) (sz : Fin 4) (pg : Fin 8) (rd rs1 rs2 : Fin 32)
  /-- SVAVGR (R571). -/
  | svavgr (h : Fin 64) (sz : Fin 4) (pg : Fin 8) (rd rs1 rs2 : Fin 32)
  /-- SVCMPEQ (R571). -/
  | svcmpeq (h : Fin 64) (sz : Fin 4) (pg : Fin 8) (rd rs1 rs2 : Fin 32)
  /-- SVCMPLT (R571). -/
  | svcmplt (h : Fin 64) (sz : Fin 4) (pg : Fin 8) (rd rs1 rs2 : Fin 32)
  /-- SVCMPLTU (R571). -/
  | svcmpltu (h : Fin 64) (sz : Fin 4) (pg : Fin 8) (rd rs1 rs2 : Fin 32)
  /-- SVSEL (R571). -/
  | svsel (h : Fin 64) (sz : Fin 4) (pg : Fin 8) (rd rs1 rs2 : Fin 32)
  /-- SVFADD (R571). -/
  | svfadd (h : Fin 64) (sz : Fin 4) (pg : Fin 8) (rd rs1 rs2 : Fin 32)
  /-- SVFMUL (R571). -/
  | svfmul (h : Fin 64) (sz : Fin 4) (pg : Fin 8) (rd rs1 rs2 : Fin 32)
  /-- SVFMA (R571). -/
  | svfma (h : Fin 64) (sz : Fin 4) (pg : Fin 8) (rd rs1 rs2 : Fin 32)
  /-- SVMV (R571). -/
  | svmv (h : Fin 64) (sz : Fin 4) (pg : Fin 8) (rd rs1 rs2 : Fin 32)
  /-- SVLD (R574). -/
  | svld (h : Fin 64) (sz : Fin 4) (pg : Fin 8) (rd rs1 rs2 : Fin 32) (mf : MemFaults)
  /-- SVST (R574). -/
  | svst (h : Fin 64) (sz : Fin 4) (pg : Fin 8) (rd rs1 rs2 : Fin 32) (mf : MemFaults)
  /-- SVPOP (R571). -/
  | svpop (h : Fin 64) (sz : Fin 4) (pg : Fin 8) (rd rs1 rs2 : Fin 32)
  /-- LVFADD (R577). -/
  | lvfadd (h : Fin 64) (sz : Fin 4) (rm : Fin 8) (rd rs1 rs2 : Fin 32)
  /-- LVFSUB (R577). -/
  | lvfsub (h : Fin 64) (sz : Fin 4) (rm : Fin 8) (rd rs1 rs2 : Fin 32)
  /-- LVFMUL (R577). -/
  | lvfmul (h : Fin 64) (sz : Fin 4) (rm : Fin 8) (rd rs1 rs2 : Fin 32)
  /-- LVFMA (R577). -/
  | lvfma (h : Fin 64) (sz : Fin 4) (rm : Fin 8) (rd rs1 rs2 : Fin 32)
  /-- LVFNMS (R577). -/
  | lvfnms (h : Fin 64) (sz : Fin 4) (rm : Fin 8) (rd rs1 rs2 : Fin 32)
  /-- LVFDIV (R577). -/
  | lvfdiv (h : Fin 64) (sz : Fin 4) (rm : Fin 8) (rd rs1 rs2 : Fin 32)
  /-- LVFSQRT (R577). -/
  | lvfsqrt (h : Fin 64) (sz : Fin 4) (rm : Fin 8) (rd rs1 rs2 : Fin 32)
  /-- LVFMIN (R577). -/
  | lvfmin (h : Fin 64) (sz : Fin 4) (rm : Fin 8) (rd rs1 rs2 : Fin 32)
  /-- LVFMAX (R577). -/
  | lvfmax (h : Fin 64) (sz : Fin 4) (rm : Fin 8) (rd rs1 rs2 : Fin 32)
  /-- LVFSUM (R577). -/
  | lvfsum (h : Fin 64) (sz : Fin 4) (rm : Fin 8) (rd rs1 rs2 : Fin 32)
  /-- LVFCVT (R577). -/
  | lvfcvt (h : Fin 64) (sz : Fin 4) (rm : Fin 8) (rd rs1 rs2 : Fin 32)
  /-- LVADD (R577). -/
  | lvadd (h : Fin 64) (sz : Fin 4) (rm : Fin 8) (rd rs1 rs2 : Fin 32)
  /-- LVSUB (R577). -/
  | lvsub (h : Fin 64) (sz : Fin 4) (rm : Fin 8) (rd rs1 rs2 : Fin 32)
  /-- LVAND (R577). -/
  | lvand (h : Fin 64) (sz : Fin 4) (rm : Fin 8) (rd rs1 rs2 : Fin 32)
  /-- LVOR (R577). -/
  | lvor (h : Fin 64) (sz : Fin 4) (rm : Fin 8) (rd rs1 rs2 : Fin 32)
  /-- LVXOR (R577). -/
  | lvxor (h : Fin 64) (sz : Fin 4) (rm : Fin 8) (rd rs1 rs2 : Fin 32)
  /-- LVLD (R579). -/
  | lvld (h : Fin 64) (sz : Fin 4) (rm : Fin 8) (rd rs1 rs2 : Fin 32) (mf : MemFaults)
  /-- LVLDFF (R581). -/
  | lvldff (h : Fin 64) (sz : Fin 4) (rm : Fin 8) (rd rs1 rs2 : Fin 32) (mf : MemFaults)
  /-- LVST (R580). -/
  | lvst (h : Fin 64) (sz : Fin 4) (rm : Fin 8) (rd rs1 rs2 : Fin 32) (mf : MemFaults)
  /-- LVINS (R577). -/
  | lvins (h : Fin 64) (sz : Fin 4) (rm : Fin 8) (rd rs1 rs2 : Fin 32)
  /-- LVEXT (R577). -/
  | lvext (h : Fin 64) (sz : Fin 4) (rm : Fin 8) (rd rs1 rs2 : Fin 32)
  /-- LVSPLAT (R577). -/
  | lvsplat (h : Fin 64) (sz : Fin 4) (rm : Fin 8) (rd rs1 rs2 : Fin 32)
  /-- CT_PORT_READ (R656). -/
  | ctPortRead (t : Fin 4) (h : Fin 64)
  /-- CT_PORT_ADD (R653). -/
  | ctPortAdd (t : Fin 4) (h : Fin 64)
  /-- CT_PORT_SET (R653). -/
  | ctPortSet (t : Fin 4) (h : Fin 64)
  /-- CT_PORT_CAS (R653). -/
  | ctPortCas (t : Fin 4) (h : Fin 64)
  /-- CT_PORT_ARM (R657). -/
  | ctPortArm (t : Fin 4) (h : Fin 64)
  /-- CT_PORT_DISARM (R653). -/
  | ctPortDisarm (t : Fin 4) (h : Fin 64)
  /-- CT_P_RES_LO_READ (R656). -/
  | ctPResLoRead (t : Fin 4) (h : Fin 64)
  /-- DB_TAIL_WRITE (R982). -/
  | dbTailWrite (m : Master) (t : Fin 4) (r : Fin 8192) (v : W32)
  /-- DB_CHEAD_WRITE (R983). -/
  | dbCheadWrite (m : Master) (t : Fin 4) (r : Fin 8192) (v : W32)
  /-- DB_RPEND_READ (R987). -/
  | dbRpendRead (m : Master) (t : Fin 4) (w : Fin 256)
  /-- AC_COH_DATA_WRITE (R555). -/
  | acCohDataWrite (m : Master) (v : W32)
  /-- MA_REPAIR_DATA_WRITE (R174). -/
  | maRepairDataWrite (m : Master) (t a kind : Fin 4) (v : W32)
  /-- MA_REPAIR_DATA_READ (R175). -/
  | maRepairDataRead (m : Master) (t a : Fin 4)
  /-- HC_SCRUB_CFG_WRITE (R965). -/
  | hcScrubCfgWrite (m : Master) (k : Fin 8) (kind : Fin 4) (v : W32)
  /-- HC_LAST_UE_LO_READ (R484). -/
  | hcLastUeLoRead (m : Master) (k : Fin 8)
  /-- AC_MTIME_LO_READ (R591). -/
  | acMtimeLoRead (m : Master)
  /-- ID_SERIAL_LO_READ (R966). -/
  | idSerialLoRead (m : Master)
  /-- FL_NEWEST_LO_READ (R966). -/
  | flNewestLoRead (m : Master)
  /-- RK_DATA_READ (R840). -/
  | rkDataRead (m : Master)
  /-- SQ_RING_DATA_READ (R969). -/
  | sqRingDataRead (m : Master) (t : Fin 4)
  /-- SQ_CTX_DATA_READ (R969). -/
  | sqCtxDataRead (m : Master) (t : Fin 4)
  /-- HC_REG_DATA_READ (R969). -/
  | hcRegDataRead (m : Master) (k : Fin 8)
  /-- HC_REPAIR_DATA_READ (R969). -/
  | hcRepairDataRead (m : Master) (k : Fin 8)
  /-- WV_DATA_READ (R969). -/
  | wvDataRead (m : Master) (t : Fin 4)
  /-- AC_CORE_DATA_READ (R969). -/
  | acCoreDataRead (m : Master)
  /-- DM_SLOT_DATA_READ (R969). -/
  | dmSlotDataRead (m : Master)
  /-- XP_CONN_DATA_READ (R969). -/
  | xpConnDataRead (m : Master)
  /-- OP_LANE_DATA_READ (R801). -/
  | opLaneDataRead (m : Master) (k : Fin 24)
  /-- LS_DATA_READ (R803). -/
  | lsDataRead (m : Master)
  /-- PL_TBL_DATA_READ (R824). -/
  | plTblDataRead (m : Master)
  /-- HK_DATA_READ (R969). -/
  | hkDataRead (m : Master)
  /-- ST_DATA_READ (R969). -/
  | stDataRead (m : Master)
  /-- FL_DATA_READ (R969). -/
  | flDataRead (m : Master)
  /-- CK_DATA_READ (R969). -/
  | ckDataRead (m : Master)
  /-- PW_DATA_READ (R969). -/
  | pwDataRead (m : Master)
  /-- IC_LINE_DATA_ACCESS (R979). -/
  | icLineDataAccess (m : Master) (write : Option W32)
  /-- MA_FLAGS_READ (R961). -/
  | maFlagsRead (m : Master) (t a : Fin 4)
  /-- VE_FLAGS_READ (R961). -/
  | veFlagsRead (m : Master) (t : Fin 4)
  /-- SQ_FLAGS_READ (R961). -/
  | sqFlagsRead (m : Master) (t : Fin 4)
  /-- HC_FLAGS_READ (R961). -/
  | hcFlagsRead (m : Master) (k : Fin 8)
  /-- WV_FLAGS_READ (R961). -/
  | wvFlagsRead (m : Master) (t : Fin 4)
  /-- AC_FLAGS_READ (R961). -/
  | acFlagsRead (m : Master)
  /-- DM_FLAGS_READ (R961). -/
  | dmFlagsRead (m : Master)
  /-- CT_FLAGS_READ (R961). -/
  | ctFlagsRead (m : Master) (t : Fin 4)
  /-- CT_HIT_READ (R961). -/
  | ctHitRead (m : Master) (t : Fin 4) (hi : Bool)
  /-- XP_FLAGS_READ (R961). -/
  | xpFlagsRead (m : Master)
  /-- OP_FLAGS_READ (R961). -/
  | opFlagsRead (m : Master) (k : Fin 24)
  /-- LS_FLAGS_READ (R961). -/
  | lsFlagsRead (m : Master)
  /-- PL_FLAGS_READ (R961). -/
  | plFlagsRead (m : Master)
  /-- RK_FLAGS_READ (R961). -/
  | rkFlagsRead (m : Master)
  /-- HK_FLAGS_READ (R961). -/
  | hkFlagsRead (m : Master)
  /-- ST_FLAGS_READ (R961). -/
  | stFlagsRead (m : Master)
  /-- MB_FLAGS_READ (R961). -/
  | mbFlagsRead (m : Master) (mb : Fin 64)
  /-- ID_FLAGS_READ (R961). -/
  | idFlagsRead (m : Master)
  /-- FL_FLAGS_READ (R961). -/
  | flFlagsRead (m : Master)
  /-- CK_FLAGS_READ (R961). -/
  | ckFlagsRead (m : Master)
  /-- PW_FLAGS_READ (R961). -/
  | pwFlagsRead (m : Master)
  /-- REGISTER_WRITE (R18). -/
  | registerWrite (m : Master) (addr : Nat) (v : W32)
  /-- BEACON (R1047). -/
  | beacon (frame time echo : Nat) (diff : Int)
  /-- BEACON_MISS (R1049). -/
  | beaconMiss
  /-- MEMBER_SLOT (R1037). -/
  | memberSlot
  /-- JOIN_SLOT (R1040). -/
  | joinSlot
  /-- JOIN_RETRY (R1042). -/
  | joinRetry
  /-- ASSIGN (R1041). -/
  | assign (serial : W64) (member : Fin 128) (delay advance : Nat)
  /-- PLACE (R911). -/
  | place (place : Fin 1048576) (site : Fin 8)
  /-- MAILBOX (R1038). -/
  | mailbox (seq : Fin 65536) (frag frags : Fin 5) (data : List Byte)
  /-- PINNED_RETURN (R1013). -/
  | pinnedReturn (frag frags : Fin 5) (data : List Byte)
  /-- OFFSET (R1048). -/
  | offset (ns : Int)
  /-- RELEASE (R1051). -/
  | release
  /-- PINNED_ACK (R1039). -/
  | pinnedAck (seq : Fin 65536)
  /-- PINNED_RESEND (R1039). -/
  | pinnedResend
  /-- MUTE_TIMEOUT (R1051). -/
  | muteTimeout
  /-- CRICKET_FIBRE_OUT (R1055). -/
  | cricketFibreOut
  /-- CRICKET_FIBRE_IN (R1055). -/
  | cricketFibreIn
  /-- CRICKET_BURST (R1034). -/
  | cricketBurst (ok : Bool) (second : Option Bool)
  /-- POWER_ON (R891). -/
  | powerOn (slotA slotB : ImageInfo) (active : Fin 2) (mode : Fin 3)
  /-- MACHINE_TIMER_INTERRUPT (R590). -/
  | machineTimerInterrupt (h : Fin 64)
  /-- AC_COH_DATA_READ (R969). -/
  | acCohDataRead (m : Master)
  /-- LIVE_HAND_OVER (R951). -/
  | liveHandOver
  /-- UNDEFINED_OPCODE (R387). -/
  | undefinedOpcode (t : Fin 4) (c : Fin 128) (mf : MemFaults)
  /-- ILLEGAL_INSTRUCTION (R530). -/
  | illegalInstruction (h : Fin 64)
deriving DecidableEq, Repr

end Sys2Proof
end

