-- ==== Sys2Proof/Config.lean ====
section
/-!
DEFINITION. The values the spec leaves open, as constants without a body: nothing can be proved about
any of them, and a claim holds whatever they are.
-/
namespace Sys2Proof.Config

/-- A value that the spec leaves open, one for each reading of the counter `State.freeCtr`. -/
opaque freeValue : (w : Nat) → Nat → BitVec w

/-- Which of the codes within its bound a function of the vector engine, of an epilogue or of a softmax stage
delivers (R248, R309): from the operation's number, the formats' number, the operand's bits and the microcode
level. -/
opaque boundedFn : (op fmt bits mcode : Nat) → Nat

/-- A random draw that the spec does not fix, by the counter `State.freeCtr`. -/
opaque randomDraw : Nat → Nat

/-- Memory contents that the spec calls undefined: some bytes at some addresses, one choice for each
reading of the counter `State.freeCtr`. -/
opaque freeBytes : Nat → List (Nat × Byte)

/-- The ECDSA P-384 signature that the package's attestation key gives to a byte string, which depends on that key and
on a number drawn for each signature (R872): by the counter `State.freeCtr`. -/
opaque signature : List Byte → Nat → BitVec 768

/-- The SHA-256 of the package's attestation public key, as KEY_ID of a manifest shows it (R871). -/
opaque attestKeyId : BitVec 256

/-- The supply in mV that a Tiller's core clock in MHz needs, which the spec does not give (R1078). -/
opaque clockVoltage : (mhz : Nat) → Nat

/-- The value of a RISC-V CSR that the implementation fixes and the spec does not give, by its number. -/
opaque csrConst : (number : Nat) → BitVec 64

end Sys2Proof.Config
end

