-- ==== Sys2Proof/Machine/CoreState.lean ====
section
/-!
DEFINITION. The state of the application cores and of their complex block (R529 to R593).
-/
namespace Sys2Proof.Machine

open Sys2Proof

/-- The privilege modes of a core (R529). -/
inductive Mode where
  | user | supervisor | machine
deriving DecidableEq, Repr

/-- What a core that waits for the domain will do with the answer. -/
inductive CoreWait where
  | none
  /-- A load of `bytes` bytes at an address, for a register; `unit` is 0 an x register, 1 an f register,
  2 a w register under the byte mask `mask`, 3 a q register. -/
  | load (op : Nat) (va pa : Nat) (bytes : Nat) (signed : Bool) (unit rd mask : Nat)
  /-- An AMO. -/
  | amo (op : Nat) (va pa : Nat) (bytes : Nat) (rd : Nat)
  /-- A first-fault load: the elements in order, each with its address pair and its value, none where the
  domain still has to give it. -/
  | first (op : Nat) (bytes rd : Nat) (elems : List (Nat × Nat × Option Nat))
  /-- A FENCE that waits for the operations listed (R542). -/
  | fence (ops : List Nat)
deriving DecidableEq, Repr

/-- A logical core. `st` is 0 in service, 1 held in reset, 2 lost (R589). -/
structure Core where
  st : Nat
  phys : Nat
  mode : Mode
  pc : W64
  x : Tbl W64
  f : Tbl W64
  /-- SVX registers and predicates (R568 to R570), LVX registers (R575). -/
  w : Tbl W64
  p : Tbl (BitVec 8)
  q : Tbl W128
  /-- The CSRs of the RISC-V architecture, by number, as stored. -/
  csr : Tbl W64
  /-- The Ranbel CSRs (R565). -/
  fxrm : Nat
  fxsat : Bool
  lvffc : Nat
  vxs : Nat
  saerr : Nat
  saepa : Nat
  srsfcnt : Nat
  srsfaddr : W64
  spart : Nat
  /-- The reservation of LR: address and bytes. -/
  resv : Option (Nat × Nat)
  wait : CoreWait
  /-- Bytes of the instruction in progress. -/
  ilen : Nat
  msip : Bool
  mtimecmp : W64
  /-- Times of the uncorrectable cache errors of the last 24 h (R546). -/
  ues : List Nat
deriving DecidableEq, Repr

/-- Logical core h at reset: held, in machine mode, on the physical core of its own number; `mtimecmp`
and the RISC-V CSRs have no value in the spec (DESIGN CHOICE, log entry 7). -/
def Core.reset (h : Nat) : Core :=
  { st := 1, phys := h, mode := .machine, pc := 0, x := [], f := [], w := [], p := [], q := [], csr := [],
    fxrm := 0, fxsat := false, lvffc := 0, vxs := 0, saerr := 0, saepa := 0, srsfcnt := 0, srsfaddr := 0, spart := 0,
    resv := none, wait := .none, ilen := 4, msip := false, mtimecmp := 0xFFFFFFFFFFFFFFFF, ues := [] }

/-- The core complex: the logical cores, the coherence bitmap (bit 1 TILLER; all COHERENT after reset,
R557), the physical spares not yet used and the physical cores retired so far (R585 to R588). -/
structure Cores where
  core : Tbl Core
  coh : Tbl W32
  spares : List Nat
  retired : List Nat
deriving DecidableEq, Repr

def Cores.reset : Cores := ⟨[], [], [64, 65, 66, 67], []⟩

end Sys2Proof.Machine
end

