-- ==== Sys2Proof/Machine/CricketState.lean ====
section
/-!
DEFINITION. The state of the Cricket port (R1025 to R1060).
-/
namespace Sys2Proof.Machine

open Sys2Proof

/-- A burst to send: its KIND, MSG_SEQ, fragment index and count, and its payload after the health
summary (R1031, R1036). -/
structure Burst where
  kind : Nat
  seq : Nat
  frag : Nat
  frags : Nat
  body : List Byte
deriving DecidableEq, Repr

/-- A PINNED message that no PINNED_ACK has named: its number, its payload, and the time it was last
sent (R1039). -/
structure PinnedMsg where
  seq : Nat
  body : List Byte
  sentAt : Nat
  /-- To be sent in a slot of the member. -/
  due : Bool
deriving DecidableEq, Repr

/-- The Cricket port. `st` is the code of R1054. -/
structure Cricket where
  st : Nat
  member : Option Nat
  /-- An ASSIGN has been received: member from the next frame (R1041). -/
  assigned : Bool
  /-- Words 0 to 7 of `CK_DATA`. -/
  counts : Tbl Nat
  frame : Nat
  delay : Nat
  advance : Nat
  lastErr : Int
  /-- How much later than ADVANCE gives its bursts start, from the OFFSETs (R1048). -/
  shift : Int
  /-- The largest magnitude of an OFFSET since the previous beacon (R1047). -/
  offset : Option Int
  /-- Consecutive beacons received while in SEARCH, consecutive beacons missed, and consecutive beacons
  within 50 ns while MUTED. -/
  seen : Nat
  missed : Nat
  agree : Nat
  mutedAt : Nat
  /-- A JOIN has been sent at this frame and no ASSIGN has arrived; the frame for the next JOIN. -/
  joinSent : Option Nat
  joinFrame : Option Nat
  /-- The next message number; the burst whose echo is awaited, and the slot it was sent in; the fragments to send again; the mailbox
  response fragments; the PINNED messages (R1037). -/
  nextSeq : Nat
  inFlight : Option Burst
  sentSlot : Nat
  retries : List Burst
  mailbox : List Burst
  pinned : List PinnedMsg
  /-- The request of stage 1 for held records is still to be sent (R1013). -/
  askPinned : Bool
  /-- The MB57 command being received: message number, fragments expected, next fragment, bytes so far
  (R1038); the pinned record being returned. -/
  mailIn : Option (Nat × Nat × Nat × List Byte)
  pinnedIn : List Byte
  /-- Bytes of each returned record, in order, and whether the set has ended. -/
  returned : List (List Byte)
  returnDone : Bool
  /-- Package time has been stepped to rack time (R1053). -/
  calibrated : Bool
deriving DecidableEq, Repr

/-- At power-on: FIBRE_OUT is left by the first fibre-in; `CK_STATUS` resets to 0, SEARCH. -/
def Cricket.reset : Cricket :=
  { st := 0, member := none, assigned := false, counts := [], frame := 0, delay := 0, advance := 0, lastErr := 0,
    shift := 0, offset := none, seen := 0, missed := 0, agree := 0, mutedAt := 0, joinSent := none, joinFrame := none,
    nextSeq := 0, inFlight := none, sentSlot := 0, retries := [], mailbox := [], pinned := [], askPinned := false, mailIn := none, pinnedIn := [],
    returned := [], returnDone := false, calibrated := false }

end Sys2Proof.Machine
end

