-- ==== Sys2Proof/Machine/HbmState.lean ====
section
/-!
DEFINITION. The state of the HBM stacks and their controllers: the interleave mode, error counts,
regulators, scrub, repair and retirement (R430, R445 to R485).
-/
namespace Sys2Proof.Machine

open Sys2Proof

/-- A partition's bandwidth regulator on one stack (R445 to R450). -/
structure Regulator where
  guar : Nat
  cap : Nat
  burstLog2 : Nat
  blockMode : Bool
  /-- Tokens in bytes as they stood at `since` (package time, ns). -/
  tokens : Nat
  since : Nat
  charged : Nat
  waits : Nat
  epochBytes : Nat
deriving DecidableEq, Repr

/-- A regulator before any setting: the whole stack's rate as its cap, a full bucket (DESIGN CHOICE,
log entry 6). -/
def Regulator.reset : Regulator := ⟨0, 256, 24, false, 2 ^ 24, 0, 0, 0, 0⟩

/-- One HBM4 stack with its controllers. A row is named by the number
`(pseudo-channel × 64 + bank) × 16384 + row`. -/
structure Stack where
  vendor : Nat
  /-- `HC_STATUS.STATE`: 0 training, 1 in service, 2 degraded, 3 out of service, 4 self refresh. -/
  st : Nat
  doubled : Bool
  throttled : Bool
  temp : Nat
  ce : Nat
  ue : Nat
  lastUe : Nat
  passes : Nat
  rowsDone : Nat
  /-- The sector within the row at which patrol scrub stands. -/
  scrubSector : Nat
  scrubEnable : Bool
  scrubPeriod : Nat
  ueLimit : Nat
  /-- Uncorrectable sectors found, with the time: the last 24 h count toward the limit (R475). -/
  ueSeen : List (Nat × Nat)
  /-- Correction times of each row (R468's "failing" rule). -/
  rowCes : Tbl (List Nat)
  /-- The retirement table: rows, oldest first (R470, R472). -/
  retired : List Nat
  fenced : List Nat
  /-- Rows reported and neither acknowledged nor fenced, with the number of the report, 0 where it is
  kept only in the log (R470, R941). -/
  reported : List (Nat × Nat)
  /-- Failing rows not yet repaired or retired, in order of detection. -/
  failing : List Nat
  /-- Repair resources left of each bank (R482): of every bank that the tables do not list, and of the others. -/
  spprAll : Nat
  hpprAll : Nat
  spprFree : Tbl Nat
  hpprFree : Tbl Nat
  /-- Soft repairs of the repair journal (R469). -/
  journal : List Nat
  regs : Tbl Regulator
  /-- Requests waiting for tokens: (partition, charge), oldest first (R449). -/
  waiting : List (Nat × Nat)
  lastServed : Nat
  /-- Stack mode registers, seen only by HBM_MODEREG (R481). -/
  modeRegs : Tbl Nat
deriving DecidableEq, Repr

/-- A stack at power-on (R482, R475). -/
def Stack.reset : Stack :=
  { vendor := 0, st := 0, doubled := false,
    throttled := false, temp := 0, ce := 0, ue := 0, lastUe := 0, passes := 0, rowsDone := 0, scrubSector := 0,
    scrubEnable := true, scrubPeriod := 24, ueLimit := 64, ueSeen := [], rowCes := [], retired := [],
    fenced := [], reported := [], failing := [], spprAll := 0, hpprAll := 0, spprFree := [], hpprFree := [], journal := [], regs := [],
    waiting := [], lastServed := 0, modeRegs := [] }

/-- The HBM of the package. -/
structure Hbm where
  /-- The interleave mode: 0 fine, 1 Tiller-pair, 2 stack-local (R431). -/
  mode : Nat
  stack : Tbl Stack
deriving DecidableEq, Repr

def Hbm.reset : Hbm := ⟨0, []⟩

end Sys2Proof.Machine
end

