-- ==== Sys2Proof/Machine/HuskState.lean ====
section
/-!
DEFINITION. The state of a partition's Husk: its configuration, the live snapshot and a restore
(R843 to R887).
-/
namespace Sys2Proof.Machine

open Sys2Proof

/-- A Husk configuration (R843). `mode` is 0 RELOAD or 1 SHRINK. -/
structure HuskCfg where
  mode : Nat
  regions : List (Nat × Nat)
  resBase : Nat
  resLen : Nat
  stallUs : Nat
  shardLog2 : Nat
  destPlace : Nat
  destWindow : Nat
  destOff0 : Nat
  destOff1 : Nat
  manOff0 : Nat
  manOff1 : Nat
  trigEn : Bool
  trigCtr : Nat
  doneCtr : Nat
deriving DecidableEq, Repr

/-- The state of a part that is not CLEAN (R854): saved, with its bytes in ascending address order and
its poisoned sectors, or drained. -/
inductive PartCow where
  | saved (bytes : List Byte) (poisoned : List Nat)
  | drained
deriving DecidableEq, Repr

/-- A write that waits (R850, R860): where, what, and since when. -/
structure HeldWrite where
  addr : Nat
  data : List Byte
  since : Nat
deriving DecidableEq, Repr

/-- A shard of a manifest: its source, length, region, poisoned offsets and digest (R871). -/
structure Shard where
  source : Nat
  len : Nat
  region : Nat
  poison : List Nat
  digest : BitVec 256
  drained : Bool
deriving DecidableEq, Repr

/-- What a restore is doing (R877 to R882). -/
structure Restore where
  srcPlace : Nat
  srcWindow : Nat
  first : Nat
  count : Nat
  manOff : Nat
  chain : Nat
  delta : Int
  /-- The manifest's shards once it has been checked. -/
  shards : List Shard
  checked : Bool
  done : Nat
deriving DecidableEq, Repr

/-- A partition's Husk. `st` is the state's code of R847. -/
structure Husk where
  cfg : Option HuskCfg
  st : Nat
  snapId : Nat
  trigNext : Nat
  step : Nat
  freezeNs : Nat
  key : Nat
  /-- Part states by granule × 8 + stack; a part that is not listed is CLEAN (R846). -/
  parts : Tbl PartCow
  held : List HeldWrite
  shards : List Shard
  /-- Shards put and acknowledged, the invalidation and the manifest put. -/
  manifestSent : Bool
  restore : Option Restore
  drainedCount : Nat
  badShards : Nat
  longestWaitUs : Nat
  copied : Nat
  poisoned : Nat
deriving DecidableEq, Repr

def Husk.reset : Husk :=
  { cfg := none, st := 0, snapId := 0, trigNext := 1, step := 0, freezeNs := 0, key := 0, parts := [], held := [],
    shards := [], manifestSent := false, restore := none, drainedCount := 0, badShards := 0, longestWaitUs := 0,
    copied := 0, poisoned := 0 }

end Sys2Proof.Machine
end

