-- ==== Sys2Proof/Machine/IoState.lean ====
section
/-!
DEFINITION. The register block state common to every block of the MMIO map (R955 to R970), and what the
package sends outward.
-/
namespace Sys2Proof.Machine

open Sys2Proof

/-- The control, flag and index registers of the blocks, by the number of the block's interrupt line
(R974), and the latches of the LO and HI pairs (R966). -/
structure Regs where
  ctrl : Tbl W32
  flags : Tbl W32
  /-- Index register k (0 or 1) of the block of line b at `2 b + k`. -/
  index : Tbl W32
  /-- Latched HI halves by the block-specific key of the pair. -/
  latch : Tbl W32
  /-- Routing words of the interrupt lines (R975). -/
  route : Tbl W32
deriving DecidableEq, Repr

def Regs.reset : Regs := ⟨[], [], [], [], []⟩

/-- What the package shows or sends outward: the model's own record, newest first. -/
inductive OutMsg where
  /-- The value a register or port read returns. -/
  | regRead (addr : Nat) (value : W32)
  /-- A register access was refused (R960, R47). -/
  | regRefused (addr : Nat)
  /-- Bytes returned by a read through a Winnow view or over I3C. -/
  | bytes (data : List Byte)
  /-- Answer to a domain piece: acknowledged, load data, atomic result, or refused with a fault code. -/
  | domAck (slot piece : Nat)
  | domData (slot piece : Nat) (data : List Byte)
  | domResult (slot piece : Nat) (prior : W64)
  | domRefused (slot piece code : Nat)
  /-- A domain piece sent: operation, piece offset, plane. -/
  | domPiece (op off plane : Nat)
  | domAdd (op : Nat)
  /-- Transport: a packet sent, a cumulative acknowledgement, a NAK, a refusal, data, an addition result. -/
  | xpPacket (conn psn : Nat)
  | xpAck (conn psn : Nat)
  | xpNak (conn psn : Nat)
  | xpRefused (conn psn code : Nat)
  | xpData (conn op off : Nat) (data : List Byte)
  | xpWindow (conn window : Nat)
  | xpInvalidate (conn window : Nat)
  | xpInvalidated (conn window : Nat)
  /-- A link frame sent by a port: its type and sequence number. -/
  | frame (port kind seq : Nat)
  /-- A Cricket burst sent: message type, member and body. -/
  | burst (kind member : Nat) (body : List Byte)
  /-- Test access port output. -/
  | tap (bits value : Nat)
  /-- An in-band interrupt byte raised on the tray bus. -/
  | ibi (byte : Nat)
  /-- A Husk manifest or shard put: partition and offset. -/
  | husk (partition offset : Nat) (data : List Byte)
deriving DecidableEq, Repr

end Sys2Proof.Machine
end

