-- ==== Sys2Proof/Machine/LogState.lean ====
section
/-!
DEFINITION. The state of the event log, the flash device, the service requests and the Scarab cores
(R995 to R1024).
-/
namespace Sys2Proof.Machine

open Sys2Proof

/-- A log record (R1015). -/
structure LogRec where
  number : Nat
  time : Nat
  severity : Nat
  source : Nat
  index : Nat
  partition : Nat
  count : Nat
  name : String
  detail : List Byte
deriving DecidableEq, Repr

/-- A pinned record: its kind (0 retirement entry, 1 repair-journal entry, 2 other), the stack or unit,
and its contents (R1010). -/
structure Pinned where
  kind : Nat
  unit : Nat
  value : Nat
deriving DecidableEq, Repr

/-- The log, the flash device and the Scarab cores. -/
structure Flash where
  /-- The NUMBER of the next record (R1015). -/
  nextNumber : Nat
  /-- The ring of severities 0 and 1 (and of every record while it has space), the second ring and the
  spill ring, oldest first (R1018, R1019). -/
  ring : List LogRec
  ring2 : List LogRec
  spill : List LogRec
  /-- Records in the log region, oldest first. -/
  programmed : List LogRec
  overwritten : Nat
  /-- Records dropped and not yet reported: of severities 0 and 1, and of 2 and above. -/
  dropped : Nat
  droppedHigh : Nat
  /-- Last record of each event and the events folded since (R1017), newest first. -/
  recent : List LogRec
  /-- Records still to be sent whole in a Cricket health report (R1021), oldest first. -/
  toReport : List LogRec
  logMark : Nat
  failureSeen : Bool
  degradedSeen : Bool
  spareBlocks : Nat
  logBlocks : Nat
  pinnedFree : Nat
  pinnedBlocks : Nat
  slotABlocks : Nat
  slotBBlocks : Nat
  maxErase : Nat
  /-- Pinned records in force in flash, records waiting for their write, and records kept in the Scarab
  reserve (R1010 to R1012). -/
  pinned : List Pinned
  pinnedQueue : List Pinned
  pinnedHeld : List Pinned
  /-- Service requests raised: (kind, index) (R1007). -/
  service : List (Nat × Nat)
  /-- Time of the last lockstep mismatch, restart in progress, and halted in ROM (R995, R997). -/
  lockstepAt : Option Nat
  restarting : Bool
  halted : Bool
deriving DecidableEq, Repr

/-- At power-on: an empty log whose next number is 1 (DESIGN CHOICE, log entry 5). -/
def Flash.reset : Flash :=
  { nextNumber := 1, ring := [], ring2 := [], spill := [], programmed := [], overwritten := 0, dropped := 0,
    droppedHigh := 0, recent := [], toReport := [], logMark := 0, failureSeen := false, degradedSeen := false,
    spareBlocks := 256, logBlocks := 4352, pinnedFree := 512, pinnedBlocks := 512, slotABlocks := 1536, slotBBlocks := 1536,
    maxErase := 0, pinned := [], pinnedQueue := [], pinnedHeld := [], service := [], lockstepAt := none,
    restarting := false, halted := false }

end Sys2Proof.Machine
end

