-- ==== Sys2Proof/Machine/Memory.lean ====
section
/-!
DEFINITION. Memory: HBM and the scratchpads at their package physical addresses (R30), the
accumulator memories and the mailbox data areas at keys of their own, as one list of (address, byte)
pairs in canonical form.
-/
namespace Sys2Proof.Machine

/-- Memory: the bytes that are not zero, in rising order of address. -/
abbrev Memory := List Host.Cell

/-- What an address that is not listed reads as: R479 leaves every byte of HBM zero after stage 2, and
the model takes the same value for every other memory at power-on (DESIGN CHOICE, log entry 1). -/
def Memory.unlisted : Byte := 0

/-- The byte at address `a`. -/
def Memory.read : Memory → Nat → Byte
  | [], _ => Memory.unlisted
  | (j, b) :: t, a => if a = j then b else if a < j then Memory.unlisted else Memory.read t a

/-- The memory with byte `b` at address `a`. -/
def Memory.write : Memory → Nat → Byte → Memory
  | [], a, b => if b = Memory.unlisted then [] else [(a, b)]
  | (j, w) :: t, a, b =>
    if a < j then (if b = Memory.unlisted then (j, w) :: t else (a, b) :: (j, w) :: t)
    else if a = j then (if b = Memory.unlisted then t else (a, b) :: t)
    else (j, w) :: Memory.write t a b

/-- The canonical form from address `lo` on: rising addresses at or above `lo`, no unlisted value. -/
def Memory.wfFrom : Nat → Memory → Bool
  | _, [] => true
  | lo, (j, b) :: t => decide (lo ≤ j) && (b != Memory.unlisted) && Memory.wfFrom (j + 1) t

/-- The canonical form. -/
def Memory.wf (m : Memory) : Bool := Memory.wfFrom 0 m

/-- The `n` bytes from address `a`. -/
def Memory.readBytes (m : Memory) (a : Nat) : Nat → List Byte
  | 0 => []
  | n + 1 => Memory.read m a :: Memory.readBytes m (a + 1) n

/-- The memory with the bytes `bs` from address `a`. -/
def Memory.writeBytes (m : Memory) (a : Nat) : List Byte → Memory
  | [] => m
  | b :: bs => Memory.writeBytes (Memory.write m a b) (a + 1) bs

/-- A little-endian number from bytes (R17). -/
def leNat : List Byte → Nat
  | [] => 0
  | b :: bs => b.toNat + 256 * leNat bs

/-- The `n` little-endian bytes of a number (R17). -/
def leBytes : Nat → Nat → List Byte
  | 0, _ => []
  | n + 1, x => BitVec.ofNat 8 x :: leBytes n (x / 256)

/-- The little-endian number of `n` bytes at address `a`. -/
def Memory.readNat (m : Memory) (a n : Nat) : Nat := leNat (Memory.readBytes m a n)

/-- The memory with `n` little-endian bytes of `x` at address `a`. -/
def Memory.writeNat (m : Memory) (a n x : Nat) : Memory := Memory.writeBytes m a (leBytes n x)

end Sys2Proof.Machine
end

