-- ==== Sys2Proof/Machine/NetState.lean ====
section
/-!
DEFINITION. The state of domain memory and of the hall and campus transport: slot, export, replica and
window tables, connections, and the remote operations that are outstanding (R597 to R690).
-/
namespace Sys2Proof.Machine

open Sys2Proof

/-- A slot of the domain (R597): state 0 empty, 1 reachable, 2 unreachable; `cfgSt` and `cfgMask` are what
Sunas set, `st` and `mask` what the ports leave of it (R614). -/
structure Slot where
  st : Nat
  place : Nat
  mask : W16
  cfgSt : Nat
  cfgMask : W16
deriving DecidableEq, Repr

def Slot.reset : Slot := ⟨0, 0, 0, 0, 0⟩

/-- A replica entry (R634). -/
structure Replica where
  valid : Bool
  partition : Nat
  slot : Nat
  remoteBase : Nat
  len : Nat
  localBase : Nat
deriving DecidableEq, Repr

def Replica.reset : Replica := ⟨false, 0, 0, 0, 0, 0⟩

/-- A window (R659); `rights` has P, G, C in bits 0 to 2. -/
structure Window where
  valid : Bool
  revoking : Bool
  partition : Nat
  job : Nat
  rights : Nat
  base : Nat
  len : Nat
  cntBase : Nat
  cntCount : Nat
  gen : Nat
deriving DecidableEq, Repr

def Window.reset : Window := ⟨false, false, 0, 0, 0, 0, 0, 0, 0, 0⟩

/-- The kinds of remote operation. -/
inductive RKind where
  | store | flagged | load | atomic | put | get | tadd
deriving DecidableEq, Repr

/-- The state of a piece of a remote operation, or of its counter addition. -/
inductive PieceState where
  /-- Not yet sent (held under R620, R622, R643, R661 or R676). -/
  | held
  | sent
  | done
  /-- Refused by the target, with the fault code (R646). -/
  | refused (code : Nat)
  /-- Never performed: not sent and not going to be. -/
  | dropped
  /-- Outcome unknown (R641, R642, R683). -/
  | lost
deriving DecidableEq, Repr

/-- A piece: its offset in the operation, its bytes, the plane it travels on, its state, and its packet
sequence number on a connection. -/
structure Piece where
  off : Nat
  len : Nat
  plane : Nat
  st : PieceState
  psn : Nat
deriving DecidableEq, Repr

/-- Who issued a remote operation: a copy queue's entry, an application core, or the package itself for a
Husk drain or restore of partition `p`. -/
inductive OpSource where
  | queue (tile queue entry : Nat)
  | core (h : Nat)
  | husk (p : Nat)
deriving DecidableEq, Repr

/-- A remote operation that is outstanding. -/
structure RemOp where
  id : Nat
  kind : RKind
  src : OpSource
  partition : Nat
  /-- The target: a slot for domain operations, a place for transport operations. `conn` is 65536 for a
  domain operation. -/
  target : Nat
  /-- The connection, for transport operations. -/
  conn : Nat
  window : Nat
  /-- The remote address: an aperture address, or a window offset; a piece's own address is this plus its offset. -/
  addr : Nat
  len : Nat
  /-- The local memory key of the source or destination. -/
  local_ : Nat
  /-- Bytes to send (stores, puts), or the operand bytes of an atomic. -/
  data : List Byte
  /-- Atomic: the operation, whether 64 bits, the compare value. -/
  atop : Nat
  w64 : Bool
  cmp : Nat
  pieces : List Piece
  /-- The counter addition at the target: (counter, value), its state and its packet number. -/
  addTo : Option (Nat × Nat)
  addSt : PieceState
  addPsn : Nat
  /-- Earlier operations that must be acknowledged or failed before this one sends (R620, R622). -/
  after : List Nat
  /-- An earlier operation among `after` failed (R621). -/
  broken : Bool
  /-- The code of the first failure, 0 for none. -/
  code : Nat
  /-- An AMO that takes effect in order: no later aperture access of its core issues before it (R610). -/
  ordered : Bool
deriving DecidableEq, Repr

/-- A packet on a connection that is not acknowledged: its number, the operation, and which part of it
(a piece's index; the number of pieces for the counter addition; a get's request). -/
structure Packet where
  psn : Nat
  op : Nat
  part : Nat
deriving DecidableEq, Repr

/-- A connection (R664): state 0 closed, 1 open, 2 failed. -/
structure Conn where
  st : Nat
  partition : Nat
  place : Nat
  /-- Being closed: no new operation (CONN_CLOSE). -/
  closing : Bool
  txPsn : Nat
  unacked : List Packet
  rxPsn : Nat
  srttUs : Nat
  rtoUs : Nat
  timeoutMs : Nat
  port : Nat
  /-- Window descriptors of the peer, most recently used first (R661). -/
  cache : List (Nat × Window)
  /-- Windows of this package that the peer caches (R663). -/
  peerCaches : List Nat
  /-- Results of the last counter additions: (packet number, fault code, 0 for performed) (R679). -/
  results : List (Nat × Nat)
deriving DecidableEq, Repr

def Conn.reset : Conn :=
  { st := 0, partition := 0, place := 0, closing := false, txPsn := 0, unacked := [], rxPsn := 0, srttUs := 0,
    rtoUs := 20, timeoutMs := 100, port := 16, cache := [], peerCaches := [], results := [] }

/-- Domain memory and transport. -/
structure Net where
  slots : Tbl Slot
  exports : Tbl Export
  /-- The export entries of each slot's member that this package caches (R602). -/
  cached : Tbl (List Export)
  replicas : Tbl Replica
  timeoutUs : Nat
  ops : List RemOp
  nextOp : Nat
  unconfirmed : Nat
  timeouts : Nat
  respreads : Nat
  windows : Tbl Window
  conns : Tbl Conn
  retransmits : Nat
  connFailed : Nat
deriving DecidableEq, Repr

/-- At reset: empty tables and a domain access timeout of 200 µs (R641). -/
def Net.reset : Net :=
  { slots := [], exports := [], cached := [], replicas := [], timeoutUs := 200, ops := [], nextOp := 0,
    unconfirmed := 0, timeouts := 0, respreads := 0, windows := [], conns := [], retransmits := 0, connFailed := 0 }

end Sys2Proof.Machine
end

