-- ==== Sys2Proof/Machine/PortState.lean ====
section
/-!
DEFINITION. The state of the optical ports and the laser modules (R737 to R803).
-/
namespace Sys2Proof.Machine

open Sys2Proof

/-- A physical lane (R800): state 0 data, 1 spare on standby, 2 failed; its logical lane (8 the spare);
corrected symbols; optical power in 0.01 dBm. -/
structure Lane where
  st : Nat
  logical : Nat
  corrected : Nat
  power : Int
deriving DecidableEq, Repr

def Lane.reset : Lane := ⟨0, 0, 0, 0⟩

/-- A DATA frame in the replay buffer: its SEQ, its virtual channel, and the piece it carries, as
(operation, piece). -/
structure TxFrame where
  seq : Nat
  vc : Nat
  op : Nat
  piece : Nat
deriving DecidableEq, Repr

/-- An optical port. `st` is the code of *Port states*. -/
structure Port where
  st : Nat
  version : Nat
  srcA : Bool
  srcB : Bool
  fibre : Bool
  spareTx : Bool
  spareRx : Bool
  /-- Consecutive failures (R770), 4 once DARK. -/
  fails : Nat
  rtt : Nat
  /-- Transmit lanes 0 to 8 and receive lanes 9 to 17. -/
  lanes : Tbl Lane
  nextSeq : Nat
  unacked : List TxFrame
  waiting : List TxFrame
  credit0 : Nat
  credit1 : Nat
  lastCred0 : Nat
  lastCred1 : Nat
  expected : Nat
  accepted : Bool
  lastNak : Option (Nat × Nat)
  freed0 : Nat
  freed1 : Nat
  /-- A sparing of a receive lane in progress: the failed lane and its EPOCH (R776). -/
  sparing : Option (Nat × Nat)
  epoch : Nat
  /-- The EPOCH of the last LANEMAP acted on. -/
  mapEpoch : Option Nat
  /-- EXCHANGE: an offer of the partner has been accepted, so STEP 1 is sent (R766). -/
  stepSent : Bool
  echo : Nat
  /-- The PORT field received at EXCHANGE, none before any, and out of service because it is not the own
  slot (R807). -/
  partner : Option Nat
  misplaced : Bool
  lightLost : Bool
  /-- A retraining waits for an evacuation (R791). -/
  deferred : Bool
  crcErr : Nat
  frameErr : Nat
  fecUncorr : Nat
  replays : Nat
  naks : Nat
  trainFail : Nat
  serLimit : Nat
deriving DecidableEq, Repr

/-- A port at reset: OFF, LANE_SER_LIMIT 200 (R765, R775). -/
def Port.reset : Port :=
  { st := 0, version := 0, srcA := false, srcB := false, fibre := false, spareTx := false, spareRx := false, fails := 0,
    rtt := 0, lanes := [], nextSeq := 0, unacked := [], waiting := [], credit0 := 0, credit1 := 0, lastCred0 := 0,
    lastCred1 := 0, expected := 0, accepted := false, lastNak := none, freed0 := 0, freed1 := 0, sparing := none,
    epoch := 0, mapEpoch := none, stepSent := false, echo := 0, partner := none, misplaced := false, lightLost := false, deferred := false, crcErr := 0,
    frameErr := 0, fecUncorr := 0, replays := 0, naks := 0, trainFail := 0, serLimit := 200 }

/-- A laser module and its cage. `st` is the code of `LS_STATUS`. -/
structure LaserModule where
  st : Nat
  vendor : Nat
  powers : List Int
  temp10 : Int
  insertions : Nat
  present : Bool
  feed : Bool
  /-- From the start of an evacuation to the end of the insertion that follows it (R791). -/
  evac : Bool
deriving DecidableEq, Repr

def LaserModule.reset : LaserModule := ⟨0, 0, [], 0, 0, false, false, false⟩

/-- Ports, modules and the fibre shelf. -/
structure Optics where
  ports : Tbl Port
  /-- Bit g: group Gg is hall; G4 and G5 at reset (R738). -/
  hallGroups : Nat
  modules : Tbl LaserModule
  matings : Tbl Nat
  cricketFibre : Bool
deriving DecidableEq, Repr

def Optics.reset : Optics := ⟨[], 0x30, [], [], false⟩

end Sys2Proof.Machine
end

