-- ==== Sys2Proof/Machine/PowerState.lean ====
section
/-!
DEFINITION. The state of the islands, the rails and pins, the management buses and the staged start
(R37 to R55, R888 to R921, R1061 to R1105), and of the own place and its tables (R805 to R824).
-/
namespace Sys2Proof.Machine

open Sys2Proof

/-- A clock island (R1116): running, its clock, the clock it is set to, its supply, its hottest junction
and its power, whether it is clamped with the good samples seen since, throttled, or at the floor. -/
structure Island where
  up : Bool
  mhz : Nat
  setMhz : Nat
  mv : Nat
  temp : Int
  watts : Nat
  clamped : Bool
  good : Nat
  throttled : Bool
  warned : Bool
deriving DecidableEq, Repr

def Island.reset : Island := ⟨false, 0, 0, 0, 0, 0, false, 0, false, false⟩

/-- A power rail (R1073): its voltage, its current in 0.1 A and its consecutive samples out of tolerance. -/
structure Rail where
  mv : Nat
  amps10 : Nat
  out : Nat
deriving DecidableEq, Repr

def Rail.reset : Rail := ⟨0, 0, 0⟩

/-- Power, pins and the management buses. -/
structure Power where
  islands : Tbl Island
  rails : Tbl Rail
  packageWatts : Nat
  /-- Always-on rails in specification. -/
  powered : Bool
  /-- When they came into specification (R890). -/
  poweredAt : Nat
  pwrgd : Bool
  /-- RESET_IN_N low. -/
  resetLow : Bool
  latchClosed : Bool
  refclk : Bool
  /-- THERMTRIP_OUT_N asserted. -/
  trip : Bool
  railFault : Bool
  refclkLost : Bool
  btnDown : Bool
  /-- The lengths in ms of the presses held until stage 4 completes (R917), oldest first. -/
  heldPresses : List Nat
  pkgEvac : Bool
  pkgSafe : Bool
  /-- Requested and applied core set-points in mV, and set-points changed since the last
  acknowledgement (R1077, R1080). -/
  vset : Tbl Nat
  vack : Tbl Nat
  vchanged : List Nat
  presses : Nat
  throttles : Nat
  faults : Nat
  /-- The tray bus: dynamic address, in-band interrupts enabled, offset of the last write (R1065). -/
  dynAddr : Option Nat
  enec : Bool
  i3cOff : Nat
  /-- The test access port: instruction and data registers (R1071). -/
  tapInstr : Nat
  tapData : Nat
  /-- LSM_EN[5:0] as a mask (R1062). -/
  lsmEn : Nat
deriving DecidableEq, Repr

/-- At power-on: nothing but the pull-ups (R1062, R1065, R1077). -/
def Power.reset : Power :=
  { islands := [], rails := [], packageWatts := 0, powered := false, poweredAt := 0, pwrgd := false, resetLow := false,
    latchClosed := false, refclk := true, trip := false, railFault := false, refclkLost := false, btnDown := false,
    heldPresses := [], pkgEvac := false, pkgSafe := false, vset := [], vack := [], vchanged := [], presses := 0,
    throttles := 0, faults := 0, dynAddr := none, enec := false, i3cOff := 0, tapInstr := 0xFE, tapData := 0, lsmEn := 0 }

/-- The staged start (R888 to R921). -/
structure Start where
  stage : Nat
  /-- Stage 0 has completed since PWRGD_IN rose. -/
  begun : Bool
  failed : Bool
  reason : Nat
  fallback : Bool
  slot : Nat
  /-- The budget origin and the completion times of stages 0 to 5, in ns of package time (R919). -/
  origin : Nat
  doneAt : Tbl Nat
  starts : Nat
  /-- Allowance of 300 ms after a fallback (R897). -/
  extraMs : Nat
  fuseBad : Bool
  grade : Nat
  stepping : Nat
  tillerMhz : Nat
  serial : W64
  joinAsked : Bool
  /-- The factory repair maps read from the fuses: (array, entry, physical line) (R892). -/
  maps : List (Nat × Nat × Nat)
  placeGiven : Option (Nat × Nat)
  /-- The interleave mode of the flash configuration record (R901). -/
  storedMode : Nat
  imageBytes : Nat
deriving DecidableEq, Repr

def Start.reset : Start :=
  { stage := 0, begun := false, failed := false, reason := 0, fallback := false, slot := 0, origin := 0, doneAt := [],
    starts := 0, extraMs := 0, fuseBad := false, grade := 0, stepping := 0, tillerMhz := 0, serial := 0,
    joinAsked := false, maps := [], placeGiven := none, storedMode := 0, imageBytes := 0 }

/-- A hall of the hall table (R808). -/
structure Hall where
  st : Nat
  site : Nat
  gen : Nat
  fibreKm : Nat
deriving DecidableEq, Repr

def Hall.reset : Hall := ⟨0, 0, 0, 0⟩

/-- The own place and the hall and domain tables (R805 to R824). -/
structure Places where
  valid : Bool
  place : Nat
  site : Nat
  halls : Tbl Hall
  domains : Tbl Nat
deriving DecidableEq, Repr

def Places.reset : Places := ⟨false, 0, 0, [], []⟩

end Sys2Proof.Machine
end

