-- ==== Sys2Proof/Machine/SunasState.lean ====
section
/-!
DEFINITION. The state that Scarab's Sunas firmware keeps: mailboxes, partitions, notifications, the
maintenance scheduler and the firmware slots (R922 to R954).
-/
namespace Sys2Proof.Machine

open Sys2Proof

/-- What an accepted command that has been performed still waits for before its response is written. -/
inductive CmdWait where
  | none
  /-- `PART_STOP` of a partition: its last entry (R938). -/
  | partStop (p : Nat)
  /-- `CONN_CLOSE`: the connection's outstanding operations. -/
  | connClose (c : Nat)
  /-- `WINDOW_SET` that revokes a window: the acknowledgements of the connections listed (R663). -/
  | revoke (w : Nat) (conns : List Nat)
  /-- `HUSK_FREEZE`: the point (R850). -/
  | freeze (p : Nat)
  /-- `HUSK_ROLLBACK`: the end of the write-back (R875). -/
  | rollback (p : Nat)
  /-- An activity in progress, by its ticket. -/
  | activity (ticket : Nat)
deriving DecidableEq, Repr

/-- A mailbox: its STATE (0 IDLE, 1 BUSY, 2 DONE), its numbers, and the command Scarab copied. The
request and response areas are in memory at the mailbox's addresses. -/
structure Mbox where
  doorbell : Nat
  seq : Nat
  st : Nat
  header : List Byte
  payload : List Byte
  /-- Performed and waiting. -/
  wait : CmdWait
deriving DecidableEq, Repr

def Mbox.reset : Mbox := ⟨0, 0, 0, [], [], .none⟩

/-- The states of a partition (R938). -/
inductive PartSt where
  | unset | stopped | running | stopping
deriving DecidableEq, Repr

/-- A partition (R938, R831). -/
structure Part where
  st : PartSt
  /-- Bit 4n + a: array a of Tiller n. -/
  arrays : Nat
  job : Nat
  cores : Nat
  /-- Bit b: the block of counters from 1024 b. -/
  cnt : Nat
  hbmBase : Nat
  hbmLen : Nat
  lib : Nat
  slices : Nat
  alg : Nat
  conv : Nat
  rorder : Nat
deriving DecidableEq, Repr

def Part.reset : Part := ⟨.unset, 0, 0, 0, 0, 0, 0, 0, 0, 0, 0, 0⟩

/-- The activities of the maintenance scheduler (R942). -/
inductive Activity where
  | repair | hbmdiag | retrain | evac | arrtest | arrdiag | ucode | roles | flash | huskrb
deriving DecidableEq, Repr

/-- A resource that an activity declares (R942). -/
inductive Res where
  | stack (n : Nat) | partition (n : Nat) | port (n : Nat) | module (n : Nat) | array (n : Nat) | tiller (n : Nat) | flash
deriving DecidableEq, Repr

/-- A ticket of the maintenance scheduler: its state is 0 queued, 1 running, 2 done, 3 cancelled. -/
structure Ticket where
  st : Nat
  opcode : Nat
  status : Nat
  act : Activity
  res : List Res
  /-- The mailbox of the command, 64 where the package itself asked. -/
  mbox : Nat
  /-- The command's header and payload, performed when the activity starts. -/
  header : List Byte
  payload : List Byte
  /-- Answered with S_DEFERRED, so that it ends with a MAINT_DONE report. -/
  deferred : Bool
deriving DecidableEq, Repr

/-- A firmware image slot (R947 to R954). -/
structure ImgSlot where
  present : Bool
  secVersion : Nat
  imgVersion : Nat
  stepping : Nat
  mcode : Nat
  written : Nat
deriving DecidableEq, Repr

def ImgSlot.reset : ImgSlot := ⟨false, 0, 0, 0, 0, 0⟩

/-- The Sunas firmware's state. -/
structure Sunas where
  mboxes : Tbl Mbox
  /-- Mailboxes whose command is accepted and not yet performed, in order of arrival (R936). -/
  order : List Nat
  /-- The notification ring: its base, size and counter; none while not set (R941). -/
  notify : Option (Nat × Nat × Nat)
  nextNote : Nat
  /-- Tickets, by number, and the next number. -/
  tickets : Tbl Ticket
  nextTicket : Nat
  slotA : ImgSlot
  slotB : ImgSlot
  /-- The active slot (0 A, 1 B) of the active-slot record, the slot that runs, whether the last verify
  of the standby slot passed, an activation without a commit, whether the running image was started by an
  activation, and a live hand-over that STATUS has not yet confirmed, with what to return to: the slot, and the
three flags before it. -/
  activeSlot : Nat
  runningSlot : Nat
  verified : Bool
  uncommitted : Bool
  byActivate : Bool
  handOver : Option (Nat × Bool × Bool × Bool)
  fuseVersion : Nat
deriving DecidableEq, Repr

def Sunas.reset : Sunas :=
  { mboxes := [], order := [], notify := none, nextNote := 1, tickets := [], nextTicket := 1, slotA := ImgSlot.reset,
    slotB := ImgSlot.reset, activeSlot := 0, runningSlot := 0, verified := false, uncommitted := false,
    byActivate := false, handOver := none, fuseVersion := 0 }

end Sys2Proof.Machine
end

