-- ==== Sys2Proof/Machine/TileState.lean ====
section
/-!
DEFINITION. The state of a Tiller: its matrix arrays, its sequencer contexts, queues and rings, its
collective groups and the counts and flags of its units (R24, R119, R213, R345 to R375, R692).
-/
namespace Sys2Proof.Machine

open Sys2Proof

/-- One B tile of an array: its format code, K_tile, columns, element codes row by row and scale codes
block by block (R119 to R126). The zero tile has no format (0xF shows in ACTIVE_FMT). -/
structure BTile where
  fmt : Nat
  kTile : Nat
  nc : Nat
  /-- Element code of row k and column c, at `k * 512 + c`. -/
  elems : List Nat
  /-- Scale code of block b and column c, at `b * 512 + c`. -/
  scales : List Nat
deriving DecidableEq, Repr

/-- The zero tile of reset (R126): every element 0. -/
def BTile.zero : BTile := ⟨0xF, 0, 512, [], []⟩

/-- A stopped MMUL: its entry's serial number, the pass to run again, and the gather indices and the view it read at
issue (*Pass check mismatch*, R233). -/
structure Rerun where
  id : Nat
  pass : Nat
  idx : List Nat
  /-- The view it reads, as it was at issue (R489). -/
  view : List W64
deriving DecidableEq, Repr

/-- One matrix array with its accumulator memory's counts; the accumulator bytes are in memory. -/
structure Arr where
  /-- The active and the standby tile (R119). -/
  active : BTile
  standby : BTile
  /-- Out of service for good (R161). -/
  retired : Bool
  /-- Held by a repair or a built-in test (R159, R174). -/
  repairing : Bool
  mcode : Nat
  pchkMismatch : Nat
  pchkRetryOk : Nat
  remapEvents : Nat
  acmCe : Nat
  acmUe : Nat
  /-- Spare rows and columns left (R172). -/
  rowsFree : Nat
  colsFree : Nat
  /-- The repair map: physical line of each logical row, column and the checksum column (R174). -/
  repairMap : Tbl Nat
  /-- Times of the transient mismatches of the last second (R157), newest first. -/
  transients : List Nat
  /-- The A-path and B-path prologue descriptors and the epilogue descriptor, eight words each
  (R213, R216, R239). -/
  prologueA : List W64
  prologueB : List W64
  epilogue : List W64
  /-- The operation whose pass mismatched twice and waits for the built-in test (*Pass check mismatch*). -/
  rerun : Option Rerun
  /-- Sixteen transients within 1 s have asked for a built-in test (R157). -/
  testDue : Bool
deriving DecidableEq, Repr

def zeroWords8 : List W64 := List.replicate 8 0

/-- An array at power-on. -/
def Arr.reset : Arr :=
  { active := BTile.zero, standby := BTile.zero, retired := false, repairing := false, mcode := 0,
    pchkMismatch := 0, pchkRetryOk := 0, remapEvents := 0, acmCe := 0, acmUe := 0, rowsFree := 4,
    colsFree := 15, repairMap := [], transients := [], prologueA := zeroWords8, prologueB := zeroWords8,
    epilogue := zeroWords8, rerun := none, testDue := false }

/-- The states of a context (R422). -/
inductive CtxState where
  | free | ready | running | waitCounter | waitQueue | waitFence | ending
deriving DecidableEq, Repr

/-- What a context waits for. -/
inductive CtxWait where
  | idle
  /-- `TWAIT`: a counter, its threshold, the register for the value, whether a timeout runs, and the
  value that met the threshold, once one has (R630). -/
  | counter (ctr : Nat) (threshold : W64) (rd : Nat) (timed : Bool) (met : Option W64)
  /-- A collective instance waits for its group slot (R697). -/
  | slot
  /-- Space in the queue of this code for the instruction at the program counter (R355). -/
  | queue (code : Nat)
  /-- `SFENCE`: the serial numbers of the entries it covers (R392). -/
  | fence (ids : List Nat)
deriving DecidableEq, Repr

/-- The fault detail of a completion record (R371). -/
structure FaultRec where
  code : Nat
  pc : Nat
  done : Nat
  info : Nat
  queue : Nat
deriving DecidableEq, Repr

/-- A sequencer context and the ring entry it runs (R345, R346, R366). -/
structure Ctx where
  st : CtxState
  pc : W64
  g : Tbl W64
  wait : CtxWait
  /-- Instructions issued since the context last left its core (R348). -/
  issued : Nat
  ring : Nat
  /-- The value of HEAD when the entry started. -/
  index : Nat
  tag : Nat
  crec : Bool
  prog : Nat
  inc : Nat
  ctr : Nat
  timeoutMs : Nat
  coll : Bool
  group : Nat
  gseq : Nat
  partition : Nat
  /-- The entry's outcome so far: the first fault, if any. -/
  fault : Option FaultRec
  discarded : Nat
  other : Nat
  unconfirmed : Bool
  cancelled : Bool
  /-- `END` has executed, at this offset from PROG; its ABORT detail, if any (R387). -/
  ended : Option Nat
  abort : Option Nat
deriving DecidableEq, Repr

/-- A free context. -/
def Ctx.reset : Ctx :=
  { st := .free, pc := 0, g := [], wait := .idle, issued := 0, ring := 0, index := 0, tag := 0,
    crec := false, prog := 0, inc := 0, ctr := 0, timeoutMs := 0, coll := false, group := 0, gseq := 0,
    partition := 0, fault := none, discarded := 0, other := 0, unconfirmed := false, cancelled := false, ended := none, abort := none }

/-- An entry of an engine's queue: the instruction and the registers it read (R351). -/
structure QEntry where
  id : Nat
  ctx : Nat
  pcOff : Nat
  word : W128
  g : Tbl W64
  /-- A queue condition (`MWAIT`, `SQWAIT`) that has been met (R273). -/
  met : Bool
deriving DecidableEq, Repr

/-- The queue of one engine: the entries not issued, oldest first, and those issued and not complete. -/
structure EngQueue where
  waiting : List QEntry
  active : List QEntry
deriving DecidableEq, Repr

def EngQueue.empty : EngQueue := ⟨[], []⟩

/-- A ring (R359, R360). -/
structure Ring where
  enable : Bool
  partition : Nat
  priority : Nat
  sizeLog2 : Nat
  base : Nat
  csizeLog2 : Nat
  cbase : Nat
  maxrun : Nat
  dbctrEn : Bool
  dbctr : Nat
  irq : Nat
  head : W32
  tail : W32
  ctail : W32
  chead : W32
  inProgress : Nat
  failed : Nat
  refusedTail : Bool
deriving DecidableEq, Repr

/-- A ring at reset: disabled. -/
def Ring.reset : Ring :=
  { enable := false, partition := 0, priority := 0, sizeLog2 := 4, base := 0, csizeLog2 := 4, cbase := 0,
    maxrun := 1, dbctrEn := false, dbctr := 0, irq := 0, head := 0, tail := 0, ctail := 0, chead := 0,
    inProgress := 0, failed := 0, refusedTail := false }

/-- The five counts of a Winnow view on one Tiller and its source bytes (R524, R526). -/
structure ViewCounts where
  sat : Nat
  nan : Nat
  uf : Nat
  wovf : Nat
  wnan : Nat
  srcBytes : Nat
deriving DecidableEq, Repr

def ViewCounts.zero : ViewCounts := ⟨0, 0, 0, 0, 0, 0⟩

/-- A collective group of a Tiller (R692). -/
structure Group where
  group : Nat
  partition : Nat
  p : Nat
  rank : Nat
  members : Nat
  depth : Nat
  chunkLog2 : Nat
  bufBase : Nat
  cntBase : Nat
  window : Nat
  scope : Nat
deriving DecidableEq, Repr

/-- The counter port of one application core on one Tiller (R653, R656). -/
structure CtPort where
  num : Nat
  op : Nat
  opnd : W64
  cmp : W64
  res : W64
  resHiLatch : W32
  latched : Bool
deriving DecidableEq, Repr

def CtPort.reset : CtPort := ⟨0, 0, 0, 0, 0, 0, false⟩

/-- A Tiller. -/
structure Tile where
  /-- Core island in service (R972, R990). -/
  inService : Bool
  /-- Brought up since the core island last lost its supply: in service, or offline (R909). -/
  broughtUp : Bool
  arrays : Tbl Arr
  ctxs : Tbl Ctx
  /-- The last context each sequencer core ran, for its round robin (R348). -/
  lastRun : Tbl Nat
  /-- Queues by queue code (R350). -/
  queues : Tbl EngQueue
  rings : Tbl Ring
  /-- Rings whose next entry waits for a collective context, oldest first (R420). -/
  collFifo : List Nat
  /-- Starts left to each priority in the current weighted round, and the last ring each served. -/
  credits : Tbl Nat
  lastRing : Tbl Nat
  /-- The next serial number of a queue entry. -/
  nextId : Nat
  entriesDone : Nat
  entriesFailed : Nat
  rpend : Tbl W32
  /-- Physical bank of each logical scratchpad bank that is not in its place (R1003), spare banks
  left, banks retired (R1004), corrections of the last 24 h, the bank being copied and the banks
  waiting (R1006). -/
  bankMap : Tbl Nat
  spareBanks : Nat
  retiredBanks : Nat
  bankCes : Tbl (List Nat)
  bankCopy : List Nat
  /-- VE instruction counts (R342). -/
  veDone : Nat
  veFailed : Nat
  viewCounts : Tbl ViewCounts
  groups : Tbl Group
  /-- Failure marks of collective slots, as group × 64 + slot (R734), and (group, slot) held by a
  running instance. -/
  failMarks : List Nat
  ctPorts : Tbl CtPort
  /-- Armed thresholds: core → (counter, threshold) (R657). -/
  ctArmed : Tbl (Nat × W64)
  ctHit : W64
  /-- Clock cap in MHz (R1082). -/
  capMhz : Nat
deriving DecidableEq, Repr

/-- A Tiller at power-on. -/
def Tile.reset : Tile :=
  { inService := false, broughtUp := false, arrays := [], ctxs := [], lastRun := [], queues := [], rings := [], collFifo := [],
    credits := [], lastRing := [], nextId := 0, entriesDone := 0, entriesFailed := 0, rpend := [],
    bankMap := [], spareBanks := 2, retiredBanks := 0, bankCes := [], bankCopy := [], veDone := 0,
    veFailed := 0, viewCounts := [], groups := [], failMarks := [], ctPorts := [], ctArmed := [],
    ctHit := 0, capMhz := 0 }

end Sys2Proof.Machine
end

