-- ==== Sys2Proof/Machine/State.lean ====
section
/-!
DEFINITION. The state of the package, the reasons a step can stop, and the state after reset.
-/
namespace Sys2Proof.Machine

open Sys2Proof

/-- The state of one GN8 package, and the queue of the commands that wait. -/
structure State where
  /-- Commands that wait, first in, first out. -/
  pending : List Instr
  /-- The model's record of what the package sent outward, newest first. -/
  out : List OutMsg
  /-- Package time in ns (R1053). -/
  timeNs : Nat
  /-- The model's own counter for values that the spec leaves open. -/
  freeCtr : Nat
  mem : Memory
  /-- Granules that read as an uncorrectable error: HBM sectors, scratchpad words and accumulator words,
  by their first key (R458, R1113, R142). -/
  bad : List Nat
  tiles : Tbl Tile
  hbm : Hbm
  /-- View descriptors, eight words each (R487). -/
  views : Tbl (List W64)
  parts : Tbl Part
  /-- The tally counters (R625, R626). -/
  counters : Tbl W64
  regs : Regs
  log : Flash
  net : Net
  sunas : Sunas
  husks : Tbl Husk
  power : Power
  start : Start
  places : Places
  optics : Optics
  cores : Cores
  cricket : Cricket
deriving DecidableEq, Repr

/-- The reasons a step can stop with a fault: none, since every fault of the package is an effect on its
state. -/
inductive Fault where
  /-- Raised by nothing: the spec gives every command of the package an effect. Safe. -/
  | stuck
deriving DecidableEq, Repr

/-- The reasons a command is refused. -/
inductive Refusal where
  /-- A command that this model gives no meaning; raised by the dispatch alone. Safe. -/
  | notModelled (mnemonic : String)
deriving DecidableEq, Repr

/-- The package right after reset: every register at its reset value, nothing in memory, no command
waiting. -/
def State.reset : State :=
  { pending := [], out := [], timeNs := 0, freeCtr := 0, mem := [], bad := [], tiles := [], hbm := Hbm.reset,
    views := [], parts := [], counters := [], regs := Regs.reset, log := Flash.reset, net := Net.reset,
    sunas := Sunas.reset, husks := [], power := Power.reset, start := Start.reset, places := Places.reset,
    optics := Optics.reset, cores := Cores.reset, cricket := Cricket.reset }

/-- What a command answers. -/
abbrev Out := Host.Outcome State Fault Refusal

end Sys2Proof.Machine
end

