-- ==== Sys2Proof/Machine/Flags.lean ====
section
/-!
DEFINITION. The flag registers of the blocks: the interrupt line that names each block (R974), the bits
of each flag register, and setting a bit. A set bit stays until a read clears it (R961 to R963).
-/
namespace Sys2Proof.Machine

open Sys2Proof

/-- The block of each interrupt line (R974). -/
def lnArray (t a : Nat) : Nat := 4 * t + a
def lnVe (t : Nat) : Nat := 16 + t
def lnSq (t : Nat) : Nat := 20 + t
def lnRpend (t : Nat) : Nat := 24 + t
def lnHc (k : Nat) : Nat := 28 + k
def lnWv (t : Nat) : Nat := 36 + t
def lnCt (t : Nat) : Nat := 40 + t
def lnAc : Nat := 44
def lnDm : Nat := 45
def lnXp : Nat := 46
def lnPl : Nat := 47
def lnRk : Nat := 48
def lnHk : Nat := 49
def lnSt : Nat := 50
def lnLs : Nat := 51
def lnOp (k : Nat) : Nat := 52 + k
def lnMb (m : Nat) : Nat := 76 + m
def lnId : Nat := 140
def lnFl : Nat := 141
def lnCk : Nat := 142
def lnPw : Nat := 143

/-- The flag register of a block. -/
def State.flagsOf (s : State) (ln : Nat) : W32 := Tbl.get 0 s.regs.flags ln

/-- The state with flag register `ln` holding `v`. -/
def State.setFlags (s : State) (ln : Nat) (v : W32) : State :=
  { s with regs := { s.regs with flags := Tbl.set s.regs.flags ln v } }

/-- Set bit `b` of flag register `ln`. -/
def State.setFlag (s : State) (ln b : Nat) : State := s.setFlags ln (s.flagsOf ln ||| BitVec.ofNat 32 (2 ^ b))

/-- Set bit `b` of flag register `ln` where `c` holds. -/
def State.setFlagIf (s : State) (c : Bool) (ln b : Nat) : State := if c then s.setFlag ln b else s

/-- Bits of the flag registers that events set. -/
def fMaNv : Nat := 0
def fMaOf : Nat := 1
def fMaIov : Nat := 2
def fMaPchk : Nat := 3
def fMaAcmUe : Nat := 4
def fMaCfg : Nat := 5
def fMaRetired : Nat := 6
def fSqFailed : Nat := 0
def fSqRing : Nat := 1
def fSqCfg : Nat := 2
def fHcCe : Nat := 0
def fHcUe : Nat := 1
def fHcRetire : Nat := 2
def fHcRetireFull : Nat := 3
def fHcState : Nat := 4
def fHcThermal : Nat := 5
def fHcCfg : Nat := 6
def fDmPlane : Nat := 0
def fDmSlot : Nat := 1
def fDmUnconf : Nat := 2
def fDmCfg : Nat := 3
def fCtHit : Nat := 0
def fCtCfg : Nat := 1
def fCtPort : Nat := 2
def fXpConn : Nat := 0
def fXpRefused : Nat := 1
def fXpCfg : Nat := 2
def fHkDone : Nat := 0
def fHkFail : Nat := 1
def fHkCfg : Nat := 2
def fStStage : Nat := 0
def fStFail : Nat := 1
def fStCfg : Nat := 2
def fFlRecord : Nat := 0
def fFlService : Nat := 1
def fFlFlash : Nat := 2
def fFlCfg : Nat := 3
def fPwButton : Nat := 0
def fPwLatch : Nat := 1
def fPwThermal : Nat := 2
def fPwRail : Nat := 3
def fPwCfg : Nat := 4
def fMbDone : Nat := 0
def fMbOverrun : Nat := 1
def fMbCfg : Nat := 2
def fIdCfg : Nat := 0
def fIdPriv : Nat := 1
def fIdHole : Nat := 2

end Sys2Proof.Machine
end

