-- ==== Sys2Proof/Machine/Operands.lean ====
section
/-!
DEFINITION. The operand fields of a tile instruction, format by format (R376 to R386), and the register
operands of a context and of a queue entry (R346, R351, R377).
-/
namespace Sys2Proof.Machine

open Sys2Proof

/-- Bits `hi` down to `lo` of an instruction. -/
def fld (w : W128) (hi lo : Nat) : Nat := (w.toNat / 2 ^ lo) % 2 ^ (hi + 1 - lo)

/-- The opcode of an instruction (R376). -/
def opc (w : W128) : Nat := fld w 7 0

/-- Format C (R380). -/
structure FmtC where
  imm : W64
  rsvd : Nat
  fn : Nat
  rs2 : Nat
  rs1 : Nat
  rd : Nat

def fmtC (w : W128) : FmtC :=
  { imm := BitVec.ofNat 64 (fld w 127 64), rsvd := fld w 63 28, fn := fld w 27 23, rs2 := fld w 22 18,
    rs1 := fld w 17 13, rd := fld w 12 8 }

/-- Format S (R381). -/
structure FmtS where
  rsvd : Nat
  fn : Nat
  tout : Nat
  ctr : Nat
  queue : Nat
  rs3 : Nat
  rs2 : Nat
  rs1 : Nat
  rd : Nat

def fmtS (w : W128) : FmtS :=
  { rsvd := fld w 127 88 + fld w 63 49, fn := fld w 87 80, tout := fld w 79 64, ctr := fld w 48 32,
    queue := fld w 31 28, rs3 := fld w 27 23, rs2 := fld w 22 18, rs1 := fld w 17 13, rd := fld w 12 8 }

/-- Format K (R382). -/
structure FmtK where
  rsvd : Nat
  ri : Nat
  ctr : Nat
  rows : Nat
  len : Nat
  re : Nat
  rd : Nat
  rc : Nat
  rb : Nat
  ra : Nat
  cq : Nat

def fmtK (w : W128) : FmtK :=
  { rsvd := fld w 127 106, ri := fld w 105 101, ctr := fld w 100 84, rows := fld w 83 68, len := fld w 67 36,
    re := fld w 35 31, rd := fld w 30 26, rc := fld w 25 21, rb := fld w 20 16, ra := fld w 15 11, cq := fld w 10 8 }

/-- Format R (R383). -/
structure FmtR where
  rsvd : Nat
  w64 : Nat
  atop : Nat
  rri : Nat
  rctr : Nat
  ri : Nat
  ctr : Nat
  len : Nat
  rd : Nat
  rc : Nat
  rb : Nat
  ra : Nat
  cq : Nat

def fmtR (w : W128) : FmtR :=
  { rsvd := fld w 127 112, w64 := fld w 111 111, atop := fld w 110 107, rri := fld w 106 102, rctr := fld w 101 85,
    ri := fld w 84 80, ctr := fld w 79 63, len := fld w 62 31, rd := fld w 30 26, rc := fld w 25 21,
    rb := fld w 20 16, ra := fld w 15 11, cq := fld w 10 8 }

/-- Format M (R384). -/
structure FmtM where
  rsvd : Nat
  tout : Nat
  ri : Nat
  ctr : Nat
  srcArr : Nat
  t : Nat
  s : Nat
  path : Nat
  first : Nat
  swap : Nat
  acc : Nat
  rowb : Nat
  bank2 : Nat
  bank : Nat
  nc : Nat
  m : Nat
  fmt : Nat
  rd : Nat
  rc : Nat
  rb : Nat
  ra : Nat
  arr : Nat

def fmtM (w : W128) : FmtM :=
  { rsvd := fld w 127 120, tout := fld w 119 104, ri := fld w 103 99, ctr := fld w 98 82, srcArr := fld w 81 80,
    t := fld w 79 77, s := fld w 76 73, path := fld w 72 72, first := fld w 71 71, swap := fld w 70 70,
    acc := fld w 69 69, rowb := fld w 68 59, bank2 := fld w 58 57, bank := fld w 56 55, nc := fld w 54 45,
    m := fld w 44 34, fmt := fld w 33 30, rd := fld w 29 25, rc := fld w 24 20, rb := fld w 19 15,
    ra := fld w 14 10, arr := fld w 9 8 }

/-- Format V (R385). -/
structure FmtV where
  rsvd : Nat
  ri : Nat
  ctr : Nat
  alt : Nat
  acc : Nat
  fn : Nat
  conv : Nat
  rm : Nat
  rn : Nat
  n : Nat
  rds : Nat
  desc : Nat

def fmtV (w : W128) : FmtV :=
  { rsvd := fld w 127 99, ri := fld w 98 94, ctr := fld w 93 77, alt := fld w 76 76, acc := fld w 75 75,
    fn := fld w 74 67, conv := fld w 66 63, rm := fld w 62 61, rn := fld w 60 56, n := fld w 55 40,
    rds := fld w 39 35, desc := fld w 34 8 }

/-- Format X (R386). -/
structure FmtX where
  rsvd : Nat
  ri : Nat
  ctr : Nat
  s : Nat
  l : Nat
  rows : Nat
  rf : Nat
  re : Nat
  rd : Nat
  rc : Nat
  rb : Nat
  ra : Nat

def fmtX (w : W128) : FmtX :=
  { rsvd := fld w 127 93, ri := fld w 92 88, ctr := fld w 87 71, s := fld w 70 67, l := fld w 66 49,
    rows := fld w 48 38, rf := fld w 37 33, re := fld w 32 28, rd := fld w 27 23, rc := fld w 22 18,
    rb := fld w 17 13, ra := fld w 12 8 }

/-- Register g of a register file: g0 reads 0 (R346). -/
def greg (g : Tbl W64) (n : Nat) : W64 := if n % 32 = 0 then 0 else Tbl.get 0 g (n % 32)

/-- A register file with `v` in register n: a write to g0 is ignored (R346). -/
def gset (g : Tbl W64) (n : Nat) (v : W64) : Tbl W64 := if n % 32 = 0 then g else Tbl.set g (n % 32) v

/-- An address register, read unsigned (R377). -/
def gaddr (g : Tbl W64) (n : Nat) : Nat := (greg g n).toNat

/-- A stride register, read signed (R377). -/
def gstride (g : Tbl W64) (n : Nat) : Int := (greg g n).toInt

/-- The queue that an instruction's entry goes to, by its class and fields (R350); none for an
instruction that runs on the sequencer or has no opcode. -/
def queueOf (w : W128) : Option Nat :=
  let o := opc w
  if 0x20 ≤ o ∧ o ≤ 0x22 then some (8 + (fmtK w).cq)
  else if 0x30 ≤ o ∧ o ≤ 0x36 then some (8 + (fmtR w).cq)
  else if 0x40 ≤ o ∧ o ≤ 0x49 then some (fmtM w).arr
  else if 0x60 ≤ o ∧ o ≤ 0x80 then some 4
  else if o = 0x81 then some 5
  else none

/-- A queue condition: `SQWAIT` or `MWAIT`. -/
def isCondition (w : W128) : Bool := opc w == 0x11 || opc w == 0x49

/-- The counter of a queue condition. -/
def condCtr (e : QEntry) : Nat :=
  if opc e.word = 0x49 then (fmtM e.word).ctr + gaddr e.g (fmtM e.word).ra else (fmtS e.word).ctr + gaddr e.g (fmtS e.word).rs1

/-- The threshold of a queue condition. -/
def condThr (e : QEntry) : W64 :=
  if opc e.word = 0x49 then greg e.g (fmtM e.word).rb else greg e.g (fmtS e.word).rs2

/-- The timeout of a queue condition, 0 for none. -/
def condTout (e : QEntry) : Nat := if opc e.word = 0x49 then (fmtM e.word).tout else (fmtS e.word).tout

/-- A remote operation (class 0x3). -/
def isRemote (w : W128) : Bool := opc w / 16 == 3

/-- The completion counter and the register of its INC, format by format; none for a condition. -/
def ctrOf (w : W128) : Option (Nat × Nat) :=
  let o := opc w
  if o = 0x11 || o = 0x49 then none
  else if o / 16 = 2 then some ((fmtK w).ctr, (fmtK w).ri)
  else if o / 16 = 3 then some ((fmtR w).ctr, (fmtR w).ri)
  else if o / 16 = 4 || o / 16 = 5 then some ((fmtM w).ctr, (fmtM w).ri)
  else if 0x60 ≤ o ∧ o ≤ 0x80 then some ((fmtV w).ctr, (fmtV w).ri)
  else if o = 0x81 then some ((fmtX w).ctr, (fmtX w).ri)
  else none

/-- The depth of a queue (R350). -/
def queueDepth (code : Nat) : Nat := if code = 5 then 32 else 64

end Sys2Proof.Machine
end

