-- ==== Sys2Proof/Machine/Ops.lean ====
section
/-!
DEFINITION. The operations that many commands share: access to the parts of the state, the event log,
service requests, the address map, reading and writing memory with its errors, and the tally counters.
-/
namespace Sys2Proof.Machine

open Sys2Proof

/-! ### Parts of the state -/

def State.tile (s : State) (t : Nat) : Tile := Tbl.get Tile.reset s.tiles t
def State.modTile (s : State) (t : Nat) (f : Tile → Tile) : State := { s with tiles := Tbl.upd Tile.reset s.tiles t f }
def State.arr (s : State) (t a : Nat) : Arr := Tbl.get Arr.reset (s.tile t).arrays a
def State.modArr (s : State) (t a : Nat) (f : Arr → Arr) : State :=
  s.modTile t fun x => { x with arrays := Tbl.upd Arr.reset x.arrays a f }
def State.ctx (s : State) (t c : Nat) : Ctx := Tbl.get Ctx.reset (s.tile t).ctxs c
def State.modCtx (s : State) (t c : Nat) (f : Ctx → Ctx) : State :=
  s.modTile t fun x => { x with ctxs := Tbl.upd Ctx.reset x.ctxs c f }
def State.queue (s : State) (t q : Nat) : EngQueue := Tbl.get EngQueue.empty (s.tile t).queues q
def State.modQueue (s : State) (t q : Nat) (f : EngQueue → EngQueue) : State :=
  s.modTile t fun x => { x with queues := Tbl.upd EngQueue.empty x.queues q f }
def State.ring (s : State) (t r : Nat) : Ring := Tbl.get Ring.reset (s.tile t).rings r
def State.modRing (s : State) (t r : Nat) (f : Ring → Ring) : State :=
  s.modTile t fun x => { x with rings := Tbl.upd Ring.reset x.rings r f }
def State.stack (s : State) (k : Nat) : Stack := Tbl.get Stack.reset s.hbm.stack k
def State.modStack (s : State) (k : Nat) (f : Stack → Stack) : State :=
  { s with hbm := { s.hbm with stack := Tbl.upd Stack.reset s.hbm.stack k f } }
def State.part (s : State) (p : Nat) : Part := Tbl.get Part.reset s.parts p
def State.modPart (s : State) (p : Nat) (f : Part → Part) : State := { s with parts := Tbl.upd Part.reset s.parts p f }
def State.husk (s : State) (p : Nat) : Husk := Tbl.get Husk.reset s.husks p
def State.modHusk (s : State) (p : Nat) (f : Husk → Husk) : State := { s with husks := Tbl.upd Husk.reset s.husks p f }
def State.island (s : State) (i : Nat) : Island := Tbl.get Island.reset s.power.islands i
def State.modIsland (s : State) (i : Nat) (f : Island → Island) : State :=
  { s with power := { s.power with islands := Tbl.upd Island.reset s.power.islands i f } }
def State.view (s : State) (v : Nat) : List W64 := Tbl.get zeroWords8 s.views v
def State.modNet (s : State) (f : Net → Net) : State := { s with net := f s.net }
def State.modLog (s : State) (f : Flash → Flash) : State := { s with log := f s.log }
def State.modSunas (s : State) (f : Sunas → Sunas) : State := { s with sunas := f s.sunas }
def State.modPower (s : State) (f : Power → Power) : State := { s with power := f s.power }
def State.modStart (s : State) (f : Start → Start) : State := { s with start := f s.start }
def State.slot (s : State) (k : Nat) : Slot := Tbl.get Slot.reset s.net.slots k
def State.conn (s : State) (c : Nat) : Conn := Tbl.get Conn.reset s.net.conns c
def State.modConn (s : State) (c : Nat) (f : Conn → Conn) : State :=
  s.modNet fun n => { n with conns := Tbl.upd Conn.reset n.conns c f }
def State.mbox (s : State) (m : Nat) : Mbox := Tbl.get Mbox.reset s.sunas.mboxes m
def State.modMbox (s : State) (m : Nat) (f : Mbox → Mbox) : State :=
  s.modSunas fun u => { u with mboxes := Tbl.upd Mbox.reset u.mboxes m f }

/-- Record an outgoing message. -/
def State.emit (s : State) (m : OutMsg) : State := { s with out := m :: s.out }

/-- A value that the spec leaves open, and the state with its counter advanced. -/
def State.fresh (s : State) (w : Nat) : BitVec w × State :=
  (Config.freeValue w s.freeCtr, { s with freeCtr := s.freeCtr + 1 })

/-- The numbers 0 to n − 1 folded over the state. -/
def State.forN (s : State) (n : Nat) (f : State → Nat → State) : State := (List.range n).foldl f s

/-! ### The event log (R1015 to R1021) and service requests (R1007) -/

/-- The smallest of 1, 2, 4 or 8 at or above `n`: the aligned size of a packed field (R932). -/
def packAlign (n : Nat) : Nat := if n ≤ 1 then 1 else if n ≤ 2 then 2 else if n ≤ 4 then 4 else 8

/-- Pack fields (size, value) under R932: each at the lowest multiple of its size, little-endian. -/
def packFields (fs : List (Nat × Nat)) : List Byte :=
  fs.foldl (fun acc f =>
    let pos := (acc.length + packAlign f.1 - 1) / packAlign f.1 * packAlign f.1
    acc ++ List.replicate (pos - acc.length) 0 ++ leBytes f.1 f.2) []

/-- The DETAIL of a record: the packed fields, filled with zero bytes to 16 (R1115). -/
def logDetail (fs : List (Nat × Nat)) : List Byte := ((packFields fs) ++ List.replicate 16 0).take 16

/-- The severity of an event (R1016, R1102 and the rules that define the others). -/
def severityOf (name : String) : Nat :=
  if name ∈ ["ISLAND_CLAMP", "ARRAY_ABIST", "ARRAY_REMAP", "SPM_BANK_SPARED", "HBM_ROW_REPAIRED", "HBM_THERMAL",
    "LANE_SPARED", "FIBRE_OUT", "PORT_TRAIN_FAIL", "FLASH_BLOCK_RETIRED", "HUSK_SKIPPED", "HUSK_KEY_DIFFERS",
    "THERMAL_THROTTLE", "THERMAL_WARN", "BUTTON_STUCK"] then 1
  else if name ∈ ["ARRAY_RETIRED", "SPM_BANK_RETIRED", "CORE_RETIRED", "HBM_UE", "HBM_ROW_RETIRED", "LANE_FAILED",
    "DOMAIN_PLANE_DOWN", "PORT_MISWIRED", "PLACE_MISMATCH", "LASER_REJECTED", "IMAGE_REJECTED", "IMAGE_FALLBACK",
    "REMOTE_STORE_LOST", "LOG_DROPPED", "HUSK_OVERFLOW", "HUSK_POISON_LIMIT", "HUSK_DRAIN_FAILED", "HUSK_ABANDONED",
    "HUSK_DIGEST_BAD", "HUSK_POISON", "PKG_EVAC_REQUESTED", "VSET_TIMEOUT"] then 2
  else if name ∈ ["ISLAND_STOP", "TILLER_OFFLINE", "LASER_MODULE_FAILED", "PORT_DARK", "HBM_RETIRE_FULL", "HBM_STACK_LOST",
    "FLASH_EXHAUSTED", "PINNED_PENDING", "SCARAB_LOCKSTEP", "RAIL_FAULT"] then 3
  else if name ∈ ["START_FAIL", "FW_REVERTED", "HUSK_SIG_BAD", "PINNED_UNAVAILABLE", "SCARAB_HALT", "THERMTRIP",
    "REFCLK_LOST"] then 4
  else 0

/-- Two records of one event (R1017). -/
def LogRec.sameEvent (a b : LogRec) : Bool :=
  a.name == b.name && a.source == b.source && a.index == b.index && a.partition == b.partition && a.detail == b.detail

/-- A stack that serves memory: in service or degraded (R429, R482). -/
def Stack.serves (k : Stack) : Bool := k.st == 1 || k.st == 2

/-- The Scarab reserve exists: HBM is in service, and not more than one stack is out (R1012, R478). -/
def State.reserveUp (s : State) : Bool :=
  (List.range 8).any (fun k => (s.stack k).serves) && decide (((List.range 8).filter fun k => (s.stack k).st == 3).length < 2)

/-- Place a record in the buffers (R1018, R1019): the first ring, else for severity 2 and above the second
ring and then the spill ring, where the reserve that holds it exists; dropped and counted where none has space. -/
def Flash.buffer (l : Flash) (reserve : Bool) (r : LogRec) : Flash :=
  if l.ring.length < 16384 then { l with ring := l.ring ++ [r], nextNumber := l.nextNumber + 1 }
  else if r.severity < 2 then { l with dropped := l.dropped + 1 }
  else if l.ring2.length < 1024 then { l with ring2 := l.ring2 ++ [r], nextNumber := l.nextNumber + 1 }
  else if reserve ∧ l.spill.length < 16384 then { l with spill := l.spill ++ [r], nextNumber := l.nextNumber + 1 }
  else { l with droppedHigh := l.droppedHigh + 1, nextNumber := l.nextNumber + 1 }

/-- What a record of severity 2 or above adds to the health reports (R1021). -/
def Flash.note (l : Flash) (r : LogRec) : Flash :=
  if r.severity < 2 then l
  else { l with toReport := l.toReport ++ [r], logMark := r.number, failureSeen := l.failureSeen || r.severity == 4,
                degradedSeen := l.degradedSeen || r.severity == 2 }

/-- Log a record: an event equal to one logged less than 1 s earlier only raises the COUNT of the next
(R1017). -/
def Flash.log (l : Flash) (reserve : Bool) (r : LogRec) : Flash :=
  match l.recent.find? (fun q => q.sameEvent r) with
  | some q =>
    if r.time < q.time + 1000000000 then
      { l with recent := l.recent.map (fun x => if x.sameEvent r then { x with count := satTo 254 (x.count + 1) } else x) }
    else
      let r' := { r with count := satTo 255 (1 + q.count) }
      ({ l with recent := { r with count := 0 } :: l.recent.filter (fun x => !x.sameEvent r) }.buffer reserve r').note r'
  | none => ({ l with recent := { r with count := 0 } :: l.recent }.buffer reserve r).note r

/-- Log an event with its source, index and partition (0xFF package-wide) and detail fields. -/
def State.logEv (s : State) (name : String) (source index partition : Nat) (detail : List (Nat × Nat)) : State :=
  let r : LogRec := { number := s.log.nextNumber, time := s.timeNs, severity := severityOf name, source := source,
                      index := index, partition := partition, count := 1, name := name, detail := logDetail detail }
  let s' := s.modLog (·.log s.reserveUp r)
  if r.severity ≥ 2 ∧ s'.log.toReport ≠ s.log.toReport then s'.setFlag lnFl fFlRecord else s'

/-- Log a record that is one of several of one event: R1017 does not fold it (R1115). -/
def State.logPart (s : State) (name : String) (source index partition : Nat) (detail : List (Nat × Nat)) : State :=
  let r : LogRec := { number := s.log.nextNumber, time := s.timeNs, severity := severityOf name, source := source,
                      index := index, partition := partition, count := 1, name := name, detail := logDetail detail }
  let up := s.reserveUp
  let s := s.modLog fun l => ({ l with recent := { r with count := 0 } :: l.recent.filter (fun x => !x.sameEvent r) }.buffer up r).note r
  if r.severity ≥ 2 then s.setFlag lnFl fFlRecord else s

/-! ### The address map (R30) -/

def spmBase (t : Nat) : Nat := 0x020000000000 + t * 0x08000000
def apertureBase : Nat := 0x400000000000
def viewBase : Nat := 0x010000000000
/-- The memory key of an accumulator byte: above every physical address. -/
def acmKey (t a off : Nat) : Nat := 2 ^ 56 + (4 * t + a) * 2 ^ 23 + off

/-- What an address names. -/
inductive Region where
  | hbm
  | view (v off : Nat)
  | spm (t off : Nat)
  | mmio
  | aperture (slot addr : Nat)
  | hole
deriving DecidableEq, Repr

/-- The region of a 48-bit physical address (R30, R31). -/
def regionOf (a : Nat) : Region :=
  if a < 0x8000000000 then .hbm
  else if 0x010000000000 ≤ a ∧ a < 0x020000000000 then .view ((a - viewBase) / 2 ^ 32) (a % 2 ^ 32)
  else if 0x020000000000 ≤ a ∧ a < 0x020020000000 then .spm ((a - 0x020000000000) / 0x08000000) (a % 0x08000000)
  else if 0x030000000000 ≤ a ∧ a < 0x040000000000 then .mmio
  else if 0x400000000000 ≤ a ∧ a < 0x800000000000 then .aperture ((a / 2 ^ 39) % 128) (a % 2 ^ 39)
  else .hole

/-- The granule of the memory that a key lies in: the unit that carries an error mark. -/
def granule (key : Nat) : Nat := if 2 ^ 56 ≤ key then 4 else if 0x020000000000 ≤ key then 8 else 32

/-- Scratchpad bytes of a Tiller within the banks in service (R1004). -/
def State.spmBytes (s : State) (t : Nat) : Nat := (64 - (s.tile t).retiredBanks) * 0x200000

/-- A repair of a failing row is asked for and has not ended: patrol scrub waits for it (R464, R482). -/
def Stack.repairing (k : Stack) : Bool := k.serves && !k.failing.isEmpty

/-- The stacks in service, in ascending number. -/
def State.stacksUp (s : State) : List Nat := (List.range 8).filter fun k => (s.stack k).serves

/-- The ranges of HBM in service (R30, R435 to R438, R478): none with fewer than seven stacks. -/
def State.hbmRanges (s : State) : List (Nat × Nat) :=
  let up := s.stacksUp
  if up.length = 8 then [(0, 2 ^ 39)]
  else if up.length = 7 then
    let lost := ((List.range 8).find? fun k => !(up.contains k)).getD 0
    if s.hbm.mode = 0 then [(0, 7 * 2 ^ 36)]
    else if s.hbm.mode = 1 then
      let hole := (lost / 2) * 2 ^ 37 + 2 ^ 36
      [(0, hole), (hole + 2 ^ 36, 2 ^ 39)].filter fun r => r.1 < r.2
    else [(0, lost * 2 ^ 36), ((lost + 1) * 2 ^ 36, 2 ^ 39)].filter fun r => r.1 < r.2
  else []

/-- Every byte of a range lies in HBM in service. A range of no bytes always does (R405). -/
def State.hbmOk (s : State) (a n : Nat) : Bool := n == 0 || s.hbmRanges.any fun r => decide (r.1 ≤ a ∧ a + n ≤ r.2)

/-- The first byte above HBM under the map in force (R904). -/
def State.hbmEnd (s : State) : Nat := ((s.hbmRanges.map (·.2)).foldl max 0)

/-- The first byte of the Scarab reserve: the highest 16 MiB of HBM in service (R1012). -/
def State.reserveBase (s : State) : Nat := s.hbmEnd - 0x1000000

/-- HBM that masters other than Scarab reach. -/
def State.userHbmOk (s : State) (a n : Nat) : Bool := s.hbmOk a n && (n == 0 || decide (a + n ≤ s.reserveBase))

/-- The stack and the stack-local address of a physical address (R431, R435 to R437). -/
def State.stackOf (s : State) (pa : Nat) : Option (Nat × Nat) :=
  if !(s.hbmOk pa 1) then none
  else
    let up := s.stacksUp
    if s.hbm.mode = 0 then
      if up.length = 8 then
        some (Nat.xor (pa / 256 % 8) (pa / 2048 % 8), (pa / 2048) * 256 + pa % 256)
      else
        let c := pa / 256
        some (up.getD (c % 7) 0, (c / 7) * 256 + pa % 256)
    else if s.hbm.mode = 1 then
      let t := pa / 2 ^ 37 % 4
      if up.contains (2 * t) && up.contains (2 * t + 1) then
        some (2 * t + Nat.xor (pa / 256 % 2) (pa / 65536 % 2), (pa / 512 % 2 ^ 28) * 256 + pa % 256)
      else some (if up.contains (2 * t) then 2 * t else 2 * t + 1, pa % 2 ^ 36)
    else some (pa / 2 ^ 36 % 8, pa % 2 ^ 36)

/-- The physical address of a stack-local address: the inverse of the map in force. -/
def State.paOf (s : State) (k sa : Nat) : Nat :=
  let up := s.stacksUp
  let hi := sa / 256
  let lo := sa % 256
  if s.hbm.mode = 0 then
    if up.length = 8 then hi * 2048 + (Nat.xor k (hi % 8)) * 256 + lo
    else (hi * 7 + (up.idxOf k)) * 256 + lo
  else if s.hbm.mode = 1 then
    if up.contains (k / 2 * 2) && up.contains (k / 2 * 2 + 1) then
      (k / 2) * 2 ^ 37 + hi * 512 + (Nat.xor (k % 2) (hi / 128 % 2)) * 256 + lo
    else (k / 2) * 2 ^ 37 + sa
  else k * 2 ^ 36 + sa

/-- The row, as (pseudo-channel × 64 + bank) × 16384 + row, of a stack-local address (R432). -/
def rowOf (sa : Nat) : Nat :=
  ((sa / 256 % 64) * 64 + Nat.xor (sa / 65536 % 64) (sa / 2 ^ 22 % 64)) * 16384 + sa / 2 ^ 22 % 16384

/-- The stack-local address of sector i of a row (R432, R433). -/
def rowSector (r i : Nat) : Nat :=
  let row := r % 16384
  let bank := r / 16384 % 64
  let pc := r / (16384 * 64) % 64
  row * 2 ^ 22 + (Nat.xor bank (row % 64)) * 65536 + (i / 8) * 16384 + pc * 256 + (i % 8) * 32

/-- The physical addresses of the 32 sectors of a row. -/
def State.rowPas (s : State) (k r : Nat) : List Nat := (List.range 32).map fun i => s.paOf k (rowSector r i)

/-! ### Error marks -/

/-- A granule from `g` and a range from `a` of `n` bytes meet. -/
def meets (g gl a n : Nat) : Bool := decide (g < a + n ∧ a < g + gl)

/-- The sectors of fenced rows that a range touches (R471). -/
def State.fencedIn (s : State) (a n : Nat) : List Nat :=
  if a < 0x8000000000 then
    s.stacksUp.flatMap fun k =>
      (s.stack k).fenced.flatMap fun r => (s.rowPas k r).filter fun pa => meets pa 32 a n
  else []

/-- The marked granules that a range touches. -/
def State.badIn (s : State) (a n : Nat) : List Nat := s.bad.filter fun g => meets g (granule g) a n

/-- The least of a list of numbers. -/
def leastOf : List Nat → Option Nat
  | [] => none
  | x :: xs => some (xs.foldl min x)

/-- A write of this range would merge into an uncorrectable granule, or touches a fenced row: it is not
performed (R461, R471, R1113, R1108). The first granule concerned. -/
def State.writeErr (s : State) (mf : MemFaults) (a n : Nat) : Option Nat :=
  leastOf ((s.badIn a n ++ (mf.uncorrectable.map fun g => alignDown (granule a) g).filter fun g => meets g (granule a) a n).filter
    (fun g => !(decide (a ≤ g ∧ g + granule a ≤ a + n))) ++ s.fencedIn a n)

/-! ### Regulators (R445 to R450) -/

/-- The tokens of a bucket now: its last level and what CAP has added since, at most its size; half the
rate while the stack is throttled (R447, R467). -/
def Regulator.level (r : Regulator) (now : Nat) (throttled : Bool) : Nat :=
  let rate := if throttled then r.cap * 5 else r.cap * 10
  min (2 ^ r.burstLog2) (r.tokens + rate * (now - r.since))

def Stack.reg (k : Stack) (p : Nat) : Regulator := Tbl.get Regulator.reset k.regs p

/-- Take a charge from a bucket that holds it (R449). -/
def Regulator.take (r : Regulator) (now : Nat) (throttled : Bool) (charge : Nat) : Regulator :=
  { r with tokens := r.level now throttled - charge, since := now, charged := (r.charged + charge) % 2 ^ 64,
           epochBytes := r.epochBytes + charge }

/-- Charge a partition on a stack: granted at once where its bucket holds the charge and no earlier request
of it waits; otherwise the request waits for its tokens (R449). -/
def State.chargeStack (s : State) (k p charge : Nat) : State :=
  if charge = 0 then s
  else s.modStack k fun x =>
    let r := x.reg p
    if decide (charge ≤ r.level s.timeNs x.throttled) && !(x.waiting.any fun w => w.1 == p) then
      { x with regs := Tbl.set x.regs p (r.take s.timeNs x.throttled charge) }
    else { x with waiting := x.waiting ++ [(p, charge)] }

/-- The charge of one 256-byte chunk's share of a range (R448): sectors read or written, sectors merged,
or the whole chunk in block mode. -/
def chunkCharge (block write : Bool) (a n : Nat) : Nat :=
  let whole := decide (a % 256 = 0 ∧ n = 256)
  if block then (if write && !whole then 512 else 256)
  else
    let touched := (a + n + 31) / 32 - a / 32
    let full := (a + n) / 32 - (a + 31) / 32
    if write then 32 * full + 64 * (touched - full) else 32 * touched

/-- Charge an HBM access of partition p, chunk by chunk (R448, R452). -/
def State.chargeHbm (s : State) (p : Nat) (write : Bool) (a n : Nat) : State :=
  if a < 0x8000000000 ∧ 0 < n then
    s.forN ((a + n + 255) / 256 - a / 256) fun s i =>
      let lo := max a ((a / 256 + i) * 256)
      let hi := min (a + n) ((a / 256 + i + 1) * 256)
      match s.stackOf lo with
      | some (k, _) => s.chargeStack k p (chunkCharge ((s.stack k).reg p).blockMode write lo (hi - lo))
      | none => s
  else s

/-! ### Undefined memory contents -/

/-- A range of memory whose contents the spec calls undefined: some bytes, which nothing fixes. -/
def State.scramble (s : State) (lo hi : Nat) : State :=
  let keep := s.mem.filter fun c => !(decide (lo ≤ c.1 ∧ c.1 < hi))
  { s with mem := ((Config.freeBytes s.freeCtr).filter fun c => decide (lo ≤ c.1 ∧ c.1 < hi)).foldl (fun m c => Memory.write m c.1 c.2) keep,
           freeCtr := s.freeCtr + 1 }

/-- Ranges of memory whose contents become undefined. -/
def State.scrambleAll (s : State) (rs : List (Nat × Nat)) : State := rs.foldl (fun s r => s.scramble r.1 (r.1 + r.2)) s

/-! ### Writing memory, with the Husk copy-on-write (R850, R854 to R861) -/

/-- Reservations of LR whose 64-byte line a write touches are lost (R529, R548; PRESUMED, log entry 22). -/
def Cores.loseResv (x : Cores) (a n : Nat) : Cores :=
  { x with core := Tbl.mapVal (fun _ c => match c.resv with
      | some r => if n != 0 && meets (alignDown 64 r.1) 64 a n then { c with resv := none } else c
      | none => c) x.core }

/-- Bytes placed in memory: a wholly written granule loses its mark (R460, R1113). -/
def State.poke (s : State) (a : Nat) (bs : List Byte) : State :=
  { s with mem := Memory.writeBytes s.mem a bs,
           cores := s.cores.loseResv a bs.length,
           bad := s.bad.filter fun g => !(decide (a ≤ g ∧ g + granule g ≤ a + bs.length)) }

/-- Bytes read from memory as they stand. -/
def State.peek (s : State) (a n : Nat) : List Byte := Memory.readBytes s.mem a n

/-- A little-endian number read from memory as it stands. -/
def State.peekN (s : State) (a n : Nat) : Nat := Memory.readNat s.mem a n

/-- The addresses of the 256-byte chunks of a granule that lie on stack k (R846). -/
def State.partChunks (s : State) (g k : Nat) : List Nat :=
  ((List.range 256).map fun i => g * 65536 + i * 256).filter fun pa => (s.stackOf pa).map (·.1) == some k

/-- Bytes of a range that lie on stack k. -/
def State.bytesOn (s : State) (a n k : Nat) : Nat :=
  if s.hbm.mode = 0 ∧ s.stacksUp.length = 8 then n / 8
  else if s.hbm.mode = 2 then (if (a / 2 ^ 36) = k then n else 0)
  else ((List.range (n / 65536)).map fun i => (s.partChunks (a / 65536 + i) k).length * 256).foldl (· + ·) 0

/-- Reserve bytes of a Husk in use on stack k. -/
def Husk.usedOn (h : Husk) (k : Nat) : Nat :=
  (h.parts.map fun p => match p.2 with
    | .saved bs _ => if p.1 % 8 = k then bs.length else 0
    | .drained => 0).foldl (· + ·) 0

/-- The partition whose Husk regions hold an address, if its snapshot is live or being taken. -/
def State.huskAt (s : State) (pa : Nat) : Option Nat :=
  (List.range 8).find? fun p =>
    let h := s.husk p
    (2 ≤ h.st && h.st ≤ 6) && match h.cfg with
      | some c => c.regions.any fun r => decide (r.1 ≤ pa ∧ pa < r.1 + r.2)
      | none => false

/-- The part holds its own content still to be saved before a write (R854). -/
def Husk.needsCopy (h : Husk) (part : Nat) : Bool :=
  match Tbl.find h.parts part with
  | none => true
  | some (.saved _ _) => false
  | some .drained => match h.cfg with
    | some c => c.mode == 1
    | none => false

/-- Copy a part to the reserve (R854, R858): its bytes, with the marked and fenced sectors as poisoned. No rule places
them in the reserve, so its bytes as software reads them become undefined. The read and the write are charged to the
partition (R452, R862). -/
def State.savePart (s : State) (p part : Nat) : State :=
  let reserve := match (s.husk p).cfg with
    | some c => (c.resBase, c.resBase + c.resLen)
    | none => (0, 0)
  let chunks := s.partChunks (part / 8) (part % 8)
  let bytes := chunks.flatMap fun pa => s.peek pa 256
  let poisoned := chunks.flatMap fun pa => s.badIn pa 256 ++ s.fencedIn pa 256
  let s := s.scramble reserve.1 reserve.2
  ((s.chargeStack (part % 8) p bytes.length).chargeStack (part % 8) p bytes.length).modHusk p fun h =>
    { h with parts := Tbl.set h.parts part (.saved bytes poisoned), copied := sat32 (h.copied + 1) }

/-- The stacks that a range of one granule touches. -/
def State.stacksIn (s : State) (a n : Nat) : List Nat :=
  ((List.range ((a + n + 255) / 256 - a / 256)).filterMap fun i => (s.stackOf ((a / 256 + i) * 256)).map (·.1)).dedup

/-- Save the parts that a write within one granule needs saved; none where the reserve has no space on
one of their stacks (R860). -/
def State.cow (s : State) (p a n : Nat) : Option State :=
  let h := s.husk p
  match h.cfg with
  | none => some s
  | some c =>
    let need := ((s.stacksIn a n).map fun k => a / 65536 * 8 + k).filter fun part => h.needsCopy part
    if need.all fun part =>
        decide (h.usedOn (part % 8) + (s.partChunks (part / 8) (part % 8)).length * 256 ≤ s.bytesOn c.resBase c.resLen (part % 8)) then
      some (need.foldl (fun s part => s.savePart p part) s)
    else none

/-- A write within one 64 KiB granule that arrived at time `since`. While a freeze holds writes, while an earlier write
to the granule waits, or while the reserve is full, it waits (R850, R856, R860); otherwise the parts are saved and it
is performed. -/
def State.storeSince (s : State) (since a : Nat) (bs : List Byte) : State :=
  match (if a < 0x8000000000 then s.huskAt a else none) with
  | none => s.poke a bs
  | some p =>
    let h := s.husk p
    let hold := s.modHusk p fun h => { h with held := h.held ++ [⟨a, bs, since⟩] }
    if h.st = 2 || h.held.any (fun w => w.addr / 65536 == a / 65536) then hold
    else match s.cow p a bs.length with
      | some s' => s'.poke a bs
      | none => hold

/-- A write within one 64 KiB granule, that arrives now. -/
def State.storeGranule (s : State) (a : Nat) (bs : List Byte) : State := s.storeSince s.timeNs a bs

/-- A write of any length, cut at the 64 KiB granules of HBM; elsewhere it is one write. -/
def State.storeFuel : Nat → State → Nat → List Byte → State
  | 0, s, _, _ => s
  | k + 1, s, a, bs =>
    match bs with
    | [] => s
    | _ =>
      let n := 65536 - a % 65536
      State.storeFuel k (s.storeGranule a (bs.take n)) (a + n) (bs.drop n)

def State.store (s : State) (a : Nat) (bs : List Byte) : State :=
  if a < 0x8000000000 then State.storeFuel (bs.length / 65536 + 2) s a bs else s.poke a bs

end Sys2Proof.Machine
end

