-- ==== Sys2Proof/Machine/Work.lean ====
section
/-!
DEFINITION. What ends work and reports it: tally counters and what their updates start (R626 to R633),
notifications (R939), mailbox responses (R927), completion records (R371 to R375), the stop of a context
(R412 to R414), partition reset, the loss of a Tiller core island or an HBM stack (R990, R476), and the
reads of memory with the errors they meet (R457 to R459, R1113, R142).
-/
namespace Sys2Proof.Machine

open Sys2Proof

/-! ### The reproducibility key (R830, R833) -/

/-- The microcode level of a Tiller. -/
def State.mcodeOf (s : State) (t : Nat) : Nat := (s.arr t 0).mcode

/-- One level for several Tillers: 0xFF where they differ; the running image's with no Tiller. -/
def State.oneLevel (s : State) (ts : List Nat) : Nat :=
  match ts with
  | [] => (if s.sunas.runningSlot = 0 then s.sunas.slotA else s.sunas.slotB).mcode
  | t :: rest => if rest.all fun u => s.mcodeOf u == s.mcodeOf t then s.mcodeOf t else 0xFF

def State.tillersUp (s : State) : List Nat := (List.range 4).filter fun t => (s.tile t).inService

/-- MCODE of a partition's key. -/
def State.partMcode (s : State) (p : Nat) : Nat :=
  let own := (List.range 4).filter fun t => (s.part p).arrays / 16 ^ t % 16 != 0
  s.oneLevel (if own = [] then s.tillersUp else own)

/-- The key of a partition. -/
def State.reproKey (s : State) (p : Nat) : Nat :=
  let x := s.part p
  s.start.stepping % 256 * 2 ^ 56 + s.partMcode p % 256 * 2 ^ 48 + x.lib % 256 * 2 ^ 40 + x.slices % 16 * 2 ^ 36 +
  x.alg % 16 * 2 ^ 32 + x.conv % 16 * 2 ^ 28 + x.rorder % 4 * 2 ^ 26

/-- `RK_FLAGS.CHANGED` where a key differs from that of an earlier state (R833, R839). -/
def State.keysFrom (s old : State) : State := s.setFlagIf ((List.range 8).any fun p => s.reproKey p != old.reproKey p) lnRk 0

/-! ### Counters -/

def State.ctr (s : State) (n : Nat) : W64 := Tbl.get 0 s.counters n

/-- The memory island of Tiller t has stopped after stage 2: requests to its counter unit and its ring doorbells are
refused (R37, R47, R629). -/
def State.hcStopped (s : State) (t : Nat) : Bool := decide (2 ≤ s.start.stage) && !(s.island (4 + t)).up

/-- A new TAIL is accepted (R362). -/
def Ring.tailOk (r : Ring) (new : W32) : Bool :=
  decide ((new - r.head).toNat ≤ 2 ^ r.sizeLog2) && decide ((r.tail - r.head).toNat ≤ (new - r.head).toNat)

/-- Offer a TAIL to a ring: a refused one leaves TAIL and sets RING_ERR (R362). -/
def State.offerTail (s : State) (t r : Nat) (new : W32) : State :=
  if (s.ring t r).tailOk new then s.modRing t r fun x => { x with tail := new }
  else (s.modRing t r fun x => { x with refusedTail := true }).setFlag (lnSq t) fSqRing

/-- A wait's threshold `thr` is met by the value before or after an update (R630). -/
def metBy (old new thr : W64) : Option W64 := if thr ≤ old then some old else if thr ≤ new then some new else none

/-- The wait of a context after an update of counter n (R630). -/
def CtxWait.update (w : CtxWait) (n : Nat) (old new : W64) : CtxWait :=
  match w with
  | .counter ctr thr rd timed none => if ctr = n then .counter ctr thr rd timed (metBy old new thr) else w
  | _ => w

/-- The head condition of a queue after an update of counter n (R273, R630). -/
def EngQueue.update (q : EngQueue) (n : Nat) (old new : W64) : EngQueue :=
  match q.waiting with
  | e :: rest =>
    if isCondition e.word && !e.met && decide (condCtr e = n) && (metBy old new (condThr e)).isSome then
      { q with waiting := { e with met := true } :: rest }
    else q
  | [] => q

/-- An armed port's threshold is met: its hit bit is set and the port disarmed (R657). -/
def State.ctFire (s : State) (t h : Nat) : State :=
  (s.modTile t fun x => { x with ctHit := x.ctHit ||| BitVec.ofNat 64 (2 ^ h), ctArmed := Tbl.erase x.ctArmed h }).setFlag (lnCt t) fCtHit

/-- Set counter n to v, with everything an update of it starts: waits it ends, rings whose TAIL follows
it (R361), and armed ports (R657). An update of a counter whose unit has stopped is refused (R47). -/
def State.ctrSet (s : State) (n : Nat) (v : W64) : State :=
  if s.hcStopped (n / 32768) then s else
  let old := s.ctr n
  let s := { s with counters := Tbl.set s.counters n v,
                    tiles := Tbl.mapVal (fun _ x =>
                      { x with ctxs := Tbl.mapVal (fun _ c => { c with wait := c.wait.update n old v }) x.ctxs,
                               queues := Tbl.mapVal (fun _ q => q.update n old v) x.queues }) s.tiles }
  let s := (s.tiles.flatMap fun p => p.2.rings.filterMap fun r =>
      if r.2.dbctrEn && r.2.dbctr == n then some (p.1, r.1) else none).foldl
    (fun s tr => s.offerTail tr.1 tr.2 (BitVec.ofNat 32 v.toNat)) s
  ((s.tile (n / 32768)).ctArmed.filter fun a => a.2.1 == n && decide (a.2.2 ≤ v)).foldl (fun s a => s.ctFire (n / 32768) a.1) s

/-- Add x to counter n modulo 2^64 (R627). -/
def State.ctrAdd (s : State) (n : Nat) (x : W64) : State := s.ctrSet n (s.ctr n + x)

/-! ### Notifications and service requests -/

/-- The in-band interrupt of the tray bus, raised only when enabled (R1065, R1069). -/
def State.ibi (s : State) (b : Nat) : State := if s.power.enec then s.emit (.ibi b) else s

/-- The name of a notification kind (R940). -/
def noteName (kind : Nat) : String :=
  if kind = 1 then "ROW_REPORT" else if kind = 2 then "MAINT_DONE" else if kind = 3 then "SERVICE" else "CORE_RETIRED"

/-- Write a notification record and add 1 to the ring's counter (R939); with no ring set the report is
logged (R941). `part` is the partition it names, none for a package-wide report. -/
def State.notify (s : State) (kind : Nat) (part : Option Nat) (detail : List Nat) : State :=
  match s.sunas.notify with
  | some (base, size, ctr) =>
    let n := s.sunas.nextNote
    let w1 := match part with
      | some p => kind + p * 256
      | none => kind + 2048
    let words := (n :: w1 :: detail ++ List.replicate 6 0).take 8
    let s := s.store (base + n % 2 ^ size * 64) (words.flatMap (leBytes 8))
    (s.modSunas fun u => { u with nextNote := n + 1 }).ctrAdd ctr 1
  | none => s.logEv (noteName kind) 5 0 (part.getD 0xFF) ((detail.take 2).map fun d => (8, d))

/-- Raise a service request (R1007). -/
def State.raiseService (s : State) (kind idx : Nat) : State :=
  if s.log.service.contains (kind, idx) then s
  else (((s.modLog fun l => { l with service := l.service ++ [(kind, idx)] }).setFlag lnFl fFlService).notify 3 none [kind, idx, 1]).ibi 2

/-- Clear a service request (R1007). -/
def State.clearService (s : State) (kind idx : Nat) : State :=
  if s.log.service.contains (kind, idx) then
    (((s.modLog fun l => { l with service := l.service.filter fun x => x != (kind, idx) }).setFlag lnFl fFlService).notify 3 none [kind, idx, 0]).ibi 2
  else s

/-! ### Mailbox responses (R927, R931) -/

def mbBase (m : Nat) : Nat := 0x030006000000 + m * 0x1000

/-- Fields of a mailbox's accepted command header (R929). -/
def Mbox.hdr (b : Mbox) (w : Nat) : Nat := leNat ((b.header.drop (8 * w)).take 8)
def Mbox.opcode (b : Mbox) : Nat := b.hdr 0 % 65536

/-- Cut a message into fragments of at most 664 bytes, at least one (R1037). -/
def cutFrags : Nat → List Byte → List (List Byte)
  | 0, _ => []
  | k + 1, bs => bs.take 664 :: (if bs.length ≤ 664 then [] else cutFrags k (bs.drop 664))

/-- The bursts of a message of the Cricket port. -/
def burstsOf (kind seq : Nat) (bs : List Byte) : List Burst :=
  let fs := cutFrags 4 bs
  fs.zipIdx.map fun f => ⟨kind, seq, f.2, fs.length, f.1⟩

/-- Queue the response of MB57 for the Cricket port (R1038). -/
def State.cricketReply (s : State) (bs : List Byte) : State :=
  { s with cricket := { s.cricket with mailbox := s.cricket.mailbox ++ burstsOf 0x03 s.cricket.nextSeq bs,
                                       nextSeq := (s.cricket.nextSeq + 1) % 65536 } }

/-- Write the response of mailbox m: payload rounded up to 8 bytes, header, STATE DONE and the DONE flag (R927, R931,
R932). -/
def State.writeResponse (s : State) (m status detail : Nat) (payload : List Byte) : State :=
  let b := s.mbox m
  let pay := payload ++ List.replicate ((8 - payload.length % 8) % 8) 0
  let w0 := b.opcode + status * 65536 + pay.length * 2 ^ 32
  let s := s.poke (mbBase m + 0x800) ([w0, b.hdr 1, detail, b.seq].flatMap (leBytes 8))
  let s := s.poke (mbBase m + 0x820) (pay.take 2016)
  let s := (s.modMbox m fun b => { b with st := 2, wait := .none }).setFlag (lnMb m) fMbDone
  if m = 56 then s.ibi 1 else if m = 57 then s.cricketReply (s.peek (mbBase 57 + 0x800) (32 + pay.length)) else s

/-- The header of mailbox m asks for a counter addition that it may ask for: a partition mailbox's counter lies in its own
partition (R927, R930). -/
def State.mboxCounts (s : State) (m : Nat) : Bool :=
  bitN ((s.mbox m).hdr 0) 18 && (decide (56 ≤ m) || bitN (s.part (m / 7)).cnt ((s.mbox m).hdr 3 % 2 ^ 17 / 1024))

/-- Complete the command of mailbox m: its response, then the counter that its header asks for (R927). -/
def State.respond (s : State) (m status detail : Nat) (payload : List Byte) : State :=
  let t := s.writeResponse m status detail payload
  if s.mboxCounts m then t.ctrAdd ((s.mbox m).hdr 3 % 2 ^ 17) 1 else t

/-- Respond to every mailbox whose command waits for `w`. -/
def State.respondWaiting (s : State) (w : CmdWait) (status detail : Nat) (payload : List Byte) : State :=
  (s.sunas.mboxes.filter fun p => p.2.wait == w).foldl (fun s p => s.respond p.1 status detail payload) s

/-! ### Tickets of the maintenance scheduler -/

/-- The partition of a partition mailbox (R922). -/
def mbPart (m : Nat) : Option Nat := if m < 56 then some (m / 7) else none

/-- Word w of a command header held as bytes (R929). -/
def headerWord (h : List Byte) (w : Nat) : Nat := leNat ((h.drop (8 * w)).take 8)

/-- A ticket ends with a final status: a mailbox that waits for it is answered, and a deferred command is
reported by MAINT_DONE and its counter (R942, R944). -/
def State.endTicket (s : State) (n status : Nat) : State :=
  match Tbl.find s.sunas.tickets n with
  | none => s
  | some t =>
    let s := s.modSunas fun u => { u with tickets := Tbl.set u.tickets n { t with st := 2, status := status } }
    let s := s.respondWaiting (.activity n) status 0 []
    if t.deferred && t.mbox != 64 then
      let s := s.notify 2 (mbPart t.mbox) [n, t.opcode, status]
      if bitN (headerWord t.header 0) 18 then s.ctrAdd (headerWord t.header 3 % 2 ^ 17) 1 else s
    else s

/-- The running tickets that meet a condition end with S_OK. -/
def State.endTickets (s : State) (f : Ticket → Bool) : State :=
  (s.sunas.tickets.filter fun t => t.2.st == 1 && f t.2).foldl (fun s t => s.endTicket t.1 0) s

/-! ### Ring entries -/

/-- Fault codes (R411). -/
def F_ILLOP : Nat := 0x01
def F_RSVD : Nat := 0x02
def F_ALIGN : Nat := 0x03
def F_BOUNDS : Nat := 0x04
def F_OVERLAP : Nat := 0x05
def F_VIEW_FMT : Nat := 0x06
def F_TIMEOUT : Nat := 0x07
def F_SPM_ECC : Nat := 0x08
def F_ACM_ECC : Nat := 0x09
def F_HBM_ECC : Nat := 0x0A
def F_ARRAY_LOST : Nat := 0x0B
def F_ISLAND : Nat := 0x0C
def F_FETCH : Nat := 0x0D
def F_ABORT : Nat := 0x0E
def F_CANCELLED : Nat := 0x0F
def F_REMOTE_BOUNDS : Nat := 0x10
def F_NO_ROUTE : Nat := 0x11
def F_WINDOW : Nat := 0x12
def F_REMOTE_LOST : Nat := 0x13

/-- The error code of a memory's granule. -/
def eccCode (key : Nat) : Nat := if granule key = 4 then F_ACM_ECC else if granule key = 8 then F_SPM_ECC else F_HBM_ECC

/-- Entries of a context that are queued and not complete (R388, R422). -/
def State.outstanding (s : State) (t c : Nat) : Nat :=
  ((s.tile t).queues.map fun q => (q.2.waiting.filter fun e => e.ctx == c).length + (q.2.active.filter fun e => e.ctx == c).length).foldl (· + ·) 0

/-- Write a completion record, advance CTAIL, count it and raise the interrupt that IRQ selects (R371,
R373, R986). -/
def State.writeRecord (s : State) (t r tag index status : Nat) (f : FaultRec) (discarded other ret : Nat) : State :=
  let x := s.ring t r
  let w0 := f.code % 256 + status * 256 + index % 65536 * 65536 + tag % 2 ^ 32 * 2 ^ 32
  let w1 := f.pc % 2 ^ 32 + f.done % 2 ^ 32 * 2 ^ 32
  let w3 := ret % 2 ^ 32 + f.queue % 16 * 2 ^ 36 + satTo 255 other * 2 ^ 40 + satTo 65535 discarded * 2 ^ 48
  let a := x.cbase + x.ctail.toNat % 2 ^ x.csizeLog2 * 32
  let s := (s.chargeHbm x.partition true a 32).store a ([w0, w1, f.info, w3].flatMap (leBytes 8))
  let s := s.modRing t r fun y => { y with ctail := y.ctail + 1 }
  if x.irq = 2 ∨ (x.irq = 1 ∧ status ≠ 0) then
    s.modTile t fun y => { y with rpend := Tbl.upd 0 y.rpend (r / 32) fun v => v ||| BitVec.ofNat 32 (2 ^ (r % 32)) }
  else s

/-- Count an entry that ended (R423). -/
def State.countEntry (s : State) (t r status : Nat) : State :=
  if status = 0 then s.modTile t fun x => { x with entriesDone := sat32 (x.entriesDone + 1) }
  else
    let s := s.modTile t fun x => { x with entriesFailed := sat32 (x.entriesFailed + 1) }
    if status = 1 ∨ status = 2 then
      (s.modRing t r fun x => { x with failed := sat32 (x.failed + 1) }).setFlag (lnSq t) fSqFailed
    else s

/-- Every partition is stopped or unset while evacuation is requested (R1099). -/
def State.updSafe (s : State) : State :=
  let safe := s.power.pkgEvac && (List.range 8).all fun p => (s.part p).st == .stopped || (s.part p).st == .unset
  if safe && !s.power.pkgSafe then (s.modPower fun w => { w with pkgSafe := true }).logEv "PKG_SAFE" 5 0 0xFF []
  else s.modPower fun w => { w with pkgSafe := safe }

/-- Entries of a partition in progress. -/
def State.partBusy (s : State) (p : Nat) : Bool :=
  s.tiles.any fun t => t.2.rings.any fun r => r.2.partition == p && decide (0 < r.2.inProgress)

/-- A stopping partition whose last entry has ended becomes STOPPED, and the command that stopped it is
answered (R938). -/
def State.partSettle (s : State) (p : Nat) : State :=
  if (s.part p).st == .stopping && !s.partBusy p then
    ((s.modPart p fun x => { x with st := .stopped }).respondWaiting (.partStop p) 0 0 []).updSafe
  else s

/-- The slot of a collective instance (R696). -/
def State.collSlot (s : State) (t group gseq : Nat) : Nat :=
  match (s.tile t).groups.find? fun g => g.2.group == group with
  | some g => if g.2.depth = 0 then 0 else gseq % g.2.depth
  | none => 0

/-- Key of a (GROUP, slot) failure mark. -/
def markKey (group slot : Nat) : Nat := group * 64 + slot

/-- End a ring entry: its record where one is due, its counts, its context freed, its failure mark
(R370 to R375, R734). -/
def State.endEntry (s : State) (t c status : Nat) (f : FaultRec) (ret : Nat) : State :=
  let x := s.ctx t c
  let s := if status = 0 ∧ x.inc ≠ 0 then s.ctrAdd x.ctr (BitVec.ofNat 64 x.inc) else s
  let s := if status ≠ 0 ∨ x.crec then s.writeRecord t x.ring x.tag x.index status f x.discarded x.other ret else s
  let s := s.countEntry t x.ring status
  let s := if x.coll ∧ status ≠ 0 then
      s.modTile t fun y => { y with failMarks := natInsert y.failMarks (markKey x.group (s.collSlot t x.group x.gseq)) }
    else s
  let s := s.modRing t x.ring fun r => { r with inProgress := r.inProgress - 1 }
  (s.modCtx t c fun _ => Ctx.reset).partSettle x.partition

/-- The record of an entry in which no item failed: R371 states DONE, INFO and QUEUE for a failing item only, so
they are left open. -/
def State.openRecord (s : State) (code : Nat) : FaultRec × State :=
  let (done, s) := s.fresh 32
  let (info, s) := s.fresh 64
  let (queue, s) := s.fresh 4
  (⟨code, 0xFFFFFFFF, done.toNat, info.toNat, queue.toNat⟩, s)

/-- The unstarted entries of a context leave every queue unperformed (R375, R413). -/
def State.discard (s : State) (t c : Nat) : State :=
  let n := ((s.tile t).queues.map fun q => (q.2.waiting.filter fun e => e.ctx == c).length).foldl (· + ·) 0
  let s := s.modTile t fun x =>
    { x with queues := Tbl.mapVal (fun _ q => { q with waiting := q.waiting.filter fun e => e.ctx != c }) x.queues }
  s.modCtx t c fun x => { x with discarded := satTo 65535 (x.discarded + n) }

/-- A fault of an item of a context (R412 to R414): the first stops the context and discards its unstarted
entries; each later one adds 1 to OTHER. -/
def State.ctxFault (s : State) (t c : Nat) (f : FaultRec) (unconfirmed : Bool) : State :=
  let x := s.ctx t c
  if x.st == .free then s
  else if x.fault.isSome || x.cancelled then
    (s.modCtx t c fun x => { x with other := satTo 255 (x.other + 1), unconfirmed := x.unconfirmed || unconfirmed }).discard t c
  else
    (s.modCtx t c fun x => { x with fault := some f, unconfirmed := unconfirmed, st := .ending, wait := .idle }).discard t c

/-- A ring disable or partition reset stops a running entry (R375). -/
def State.ctxCancel (s : State) (t c : Nat) : State :=
  let x := s.ctx t c
  if x.st == .free then s
  else (s.modCtx t c fun x => { x with cancelled := x.cancelled || x.fault.isNone, st := .ending, wait := .idle }).discard t c

/-! ### Cores and contexts (R345 to R349) -/

/-- The sequencer core of a context. -/
def coreOf (c : Nat) : Nat := c % 64 / 8

/-- The contexts of core k, in ascending number. -/
def coreCtxs (k : Nat) : List Nat := (List.range 8).map (8 * k + ·) ++ (List.range 8).map (64 + 8 * k + ·)

/-- An idle core takes the next ready context after the last it ran, in round-robin order (R348). -/
def State.coreNext (s : State) (t k : Nat) : State :=
  let cs := coreCtxs k
  if cs.any fun c => (s.ctx t c).st == .running then s
  else
    let last := Tbl.get 0 (s.tile t).lastRun k
    let ready := cs.filter fun c => (s.ctx t c).st == .ready
    match (ready.find? fun c => decide (last < c)).or ready.head? with
    | some c => (s.modCtx t c fun x => { x with st := .running, issued := 0 }).modTile t fun x => { x with lastRun := Tbl.set x.lastRun k c }
    | none => s

/-- The contexts in use of a Tiller that meet a condition. -/
def State.ctxsOf (s : State) (t : Nat) (f : Ctx → Bool) : List Nat :=
  (s.tile t).ctxs.filterMap fun c => if c.2.st != .free && f c.2 then some c.1 else none

/-- Cancel every running entry of a Tiller that meets a condition; each sequencer core then takes its next ready
context. -/
def State.cancelWhere (s : State) (t : Nat) (f : Ctx → Bool) : State :=
  ((s.ctxsOf t f).foldl (fun s c => s.ctxCancel t c) s).forN 8 fun s k => s.coreNext t k

/-- Disable a ring (R375). -/
def State.ringDisable (s : State) (t r : Nat) : State :=
  let s := s.modTile t fun x => { x with collFifo := x.collFifo.filter (· != r) }
  (s.modRing t r fun x => { x with enable := false }).cancelWhere t (fun c => c.ring == r)

/-! ### Husk abandonment (R861, R870) -/

/-- Perform the writes a Husk held, in their order; those that must still wait are held again. The longest wait is
kept (R885). -/
def State.releaseHeld (s : State) (p : Nat) : State :=
  let ws := (s.husk p).held
  let s := ws.foldl (fun s w => s.storeSince w.since w.addr w.data) (s.modHusk p fun h => { h with held := [] })
  let left := (s.husk p).held
  let waits := (ws.filter fun w => !(left.contains w)).map fun w => (s.timeNs - w.since) / 1000
  s.modHusk p fun h => { h with longestWaitUs := waits.foldl (fun m w => sat32 (max m w)) h.longestWaitUs }

/-- What a partition's Husk was asked for and will not do fails: a freeze or a rollback that waits, and its activity. The
reason in DETAIL is not stated. -/
def State.huskFails (s : State) (p : Nat) : State :=
  let (why, s) := s.fresh 64
  let s := (s.respondWaiting (.freeze p) 0x0C why.toNat []).respondWaiting (.rollback p) 0x0C why.toNat []
  (s.sunas.tickets.filter fun t => t.2.st == 1 && t.2.act == .huskrb && t.2.res.contains (.partition p)).foldl
    (fun s t => s.endTicket t.1 0x0C) s

/-- Abandon a snapshot with the event `name`: copy-on-write is disarmed, waiting writes proceed, 2^32 is
added to DONE_CTR and the state becomes ARMED (R861, R867, R868, R870). -/
def State.huskAbandon (s : State) (p : Nat) (name : String) : State :=
  let h := s.husk p
  let s := s.modHusk p fun h => { h with st := 1, parts := [], shards := [], manifestSent := false }
  let s := s.releaseHeld p
  let s := { s with net := { s.net with ops := s.net.ops.filter fun o => o.src != OpSource.husk p } }
  let s := match h.cfg with
    | some c => s.ctrAdd c.doneCtr 0x100000000
    | none => s
  ((s.logEv name 7 p p [(1, p), (8, h.snapId)]).setFlag lnHk fHkFail).huskFails p

/-! ### Partition reset (R375, R489, R870, R213) -/

/-- The owner of a view. -/
def viewOwner (d : List W64) : Nat := field (d.getD 0 0).toNat 31 29
/-- A view is enabled. -/
def viewOn (d : List W64) : Bool := bitN (d.getD 0 0).toNat 28

/-- A view's descriptor with ENABLE 0. -/
def viewDisable (d : List W64) : List W64 := (d.getD 0 0 &&& ~~~ (BitVec.ofNat 64 (2 ^ 28))) :: d.drop 1

/-- Reset a partition: running entries cancelled, views disabled, a live snapshot abandoned, array settings
cleared; the partition is left STOPPED, once its last entry has ended. -/
def State.partReset (s : State) (p : Nat) : State :=
  let s := (List.range 4).foldl (fun s t => s.cancelWhere t (fun c => c.partition == p)) s
  let s := { s with views := Tbl.mapVal (fun _ d => if viewOwner d == p then viewDisable d else d) s.views }
  let s := s.modNet fun n =>
    { n with exports := Tbl.mapVal (fun _ e => if e.partition == p then { e with valid := false } else e) n.exports,
             windows := Tbl.mapVal (fun _ w => if w.partition == p then { w with valid := false, revoking := false } else w) n.windows }
  let s := if 2 ≤ (s.husk p).st ∧ (s.husk p).st ≤ 6 then s.huskAbandon p "HUSK_ABANDONED" else s
  let s := s.forN 16 fun s i =>
    if bitN (s.part p).arrays i then
      s.modArr (i / 4) (i % 4) fun a => { a with prologueA := zeroWords8, prologueB := zeroWords8, epilogue := zeroWords8 }
    else s
  if (s.part p).st == .unset then s else (s.modPart p fun x => { x with st := .stopping }).partSettle p

/-! ### A Tiller core island goes offline (R990, R991, R1007) -/

/-- The local ranges that a queue entry could write. -/
def QEntry.dests (e : QEntry) : List (Nat × Nat) :=
  let o := opc e.word
  if o / 16 = 2 then
    let k := fmtK e.word
    (List.range k.rows).map fun (r : Nat) => ((gaddr e.g k.rb + r * gstride e.g k.rd : Int).toNat, k.len)
  else if o = 0x32 || o = 0x35 then [(gaddr e.g (fmtR e.word).ra, (fmtR e.word).len)]
  else if o = 0x33 then [(gaddr e.g (fmtR e.word).ra, 8)]
  else if o = 0x47 then
    let m := fmtM e.word
    (List.range m.m).flatMap fun (r : Nat) =>
      [((gaddr e.g m.ra + r * gstride e.g m.rb : Int).toNat, m.nc * 8), ((gaddr e.g m.rc + r * gstride e.g m.rd : Int).toNat, m.nc)]
  else []

/-- Ring entries in progress on Tiller t end FAILED_UNCONFIRMED with F_ISLAND: every byte their queue
entries could have written, the Tiller's scratchpad and accumulators included, becomes undefined, and each
counter they name may or may not have received its addition (R991). -/
def State.tillerOffline (s : State) (t : Nat) (service : Bool) : State :=
  if !(s.tile t).inService then s
  else
    let before := s
    let entries := (s.tile t).queues.flatMap fun q => q.2.waiting ++ q.2.active
    let s := s.scrambleAll ([(spmBase t, 0x08000000), (acmKey t 0 0, 2 ^ 25)] ++ entries.flatMap QEntry.dests)
    let s := entries.foldl (fun s e => match ctrOf e.word with
      | some (n, ri) =>
        let (b, s) := s.fresh 1
        if b = 1 ∧ ri ≠ 0 then s.ctrAdd n (greg e.g ri) else s
      | none => s) s
    let s := s.modTile t fun x => { x with inService := false, queues := [], collFifo := [] }
    let s := { s with net := { s.net with ops := s.net.ops.filter fun o => match o.src with
                | .queue t' _ _ => t' != t
                | _ => true } }
    let s := (s.ctxsOf t fun _ => true).foldl (fun s c =>
      let s := s.modCtx t c fun x => { x with discarded := 0, other := 0 }
      let (ret, s) := s.fresh 32
      s.endEntry t c 2 ⟨F_ISLAND, 0xFFFFFFFF, 0, 0, 6⟩ ret.toNat) s
    let s := ((s.modIsland t fun i => { i with up := false }).keysFrom before).logEv "TILLER_OFFLINE" 3 t 0xFF []
    if service then s.raiseService 3 t else s

/-- Working arrays of a Tiller. -/
def State.workingArrays (s : State) (t : Nat) : Nat := ((List.range 4).filter fun a => !(s.arr t a).retired).length

/-! ### An HBM stack leaves service (R475 to R478) -/

/-- Partition p has memory on stack k under the map in force (R476): every partition in fine mode. -/
def State.partOnStack (s : State) (p k : Nat) : Bool :=
  let x := s.part p
  if x.st == .unset || x.hbmLen == 0 then false
  else if s.hbm.mode = 0 then true
  else if s.hbm.mode = 1 then decide (x.hbmBase / 2 ^ 37 ≤ k / 2 ∧ k / 2 ≤ (x.hbmBase + x.hbmLen - 1) / 2 ^ 37)
  else decide (x.hbmBase / 2 ^ 36 ≤ k ∧ k ≤ (x.hbmBase + x.hbmLen - 1) / 2 ^ 36)

/-- Every poisoned HBM sector of `s` keeps its place in its stack under the map in force in `t`; those of a stack that `t`
does not serve are gone (R456, R477). -/
def State.movePoison (s t : State) : State :=
  let places := (s.bad.filter fun g => decide (g < 2 ^ 39)).filterMap s.stackOf
  let kept := (places.filter fun x => (t.stack x.1).serves).map fun x => t.paOf x.1 x.2
  { t with bad := kept.foldl natInsert (t.bad.filter fun g => decide (2 ^ 39 ≤ g)) }

/-- Set a stack's STATE, with the flag of a change (R482). -/
def State.setStackSt (s : State) (k st : Nat) : State :=
  if (s.stack k).st = st then s else (s.modStack k fun x => { x with st := st }).setFlag (lnHc k) fHcState

/-- Stack k leaves service: partitions with memory on it are reset, the map of seven stacks applies, and
the contents that are lost become undefined; with a second stack lost every partition is reset (R475 to
R478). -/
def State.stackLost (s : State) (k : Nat) : State :=
  if !((s.stack k).serves) then s
  else
    let second := decide (s.stacksUp.length < 8)
    let s := s.forN 8 fun s p => if second || s.partOnStack p k then s.partReset p else s
    let s := if s.hbm.mode = 0 then s.scramble 0 (2 ^ 39)
      else if s.hbm.mode = 1 then s.scramble (k / 2 * 2 ^ 37) ((k / 2 + 1) * 2 ^ 37)
      else s.scramble (k * 2 ^ 36) ((k + 1) * 2 ^ 36)
    ((s.movePoison (s.setStackSt k 3)).logEv "HBM_STACK_LOST" 0 k 0xFF []).raiseService 0 k

/-! ### Reading memory with its errors -/

def dayNs : Nat := 86400000000000

/-- A row is failing: it holds an uncorrectable sector, or it has corrected 8 errors within 24 h. It waits
for its repair (R468). -/
def Stack.markFailing (k : Stack) (row : Nat) : Stack :=
  if k.failing.contains row || k.retired.contains row then k else { k with failing := k.failing ++ [row] }

/-- A corrected HBM error (R457). -/
def State.hbmCe (s : State) (pa : Nat) : State :=
  match s.stackOf pa with
  | none => s
  | some (k, sa) =>
    let row := rowOf sa
    (s.modStack k fun x =>
      let times := s.timeNs :: (Tbl.get [] x.rowCes row).filter fun u => decide (s.timeNs < u + dayNs)
      let x := { x with ce := sat32 (x.ce + 1), rowCes := Tbl.set x.rowCes row times }
      if 8 ≤ times.length then x.markFailing row else x).setFlag (lnHc k) fHcCe

/-- A newly found uncorrectable sector (R459): counted, recorded, rewritten poisoned with zero data, and
logged; beyond UE_LIMIT distinct sectors in 24 h the stack leaves service (R475). -/
def State.hbmUe (s : State) (pa : Nat) : State :=
  match s.stackOf pa with
  | none => s
  | some (k, sa) =>
    let g := alignDown 32 pa
    let sa := alignDown 32 sa
    let s := s.poke g (List.replicate 32 0)
    let s : State := { s with bad := natInsert s.bad g }
    let s := s.modStack k fun x =>
      let seen := (x.ueSeen.filter fun u => decide (s.timeNs < u.2 + dayNs) && u.1 != sa)
      Stack.markFailing { x with ue := sat32 (x.ue + 1), lastUe := sa, ueSeen := (sa, s.timeNs) :: seen } (rowOf sa)
    let s := (s.setFlag (lnHc k) fHcUe).logEv "HBM_UE" 0 k 0xFF [(8, sa), (8, g)]
    if (s.stack k).ueLimit < (s.stack k).ueSeen.length then s.stackLost k else s

/-- The logical bank of a scratchpad offset (R24). -/
def bankOf (off : Nat) : Nat := off / 0x200000

/-- Retire a scratchpad bank with no spare left (R1004, R1005). -/
def State.bankRetire (s : State) (t b : Nat) : State :=
  let s := s.cancelWhere t (fun _ => true)
  let s := s.modTile t fun x => { x with retiredBanks := x.retiredBanks + 1, bankMap := [], bankCes := [], bankCopy := x.bankCopy.filter (· != b) }
  let s := (s.scramble (spmBase t) (spmBase t + 0x08000000)).logEv "SPM_BANK_RETIRED" 3 t 0xFF []
  if 64 - (s.tile t).retiredBanks < 32 then s.tillerOffline t true else s

/-- A scratchpad bank is failing: it waits for its copy to a spare, or is retired when none is left and no
copy runs (R1003, R1004, R1006). -/
def State.bankFailing (s : State) (t b : Nat) : State :=
  let x := s.tile t
  if x.bankCopy.contains b then s
  else if x.bankCopy.isEmpty && x.spareBanks == 0 then s.bankRetire t b
  else s.modTile t fun x => { x with bankCopy := x.bankCopy ++ [b] }

/-- A corrected scratchpad word (R1003, R1113). -/
def State.spmCe (s : State) (t off : Nat) : State :=
  let b := bankOf off
  let times := s.timeNs :: (Tbl.get [] (s.tile t).bankCes b).filter fun u => decide (s.timeNs < u + dayNs)
  let s := s.modTile t fun x => { x with bankCes := Tbl.set x.bankCes b times }
  if 8 ≤ times.length then s.bankFailing t b else s

/-- A corrected or uncorrectable error of one granule. -/
def State.noteCe (s : State) (g : Nat) : State :=
  if granule g = 4 then
    let i := (g - 2 ^ 56) / 2 ^ 23
    s.modArr (i / 4) (i % 4) fun a => { a with acmCe := sat32 (a.acmCe + 1) }
  else if granule g = 8 then s.spmCe ((g - 0x020000000000) / 0x08000000) (g % 0x08000000)
  else s.hbmCe g

def State.noteUe (s : State) (g : Nat) : State :=
  if granule g = 4 then
    let i := (g - 2 ^ 56) / 2 ^ 23
    ({ s with bad := natInsert s.bad g }.modArr (i / 4) (i % 4) fun a => { a with acmUe := sat32 (a.acmUe + 1) }).setFlag (lnArray (i / 4) (i % 4)) fMaAcmUe
  else if granule g = 8 then
    { s with bad := natInsert s.bad g }.bankFailing ((g - 0x020000000000) / 0x08000000) (bankOf (g % 0x08000000))
  else s.hbmUe g

/-- What the errors of a read of a range do: errors before the first uncorrectable granule are corrected
and counted; the first uncorrectable granule, if any, is returned, and counted where it is newly found, or is an accumulator
word (R457 to R459, R1113, R142). -/
def State.readErr (s : State) (mf : MemFaults) (a n : Nat) : Option Nat × State :=
  let gl := granule a
  let inRange := fun x => decide (alignDown gl a ≤ x ∧ x < a + n) && n != 0
  let known := s.badIn a n ++ s.fencedIn a n
  let fresh := ((mf.uncorrectable.filter inRange).map (alignDown gl)).filter fun g => !(known.contains g)
  let first := leastOf (known ++ fresh)
  let ces := ((mf.corrected.filter inRange).map (alignDown gl)).dedup.filter fun g =>
    !(known.contains g) && !(fresh.contains g) && match first with
      | some f => decide (g < f)
      | none => true
  let s := ces.foldl State.noteCe s
  match first with
  | none => (none, s)
  | some f => (some f, if known.contains f && granule f != 4 then s else s.noteUe f)

/-- Where a write is not performed: the granule, counted where its error is newly found (R461, R1113, R1108). -/
def State.mergeErr (s : State) (mf : MemFaults) (a n : Nat) : Option Nat × State :=
  match s.writeErr mf a n with
  | some g => (some g, if (s.badIn a n ++ s.fencedIn a n).contains g then s else s.noteUe g)
  | none => (none, s)

/-- A write that is not performed where it would merge into an uncorrectable granule or touch a fenced row. -/
def State.storeChecked (s : State) (mf : MemFaults) (a : Nat) (bs : List Byte) : Option Nat × State :=
  match s.mergeErr mf a bs.length with
  | (some g, s) => (some g, s)
  | (none, s) => (none, s.store a bs)

/-- Read a range: its bytes, or the first granule that returns no data. -/
def State.load (s : State) (mf : MemFaults) (a n : Nat) : (Except Nat (List Byte)) × State :=
  match s.readErr mf a n with
  | (some g, s') => (.error g, s')
  | (none, s') => (.ok (s'.peek a n), s')

end Sys2Proof.Machine
end

