-- ==== Sys2Proof/Machine/Sequencer.lean ====
section
/-!
DEFINITION. The sequencer (R345 to R425): fetching and running the control and sync instructions of a
context, its waits, and the scheduler's start and end of ring entries.
-/
namespace Sys2Proof.Machine

open Sys2Proof

/-! ### Leaving and taking a core (R348, R349) -/

/-- The running context leaves its core in a new state and the core takes the next one. -/
def State.leave (s : State) (t c : Nat) (st : CtxState) (w : CtxWait) : State :=
  (s.modCtx t c fun x => { x with st := st, wait := w, issued := 0 }).coreNext t (coreOf c)

/-- A waiting context becomes ready. -/
def State.wake (s : State) (t c : Nat) (f : Ctx → Ctx) : State :=
  (s.modCtx t c fun x => f { x with st := .ready, wait := .idle }).coreNext t (coreOf c)

/-! ### Regions a program may name -/

/-- A range lies in the partition's HBM. -/
def State.inPartHbm (s : State) (p a n : Nat) : Bool :=
  n == 0 || (decide ((s.part p).hbmBase ≤ a ∧ a + n ≤ (s.part p).hbmBase + (s.part p).hbmLen) && s.userHbmOk a n)

/-- A range lies in a Tiller's scratchpad, within the banks in service. -/
def State.inSpm (s : State) (t a n : Nat) : Bool := n == 0 || decide (spmBase t ≤ a ∧ a + n ≤ spmBase t + s.spmBytes t)

/-- A range lies in the partition's HBM or this Tiller's scratchpad (R389, R1110). -/
def State.inProgRange (s : State) (t p a n : Nat) : Bool := s.inPartHbm p a n || s.inSpm t a n

/-- A counter belongs to a partition (R408). -/
def State.ownsCtr (s : State) (p n : Nat) : Bool := decide (n < 131072) && bitN (s.part p).cnt (n / 1024)

/-! ### Running one instruction -/

/-- The fault of a sequencer instruction (R412, R416). -/
def State.seqFault (s : State) (t c code info : Nat) : State :=
  let x := s.ctx t c
  (s.ctxFault t c ⟨code, (x.pc.toNat + 2 ^ 64 - x.prog) % 2 ^ 32, 0, info % 2 ^ 64, 6⟩ false).coreNext t (coreOf c)

/-- Set the register of an instruction, go on at the next one and count it (R346, R347). -/
def State.next (s : State) (t c : Nat) (rd : Nat) (v : W64) : State :=
  s.modCtx t c fun x => { x with g := gset x.g rd v, pc := x.pc + 16, issued := x.issued + 1 }

/-- The context can issue: it runs, and has not used up its slice (R348). -/
def State.canIssue (s : State) (t c : Nat) : Bool := (s.ctx t c).st == .running && decide ((s.ctx t c).issued < 4096)

/-- The word at the program counter, or the fault of its fetch (R389, R390). -/
def State.fetch (s : State) (mf : MemFaults) (t c : Nat) : (Except Nat W128) × State :=
  let x := s.ctx t c
  let a := x.pc.toNat
  if !(s.inProgRange t x.partition a 16) then (.error F_FETCH, s)
  else if a % 16 ≠ 0 then (.error F_ALIGN, s)
  else match s.load mf a 16 with
    | (.ok bs, s') => (.ok (BitVec.ofNat 128 (leNat bs)), s'.chargeHbm x.partition false a 16)
    | (.error _, s') => (.error F_FETCH, s')

/-- Run the instruction at a context's program counter where it is one that `is` accepts: `body` gives its
effect. A fetch that fails stops the context; where the context cannot issue, or its next instruction is
another, the command finds nothing to do. -/
def State.runInstr (s : State) (t : Fin 4) (c : Fin 128) (mf : MemFaults) (is : W128 → Bool) (body : W128 → Ctx → State → State) : State :=
  if s.canIssue t c then
    match s.fetch mf t c with
    | (.error code, s') => s'.seqFault t c code (s.ctx t c).pc.toNat
    | (.ok w, s') => if is w then body w (s'.ctx t c) s' else s
  else s

/-- A signed reading of a 64-bit immediate. -/
def immInt (w : W64) : Int := w.toInt

/-- Go to a branch or jump target, writing the link register (R389, R1111). -/
def State.jump (s : State) (t c : Nat) (target : W64) (rd : Nat) : State :=
  let x := s.ctx t c
  if !(s.inProgRange t x.partition target.toNat 16) then s.seqFault t c F_FETCH target.toNat
  else if target.toNat % 16 ≠ 0 then s.seqFault t c F_ALIGN target.toNat
  else s.modCtx t c fun x => { x with g := gset x.g rd (x.pc + 16), pc := target, issued := x.issued + 1 }

/-- The ALU functions (R388), modulo 2^64; none for a reserved code. -/
def aluFn (fn : Nat) (a b : W64) : Option W64 :=
  let sh := b.toNat % 64
  match fn with
  | 0 => some (a + b)
  | 1 => some (a - b)
  | 2 => some (a &&& b)
  | 3 => some (a ||| b)
  | 4 => some (a ^^^ b)
  | 5 => some (a <<< sh)
  | 6 => some (a >>> sh)
  | 7 => some (a.sshiftRight sh)
  | 8 => some (a * b)
  | 9 => some (BitVec.ofNat 64 (a.toNat * b.toNat / 2 ^ 64))
  | 10 => some (if a.slt b then 1 else 0)
  | 11 => some (if a.ult b then 1 else 0)
  | 12 => some (if a.slt b then a else b)
  | 13 => some (if a.slt b then b else a)
  | 14 => some (if a.ult b then a else b)
  | 15 => some (if a.ult b then b else a)
  | _ => none

/-- The branch conditions (R388); none for a reserved code. -/
def brFn (fn : Nat) (a b : W64) : Option Bool :=
  match fn with
  | 0 => some (a == b)
  | 1 => some (a != b)
  | 2 => some (a.slt b)
  | 3 => some (!(a.slt b))
  | 4 => some (a.ult b)
  | 5 => some (!(a.ult b))
  | _ => none

/-- Queue an engine instruction or condition, or wait for space in its queue (R351, R355). -/
def State.enqueue (s : State) (t c code : Nat) (w : W128) : State :=
  if queueDepth code ≤ (s.queue t code).waiting.length then s.leave t c .waitQueue (.queue code)
  else
    let x := s.ctx t c
    let e : QEntry := { id := (s.tile t).nextId, ctx := c, pcOff := (x.pc.toNat + 2 ^ 64 - x.prog) % 2 ^ 32, word := w, g := x.g, met := false }
    let s := (s.modTile t fun y => { y with nextId := y.nextId + 1 }).modQueue t code fun q => { q with waiting := q.waiting ++ [e] }
    s.next t c 0 0

/-! ### The control instructions (R387, R388) -/

def isOp (o : Nat) (w : W128) : Bool := opc w == o

/-- NOP: no effect (R387). -/
def execNop (t : Fin 4) (c : Fin 128) (mf : MemFaults) (s : State) : Out :=
  .next <| s.runInstr t c mf (isOp 0x00) fun w _ s =>
    if fld w 127 8 ≠ 0 then s.seqFault t c F_RSVD 0 else s.next t c 0 0

/-- END and END with ABORT: the context leaves its core and ends once its entries have completed. -/
def State.endProgram (s : State) (t c : Nat) (abort : Option Nat) : State :=
  (s.modCtx t c fun x => { x with ended := some ((x.pc.toNat + 2 ^ 64 - x.prog) % 2 ^ 32), abort := abort }).leave t c .ending .idle

def endRsvd (f : FmtC) : Bool := f.rsvd != 0 || f.imm != 0 || f.rd != 0 || f.rs2 != 0 || decide (2 ≤ f.fn)

/-- END (R387, R388). -/
def execEnd (t : Fin 4) (c : Fin 128) (mf : MemFaults) (s : State) : Out :=
  .next <| s.runInstr t c mf (fun w => isOp 0x01 w && (fmtC w).fn % 2 == 0) fun w _ s =>
    if endRsvd (fmtC w) || (fmtC w).rs1 != 0 then s.seqFault t c F_RSVD 0 else s.endProgram t c none

/-- END with ABORT set (R387, R388). -/
def execEndAbort (t : Fin 4) (c : Fin 128) (mf : MemFaults) (s : State) : Out :=
  .next <| s.runInstr t c mf (fun w => isOp 0x01 w && (fmtC w).fn % 2 == 1) fun w x s =>
    if endRsvd (fmtC w) then s.seqFault t c F_RSVD 0 else s.endProgram t c (some (gaddr x.g (fmtC w).rs1))

/-- LI (R387). -/
def execLi (t : Fin 4) (c : Fin 128) (mf : MemFaults) (s : State) : Out :=
  .next <| s.runInstr t c mf (isOp 0x02) fun w _ s =>
    let f := fmtC w
    if f.rsvd ≠ 0 ∨ f.fn ≠ 0 ∨ f.rs1 ≠ 0 ∨ f.rs2 ≠ 0 then s.seqFault t c F_RSVD 0 else s.next t c f.rd f.imm

/-- ALU (R387, R388). -/
def execAlu (t : Fin 4) (c : Fin 128) (mf : MemFaults) (s : State) : Out :=
  .next <| s.runInstr t c mf (isOp 0x03) fun w x s =>
    let f := fmtC w
    match aluFn f.fn (greg x.g f.rs1) (greg x.g f.rs2) with
    | some v => if f.rsvd ≠ 0 ∨ f.imm ≠ 0 then s.seqFault t c F_RSVD 0 else s.next t c f.rd v
    | none => s.seqFault t c F_RSVD 0

/-- ALUI (R387, R388). -/
def execAlui (t : Fin 4) (c : Fin 128) (mf : MemFaults) (s : State) : Out :=
  .next <| s.runInstr t c mf (isOp 0x04) fun w x s =>
    let f := fmtC w
    match aluFn f.fn (greg x.g f.rs1) f.imm with
    | some v => if f.rsvd ≠ 0 ∨ f.rs2 ≠ 0 then s.seqFault t c F_RSVD 0 else s.next t c f.rd v
    | none => s.seqFault t c F_RSVD 0

/-- LD (R358). -/
def execLd (t : Fin 4) (c : Fin 128) (mf : MemFaults) (s : State) : Out :=
  .next <| s.runInstr t c mf (isOp 0x05) fun w x s =>
    let f := fmtC w
    let off := (greg x.g f.rs1 + f.imm).toNat
    let n := 2 ^ f.fn
    if f.rsvd ≠ 0 ∨ f.rs2 ≠ 0 ∨ 3 < f.fn then s.seqFault t c F_RSVD 0
    else if off % n ≠ 0 then s.seqFault t c F_ALIGN off
    else if s.spmBytes t < off + n then s.seqFault t c F_BOUNDS off
    else match s.load mf (spmBase t + off) n with
      | (.ok bs, s') => s'.next t c f.rd (BitVec.ofNat 64 (leNat bs))
      | (.error _, s') => s'.seqFault t c F_SPM_ECC off

/-- ST (R358). -/
def execSt (t : Fin 4) (c : Fin 128) (mf : MemFaults) (s : State) : Out :=
  .next <| s.runInstr t c mf (isOp 0x06) fun w x s =>
    let f := fmtC w
    let off := (greg x.g f.rs1 + f.imm).toNat
    let n := 2 ^ f.fn
    if f.rsvd ≠ 0 ∨ f.rd ≠ 0 ∨ 3 < f.fn then s.seqFault t c F_RSVD 0
    else if off % n ≠ 0 then s.seqFault t c F_ALIGN off
    else if s.spmBytes t < off + n then s.seqFault t c F_BOUNDS off
    else match s.storeChecked mf (spmBase t + off) (leBytes n (greg x.g f.rs2).toNat) with
      | (none, s') => s'.next t c 0 0
      | (some _, s') => s'.seqFault t c F_SPM_ECC off

/-- BR (R387 to R389, R1111). -/
def execBr (t : Fin 4) (c : Fin 128) (mf : MemFaults) (s : State) : Out :=
  .next <| s.runInstr t c mf (isOp 0x07) fun w x s =>
    let f := fmtC w
    match brFn f.fn (greg x.g f.rs1) (greg x.g f.rs2) with
    | none => s.seqFault t c F_RSVD 0
    | some taken =>
      if f.rsvd ≠ 0 ∨ f.rd ≠ 0 then s.seqFault t c F_RSVD 0
      else if taken then s.jump t c (x.pc + f.imm * 16) 0
      else s.next t c 0 0

/-- JAL (R1111). -/
def execJal (t : Fin 4) (c : Fin 128) (mf : MemFaults) (s : State) : Out :=
  .next <| s.runInstr t c mf (isOp 0x08) fun w x s =>
    let f := fmtC w
    if f.rsvd ≠ 0 ∨ f.fn ≠ 0 ∨ f.rs1 ≠ 0 ∨ f.rs2 ≠ 0 then s.seqFault t c F_RSVD 0
    else s.jump t c (x.pc + f.imm * 16) f.rd

/-- JALR (R1111). -/
def execJalr (t : Fin 4) (c : Fin 128) (mf : MemFaults) (s : State) : Out :=
  .next <| s.runInstr t c mf (isOp 0x09) fun w x s =>
    let f := fmtC w
    if f.rsvd ≠ 0 ∨ f.fn ≠ 0 ∨ f.rs2 ≠ 0 then s.seqFault t c F_RSVD 0
    else s.jump t c (greg x.g f.rs1 + f.imm) f.rd

/-- YIELD: the context leaves its core and stays ready (R348). -/
def execYield (t : Fin 4) (c : Fin 128) (mf : MemFaults) (s : State) : Out :=
  .next <| s.runInstr t c mf (isOp 0x0A) fun w _ s =>
    if fld w 127 8 ≠ 0 then s.seqFault t c F_RSVD 0 else (s.next t c 0 0).leave t c .ready .idle

/-- Arrays of a partition on a Tiller that are not retired, as a mask (R388). -/
def State.arrayMask (s : State) (t p : Nat) : Nat :=
  ((List.range 4).map fun a => if bitN (s.part p).arrays (4 * t + a) && !(s.arr t a).retired then 2 ^ a else 0).foldl (· + ·) 0

/-- Free entries of a queue; 0 for a code that names none (R388). -/
def State.qfree (s : State) (t code : Nat) : Nat :=
  if code = 6 ∨ code = 7 then 0 else queueDepth code - (s.queue t code).waiting.length

/-- CSRR (R388). CYCLE counts clocks, which this model does not: its value is left open. -/
def execCsrr (t : Fin 4) (c : Fin 128) (mf : MemFaults) (s : State) : Out :=
  .next <| s.runInstr t c mf (isOp 0x0B) fun w x s =>
    let f := fmtC w
    if f.rsvd ≠ 0 ∨ f.imm ≠ 0 ∨ f.rs2 ≠ 0 ∨ 7 < f.fn ∨ (f.fn ≠ 6 ∧ f.rs1 ≠ 0) then s.seqFault t c F_RSVD 0
    else match f.fn with
      | 0 => let (v, s') := s.fresh 64; s'.next t c f.rd v
      | 1 => s.next t c f.rd (BitVec.ofNat 64 s.timeNs)
      | 2 => s.next t c f.rd (BitVec.ofNat 64 t.val)
      | 3 => s.next t c f.rd (BitVec.ofNat 64 c.val)
      | 4 => s.next t c f.rd (BitVec.ofNat 64 x.partition)
      | 5 => s.next t c f.rd (BitVec.ofNat 64 (s.arrayMask t x.partition))
      | 6 => s.next t c f.rd (BitVec.ofNat 64 (s.qfree t (gaddr x.g f.rs1 % 16)))
      | _ => s.next t c f.rd (BitVec.ofNat 64 (s.outstanding t c))

/-! ### The sync instructions (R391, R392) -/

/-- Serial numbers of a context's entries in a queue that are not complete. -/
def State.fenceIds (s : State) (t c : Nat) (f : Nat → Bool) : List Nat :=
  (s.tile t).queues.flatMap fun q =>
    if f q.1 then ((q.2.waiting ++ q.2.active).filter fun e => e.ctx == c).map (·.id) else []

/-- A fence over entries: it completes at once where none is left, and otherwise waits (R392). -/
def State.fenceOn (s : State) (t c : Nat) (ids : List Nat) : State :=
  if ids = [] then s.next t c 0 0 else s.leave t c .waitFence (.fence ids)

def fenceRsvd (f : FmtS) : Bool :=
  f.rsvd != 0 || f.tout != 0 || f.ctr != 0 || f.rs1 != 0 || f.rs2 != 0 || f.rs3 != 0 || f.rd != 0

/-- SFENCE of one queue; a reserved FN value stops it too (R392). -/
def execSfenceQueue (t : Fin 4) (c : Fin 128) (mf : MemFaults) (s : State) : Out :=
  .next <| s.runInstr t c mf (fun w => isOp 0x10 w && (fmtS w).fn != 1) fun w _ s =>
    let f := fmtS w
    if fenceRsvd f || f.fn != 0 || f.queue == 6 || f.queue == 7 then s.seqFault t c F_RSVD 0
    else s.fenceOn t c (s.fenceIds t c (· == f.queue))

/-- SFENCE of every queue (R392). -/
def execSfenceAll (t : Fin 4) (c : Fin 128) (mf : MemFaults) (s : State) : Out :=
  .next <| s.runInstr t c mf (fun w => isOp 0x10 w && (fmtS w).fn == 1) fun w _ s =>
    let f := fmtS w
    if fenceRsvd f || f.queue != 0 then s.seqFault t c F_RSVD 0 else s.fenceOn t c (s.fenceIds t c fun _ => true)

/-- SQWAIT: a queue condition in the queue it names (R392). -/
def execSqwait (t : Fin 4) (c : Fin 128) (mf : MemFaults) (s : State) : Out :=
  .next <| s.runInstr t c mf (isOp 0x11) fun w x s =>
    let f := fmtS w
    let n := f.ctr + gaddr x.g f.rs1
    if f.rsvd ≠ 0 ∨ f.fn ≠ 0 ∨ f.rs3 ≠ 0 ∨ f.rd ≠ 0 ∨ f.queue = 6 ∨ f.queue = 7 then s.seqFault t c F_RSVD 0
    else if !(s.ownsCtr x.partition n) then s.seqFault t c F_BOUNDS n
    else s.enqueue t c f.queue w

/-- The checks of a counter operation: reserved fields, then the counter (R391, R408), then its unit (R47). -/
def State.ctrCheck (s : State) (x : Ctx) (f : FmtS) (rsvd : Bool) : Option (Nat × Nat) :=
  let n := f.ctr + gaddr x.g f.rs1
  if rsvd || f.rsvd != 0 || f.fn != 0 || f.queue != 0 then some (F_RSVD, 0)
  else if !(s.ownsCtr x.partition n) then some (F_BOUNDS, n)
  else if s.hcStopped (n / 32768) then some (F_ISLAND, n)
  else none

/-- TADD (R627). -/
def execTadd (t : Fin 4) (c : Fin 128) (mf : MemFaults) (s : State) : Out :=
  .next <| s.runInstr t c mf (isOp 0x12) fun w x s =>
    let f := fmtS w
    match s.ctrCheck x f (f.tout != 0 || f.rs3 != 0) with
    | some (code, info) => s.seqFault t c code info
    | none =>
      let n := f.ctr + gaddr x.g f.rs1
      (s.next t c f.rd (s.ctr n)).ctrAdd n (greg x.g f.rs2)

/-- TSET (R627). -/
def execTset (t : Fin 4) (c : Fin 128) (mf : MemFaults) (s : State) : Out :=
  .next <| s.runInstr t c mf (isOp 0x13) fun w x s =>
    let f := fmtS w
    match s.ctrCheck x f (f.tout != 0 || f.rs3 != 0) with
    | some (code, info) => s.seqFault t c code info
    | none =>
      let n := f.ctr + gaddr x.g f.rs1
      (s.next t c f.rd (s.ctr n)).ctrSet n (greg x.g f.rs2)

/-- TCAS (R627). -/
def execTcas (t : Fin 4) (c : Fin 128) (mf : MemFaults) (s : State) : Out :=
  .next <| s.runInstr t c mf (isOp 0x14) fun w x s =>
    let f := fmtS w
    match s.ctrCheck x f (f.tout != 0) with
    | some (code, info) => s.seqFault t c code info
    | none =>
      let n := f.ctr + gaddr x.g f.rs1
      let v := s.ctr n
      let s := s.next t c f.rd v
      if v = greg x.g f.rs3 then s.ctrSet n (greg x.g f.rs2) else s

/-- TREAD (R627). -/
def execTread (t : Fin 4) (c : Fin 128) (mf : MemFaults) (s : State) : Out :=
  .next <| s.runInstr t c mf (isOp 0x15) fun w x s =>
    let f := fmtS w
    match s.ctrCheck x f (f.tout != 0 || f.rs3 != 0 || f.rs2 != 0) with
    | some (code, info) => s.seqFault t c code info
    | none => s.next t c f.rd (s.ctr (f.ctr + gaddr x.g f.rs1))

/-- TWAIT: at once where the counter is at or above the threshold, and otherwise a wait without a core
(R630, R387). -/
def execTwait (t : Fin 4) (c : Fin 128) (mf : MemFaults) (s : State) : Out :=
  .next <| s.runInstr t c mf (isOp 0x16) fun w x s =>
    let f := fmtS w
    match s.ctrCheck x f (f.rs3 != 0) with
    | some (code, info) => s.seqFault t c code info
    | none =>
      let n := f.ctr + gaddr x.g f.rs1
      if greg x.g f.rs2 ≤ s.ctr n then s.next t c f.rd (s.ctr n)
      else s.leave t c .waitCounter (.counter n (greg x.g f.rs2) f.rd (f.tout != 0) none)

/-- An engine instruction: its entry goes to its queue (R351). -/
def execQueueEntry (t : Fin 4) (c : Fin 128) (mf : MemFaults) (s : State) : Out :=
  .next <| s.runInstr t c mf (fun w => (queueOf w).isSome) fun w _ s =>
    match queueOf w with
    | some q => s.enqueue t c q w
    | none => s

/-- An opcode that the table does not list (R387). -/
def illegalOp (w : W128) : Bool :=
  let o := opc w
  !(decide (o ≤ 0x0B) || decide (0x10 ≤ o ∧ o ≤ 0x16) || (queueOf w).isSome)

/-- An undefined opcode stops its context with F_ILLOP (R387). -/
def execUndefinedOpcode (t : Fin 4) (c : Fin 128) (mf : MemFaults) (s : State) : Out :=
  .next <| s.runInstr t c mf illegalOp fun _ _ s => s.seqFault t c F_ILLOP 0

/-! ### Waits, slices and timeouts -/

/-- The running context has issued 4,096 instructions and leaves its core (R348). -/
def execTimeSlice (t : Fin 4) (c : Fin 128) (s : State) : Out :=
  .next <| if (s.ctx t c).st == .running && decide (4096 ≤ (s.ctx t c).issued) then s.leave t c .ready .idle else s

/-- A waiting context becomes ready after the event that ends its wait (R349, R630, R392). -/
def execContextWake (t : Fin 4) (c : Fin 128) (s : State) : Out :=
  .next <| match (s.ctx t c).wait with
    | .counter n thr rd _ met =>
      match met.or (if thr ≤ s.ctr n then some (s.ctr n) else none) with
      | some v => s.wake t c fun x => { x with g := gset x.g rd v, pc := x.pc + 16 }
      | none => s
    | .fence ids =>
      if (s.fenceIds t c fun _ => true).any ids.contains then s
      else s.wake t c fun x => { x with pc := x.pc + 16 }
    | _ => s

/-- A full queue frees space: the waiting context's instruction is queued and the context is ready
(R355). -/
def execQueueSpaceFreed (t : Fin 4) (c : Fin 128) (s : State) : Out :=
  .next <| match (s.ctx t c).wait with
    | .queue code =>
      if queueDepth code ≤ (s.queue t code).waiting.length then s
      else
        let x := s.ctx t c
        let w := BitVec.ofNat 128 (s.peekN x.pc.toNat 16)
        ((s.modCtx t c fun x => { x with wait := .idle, st := .ready }).enqueue t c code w).coreNext t (coreOf c)
    | _ => s

/-- A TWAIT timeout expires; a condition met in the same clock wins (R278, R418). -/
def execTwaitTimeout (t : Fin 4) (c : Fin 128) (s : State) : Out :=
  .next <| match (s.ctx t c).wait with
    | .counter n _ _ true none => s.seqFault t c F_TIMEOUT n
    | _ => s

/-- TIMEOUT_MS of a ring entry expires (R417). -/
def execEntryTimeout (t : Fin 4) (c : Fin 128) (s : State) : Out :=
  .next <|
    let x := s.ctx t c
    if x.st != .free && x.timeoutMs != 0 && x.fault.isNone && !x.cancelled then
      (s.ctxFault t c ⟨F_TIMEOUT, 0xFFFFFFFF, 0, 0, 6⟩ false).coreNext t (coreOf c)
    else s

/-! ### Ring entries (R359 to R375, R419 to R421) -/

/-- The conditions of R364 on a ring, but for the context; only a running partition's rings start entries
(R938). -/
def State.ringCan (s : State) (t r : Nat) : Bool :=
  let x := s.ring t r
  (s.tile t).inService && x.enable && (s.part x.partition).st == .running && x.head != x.tail &&
  decide (x.inProgress < x.maxrun) && decide ((x.ctail + BitVec.ofNat 32 x.inProgress - x.chead).toNat < 2 ^ x.csizeLog2)

/-- The address of a ring's next descriptor (R360). -/
def Ring.slotAddr (x : Ring) : Nat := x.base + x.head.toNat % 2 ^ x.sizeLog2 * 64

/-- A free context of a kind: on the core with the fewest occupied contexts, the lowest-numbered such core
on a tie (R366, R419). -/
def State.freeCtx (s : State) (t : Nat) (coll : Bool) : Option Nat :=
  let free := fun k => (coreCtxs k).filter fun c => decide (64 ≤ c) == coll && (s.ctx t c).st == .free
  let busy := fun k => ((coreCtxs k).filter fun c => (s.ctx t c).st != .free).length
  let cores := (List.range 8).filter fun k => free k != []
  let best := cores.foldl (fun b k => match b with
    | none => some k
    | some j => if busy k < busy j then some k else some j) none
  best.bind fun k => (free k).head?

/-- What the scheduler may do with a ring's next entry. -/
inductive StartKind where
  | start | queueColl | no
deriving DecidableEq, Repr

/-- A marker waits for the ring's other entries; a program needs a context of its kind; a collective entry
with none free joins the FIFO, and later entries of its ring wait behind it (R364, R368, R420). -/
def State.startKind (s : State) (t r : Nat) : StartKind :=
  if !(s.ringCan t r) then .no
  else
    let x := s.ring t r
    let w0 := s.peekN x.slotAddr 8
    let coll := bitN w0 11
    let inFifo := (s.tile t).collFifo.contains r
    if w0 % 256 = 0 then (if x.inProgress = 0 then .start else .no)
    else if w0 % 256 ≠ 1 then .start
    else if coll then
      if (s.tile t).collFifo.head? == some r || ((s.tile t).collFifo == [] && !inFifo) then
        if (s.freeCtx t true).isSome then .start else if inFifo then .no else .queueColl
      else if inFifo then .no else .queueColl
    else if (s.freeCtx t false).isSome then .start else .no

/-- Rings of a priority that the scheduler may serve. -/
def State.readyRings (s : State) (t prio : Nat) : List Nat :=
  (s.tile t).rings.filterMap fun r => if r.2.priority == prio && s.startKind t r.1 != .no then some r.1 else none

/-- The weight of a priority (R365). -/
def prioWeight (p : Nat) : Nat := 2 ^ p

/-- The next ring to serve: the highest priority with starts left in this weighted round, a new round when
none has; within it round-robin by ring number (R365). Returns the tile with its credits taken. -/
def State.pickRing (s : State) (t : Nat) : Option (Nat × State) :=
  let ready := [3, 2, 1, 0].filter fun p => s.readyRings t p != []
  match ready with
  | [] => none
  | top :: _ =>
    let cred := fun p => Tbl.get (prioWeight p) (s.tile t).credits p
    let (p, s) := match ready.find? fun p => decide (0 < cred p) with
      | some p => (p, s)
      | none => (top, s.modTile t fun x => { x with credits := [] })
    let last := Tbl.get 0 (s.tile t).lastRing p
    let rs := s.readyRings t p
    let left := Tbl.get (prioWeight p) (s.tile t).credits p
    (((rs.find? fun r => decide (last < r)).or rs.head?).map fun r =>
      (r, s.modTile t fun x => { x with credits := Tbl.set x.credits p (left - 1), lastRing := Tbl.set x.lastRing p r }))

/-- The checks of a descriptor, in the order of R404: reserved fields and a running (GROUP, GSEQ) pair,
alignment, PROG and CTR, the group, and a failure mark (R369, R421, R698, R734). A marker runs no program,
so its PROG is not checked. -/
def State.descCheck (s : State) (t p : Nat) (w : Nat → Nat) : Option (Nat × Nat) :=
  let ty := w 0 % 256
  let coll := bitN (w 0) 11
  let prog := w 1 % 2 ^ 48
  let inc := w 2 / 2 ^ 32
  let ctr := w 2 % 2 ^ 17
  let group := w 3 / 2 ^ 48
  let gseq := field (w 3) 47 16
  let grp := (s.tile t).groups.find? fun g => g.2.group == group
  if 1 < ty || field (w 0) 31 12 != 0 || field (w 0) 10 9 != 0 || w 1 / 2 ^ 48 != 0 || w 3 % 65536 != 0 ||
      (!coll && w 3 / 65536 != 0) then some (F_RSVD, 0)
  else if ty = 1 ∧ coll ∧ (s.ctxsOf t fun x => x.coll && x.group == group && x.gseq == gseq) ≠ [] then some (F_RSVD, group)
  else if ty = 1 ∧ prog % 16 ≠ 0 then some (F_ALIGN, prog)
  else if ty = 1 ∧ !(s.inProgRange t p prog 16) then some (F_BOUNDS, prog)
  else if inc ≠ 0 ∧ !(s.ownsCtr p ctr) then some (F_BOUNDS, ctr)
  else if ty = 1 ∧ coll then
    match grp with
    | none => some (F_BOUNDS, group)
    | some g =>
      if g.2.partition ≠ p then some (F_BOUNDS, group)
      else if (s.tile t).failMarks.contains (markKey group (s.collSlot t group gseq)) then some (F_ABORT, 5)
      else none
  else none

/-- The slot of a collective instance is held by an earlier one (R697). -/
def State.slotHeld (s : State) (t c group gseq : Nat) : Bool :=
  (s.ctxsOf t fun x => x.coll && x.group == group && s.collSlot t group x.gseq == s.collSlot t group gseq && x.wait != .slot).any (· != c)

/-- An entry that takes no context ends at once: a marker OK, a rejected descriptor FAILED (R368, R369). -/
def State.endNoCtx (s : State) (t r index status : Nat) (w : Nat → Nat) (f : FaultRec) : State :=
  let s := if status = 0 ∧ w 2 / 2 ^ 32 ≠ 0 then s.ctrAdd (w 2 % 2 ^ 17) (BitVec.ofNat 64 (w 2 / 2 ^ 32)) else s
  let (ret, s) := s.fresh 32
  let s := if status ≠ 0 ∨ bitN (w 0) 8 then s.writeRecord t r (w 0 / 2 ^ 32) index status f 0 0 ret.toNat else s
  let s := s.countEntry t r status
  if status ≠ 0 ∧ bitN (w 0) 11 then
    s.modTile t fun y => { y with failMarks := natInsert y.failMarks (markKey (w 3 / 2 ^ 48) (s.collSlot t (w 3 / 2 ^ 48) (field (w 3) 47 16))) }
  else s

/-- Start the next entry of ring r (R366): read the descriptor, advance HEAD, check it, set the registers
and place the context. The TAG of a descriptor that cannot be read is left open. -/
def State.startEntry (s : State) (t r : Nat) (mf : MemFaults) : State :=
  let x := s.ring t r
  let a := x.slotAddr
  let s := s.modRing t r fun y => { y with head := y.head + 1 }
  let s := (s.modTile t fun y => { y with collFifo := y.collFifo.filter (· != r) }).chargeHbm x.partition false a 64
  match s.load mf a 64 with
  | (.error g, s) =>
    let (tag, s) := s.fresh 32
    s.endNoCtx t r x.head.toNat 1 (fun i => if i = 0 then tag.toNat * 2 ^ 32 else 0) ⟨eccCode g, 0xFFFFFFFF, 0, a, 6⟩
  | (.ok bs, s) =>
    let w := fun i => leNat ((bs.drop (8 * i)).take 8)
    match s.descCheck t x.partition w with
    | some (code, info) => s.endNoCtx t r x.head.toNat 1 w ⟨code, 0xFFFFFFFF, 0, info, 6⟩
    | none =>
      if w 0 % 256 = 0 then let (f, s) := s.openRecord 0; s.endNoCtx t r x.head.toNat 0 w f
      else
        let coll := bitN (w 0) 11
        match s.freeCtx t coll with
        | none => s
        | some c =>
          let group := w 3 / 2 ^ 48
          let gseq := field (w 3) 47 16
          let g : Tbl W64 := [(1, BitVec.ofNat 64 (w 4)), (2, BitVec.ofNat 64 (w 5)), (3, BitVec.ofNat 64 (w 6)),
            (4, BitVec.ofNat 64 (w 7)), (5, BitVec.ofNat 64 (r * 2 ^ 32 + x.head.toNat))]
          let held := coll && s.slotHeld t c group gseq
          let s := s.modRing t r fun y => { y with inProgress := y.inProgress + 1 }
          (s.modCtx t c fun _ =>
            { Ctx.reset with st := if held then .waitCounter else .ready, wait := if held then .slot else .idle,
                             pc := BitVec.ofNat 64 (w 1 % 2 ^ 48), g := g, ring := r, index := x.head.toNat, tag := w 0 / 2 ^ 32,
                             crec := bitN (w 0) 8, prog := w 1 % 2 ^ 48, inc := w 2 / 2 ^ 32, ctr := w 2 % 2 ^ 17,
                             timeoutMs := field (w 2) 31 17, coll := coll, group := group, gseq := gseq,
                             partition := x.partition }).coreNext t (coreOf c)

/-- The scheduler starts one entry, or moves a collective one into the FIFO (R365, R420). -/
def execEntryStart (t : Fin 4) (mf : MemFaults) (s : State) : Out :=
  .next <| match s.pickRing t with
    | none => s
    | some (r, s') =>
      match s.startKind t r with
      | .start => s'.startEntry t r mf
      | .queueColl => s'.modTile t fun x => { x with collFifo := x.collFifo ++ [r] }
      | .no => s

/-- An instance that waited for its group slot proceeds (R697). -/
def execCollSlotRelease (t : Fin 4) (c : Fin 128) (s : State) : Out :=
  .next <|
    let x := s.ctx t c
    if x.wait == .slot && !(s.slotHeld t c x.group x.gseq) then s.wake t c id else s

/-- The last queue entry of an ending context has completed: the entry ends (R373, R413). A fault comes
before ABORT; an entry that was cancelled before any fault is CANCELLED. -/
def execEntryComplete (t : Fin 4) (c : Fin 128) (s : State) : Out :=
  .next <|
    let x := s.ctx t c
    if x.st != .ending || s.outstanding t c != 0 then s
    else
      let (ret, s) := if x.ended.isSome then ((greg x.g 1).toNat, s) else let (v, s') := s.fresh 32; (v.toNat, s')
      if x.cancelled then let (f, s) := s.openRecord F_CANCELLED; s.endEntry t c 3 f ret
      else match x.fault with
        | some f => s.endEntry t c (if x.unconfirmed then 2 else 1) f ret
        | none => match x.abort with
          | some info => s.endEntry t c 1 ⟨F_ABORT, x.ended.getD 0, 0, info, 6⟩ ret
          | none => let (f, s) := s.openRecord 0; s.endEntry t c 0 f ret

/-! ### Queue conditions (R271 to R278, R392) -/

/-- The head condition of queue q is met: it leaves the queue, and the held entry can issue. -/
def State.releaseCondition (s : State) (t q : Nat) (op : Nat → Bool) : State :=
  match (s.queue t q).waiting with
  | e :: rest =>
    if op (opc e.word) && isCondition e.word && (e.met || decide (condThr e ≤ s.ctr (condCtr e))) then
      s.modQueue t q fun x => { x with waiting := rest }
    else s
  | [] => s

/-- The head condition's timeout expires: the program stops with F_TIMEOUT, and the held entry is not
performed (R278, R418). -/
def State.timeoutCondition (s : State) (t q : Nat) (op : Nat → Bool) : State :=
  match (s.queue t q).waiting with
  | e :: rest =>
    if op (opc e.word) && isCondition e.word && !e.met && decide (condTout e ≠ 0) && !(decide (condThr e ≤ s.ctr (condCtr e))) then
      ((s.modQueue t q fun x => { x with waiting := rest }).ctxFault t e.ctx ⟨F_TIMEOUT, e.pcOff, 0, condCtr e, q⟩ false).coreNext t (coreOf e.ctx)
    else s
  | [] => s

/-- An SQWAIT threshold is met and the held entry starts (R392). -/
def execSqwaitRelease (t : Fin 4) (q : Fin 16) (s : State) : Out := .next (s.releaseCondition t q (· == 0x11))

/-- An SQWAIT timeout expires (R278). -/
def execSqwaitTimeout (t : Fin 4) (q : Fin 16) (s : State) : Out := .next (s.timeoutCondition t q (· == 0x11))

end Sys2Proof.Machine
end

