-- ==== Sys2Proof/Machine/Numbers.lean ====
section
/-!
DEFINITION. The number formats of spec/02_number_formats.md: exact values, decoding, rounding, the IEEE operations,
integer conversion and the microscaling encoder and decoder (R61 to R98). Every element is handled as its bit pattern,
a natural number below 2 ^ width.
-/
namespace Sys2Proof.Machine

/-- The rounding modes of R80. -/
inductive RMode where
  | rne | rtz | rdn | rup | rmm
  deriving DecidableEq, Repr

/-- The exception record of R81, with the integer overflow of R68. -/
structure FFlags where
  nv  : Bool := false
  dz  : Bool := false
  of  : Bool := false
  uf  : Bool := false
  nx  : Bool := false
  iov : Bool := false
  deriving DecidableEq, Repr

/-- No exception. -/
def FFlags.none : FFlags := FFlags.mk false false false false false false

/-- Sticky union of two exception records. -/
def FFlags.or (a b : FFlags) : FFlags :=
  ⟨a.nv || b.nv, a.dz || b.dz, a.of || b.of, a.uf || b.uf, a.nx || b.nx, a.iov || b.iov⟩

/-- An invalid operation alone. -/
def FFlags.invalid : FFlags := { FFlags.none with nv := true }

/-- The value an element code stands for: a NaN (signalling or not), a signed infinity, or the number
(-1)^neg * m * 2^e, which keeps the sign of a zero. -/
inductive FVal where
  | nan (signalling : Bool)
  | inf (neg : Bool)
  | num (neg : Bool) (m : Nat) (e : Int)
  deriving DecidableEq, Repr

/-- A floating-point layout: total width, precision p, exponent bias and the code of the largest finite magnitude
(R63, R71). `hasInf` says that the code above the largest finite one is infinity. -/
structure FLayout where
  width   : Nat
  p       : Nat
  bias    : Nat
  maxCode : Nat
  hasInf  : Bool
  deriving DecidableEq, Repr

def fp64 : FLayout := ⟨64, 53, 1023, 0x7FEFFFFFFFFFFFFF, true⟩
def fp32 : FLayout := ⟨32, 24, 127, 0x7F7FFFFF, true⟩
def fp16 : FLayout := ⟨16, 11, 15, 0x7BFF, true⟩
def bf16 : FLayout := ⟨16, 8, 127, 0x7F7F, true⟩
def e4m3 : FLayout := ⟨8, 4, 7, 0x7E, false⟩
def e5m2 : FLayout := ⟨8, 3, 15, 0x7B, true⟩
def e3m2 : FLayout := ⟨6, 3, 3, 0x1F, false⟩
def e2m3 : FLayout := ⟨6, 4, 1, 0x1F, false⟩
def e2m1 : FLayout := ⟨4, 2, 1, 0x7, false⟩

/-- The formats named by the 4-bit format code (R61). -/
inductive Fmt where
  | fp64 | fp32 | fp16 | bf16 | e4m3 | e5m2 | e3m2 | e2m3 | e2m1 | mxint8 | int8 | int32
  deriving DecidableEq, Repr

/-- The format a code names; codes 0xC to 0xF are reserved (R61). -/
def Fmt.ofCode : Nat → Option Fmt
  | 0x0 => some .fp64 | 0x1 => some .fp32 | 0x2 => some .fp16 | 0x3 => some .bf16
  | 0x4 => some .e4m3 | 0x5 => some .e5m2 | 0x6 => some .e3m2 | 0x7 => some .e2m3
  | 0x8 => some .e2m1 | 0x9 => some .mxint8 | 0xA => some .int8 | 0xB => some .int32
  | _ => none

/-- The 4-bit code of a format (R61). -/
def Fmt.code : Fmt → Nat
  | .fp64 => 0 | .fp32 => 1 | .fp16 => 2 | .bf16 => 3 | .e4m3 => 4 | .e5m2 => 5 | .e3m2 => 6 | .e2m3 => 7
  | .e2m1 => 8 | .mxint8 => 9 | .int8 => 10 | .int32 => 11

/-- Element width in bits (R61). -/
def Fmt.bits : Fmt → Nat
  | .fp64 => 64 | .fp32 => 32 | .fp16 => 16 | .bf16 => 16 | .e4m3 => 8 | .e5m2 => 8 | .e3m2 => 6 | .e2m3 => 6
  | .e2m1 => 4 | .mxint8 => 8 | .int8 => 8 | .int32 => 32

/-- Whether the format shares a scale between 32 elements (R61). -/
def Fmt.isMx : Fmt → Bool
  | .e4m3 => true | .e5m2 => true | .e3m2 => true | .e2m3 => true | .e2m1 => true | .mxint8 => true
  | .fp64 => false | .fp32 => false | .fp16 => false | .bf16 => false | .int8 => false | .int32 => false

/-- Whether the format is one of the four IEEE layouts (R63). -/
def Fmt.isIeee : Fmt → Bool
  | .fp64 => true | .fp32 => true | .fp16 => true | .bf16 => true
  | .e4m3 => false | .e5m2 => false | .e3m2 => false | .e2m3 => false | .e2m1 => false | .mxint8 => false
  | .int8 => false | .int32 => false

/-- The floating-point layout of a format, none for the integer-coded ones. -/
def Fmt.layout? : Fmt → Option FLayout
  | .fp64 => some Machine.fp64 | .fp32 => some Machine.fp32 | .fp16 => some Machine.fp16 | .bf16 => some Machine.bf16
  | .e4m3 => some Machine.e4m3 | .e5m2 => some Machine.e5m2 | .e3m2 => some Machine.e3m2 | .e2m3 => some Machine.e2m3
  | .e2m1 => some Machine.e2m1 | .mxint8 => none | .int8 => none | .int32 => none

/-- emax of an MX element format (R71). -/
def Fmt.emax : Fmt → Int
  | .e4m3 => 8 | .e5m2 => 15 | .e3m2 => 4 | .e2m3 => 2 | .e2m1 => 2 | .mxint8 => 0
  | .fp64 => 1023 | .fp32 => 127 | .fp16 => 15 | .bf16 => 127 | .int8 => 0 | .int32 => 0

/-- Two's-complement reading of a w-bit pattern. -/
def toSigned (w x : Nat) : Int := if x % 2 ^ w < 2 ^ (w - 1) then (x % 2 ^ w : Nat) else ((x % 2 ^ w : Nat) : Int) - 2 ^ w

/-- Two's-complement pattern of an integer, wrapped to w bits. -/
def ofSigned (w : Nat) (i : Int) : Nat := (i % (2 ^ w : Int)).toNat

/-- An integer as an exact value. -/
def FVal.ofInt (i : Int) (e : Int) : FVal := .num (decide (i < 0)) i.natAbs e

/-- Exponent of the least significant place of the subnormals of a layout. -/
def FLayout.lmin (f : FLayout) : Int := 2 - (f.bias : Int) - (f.p : Int)

/-- The canonical NaN code of a layout (R64): for the formats without a NaN code, which no rule asks for, the code above
the largest one. -/
def FLayout.nanCode (f : FLayout) : Nat :=
  if f.width = 8 then (if f.p = 4 then 0x7F else 0x7E) else f.maxCode + 1 + 2 ^ (f.p - 2)

/-- The value of an element code in a floating-point layout (R63, R71, R1106). -/
def FLayout.decode (f : FLayout) (x : Nat) : FVal :=
  let neg := decide (x / 2 ^ (f.width - 1) % 2 = 1)
  let mag := x % 2 ^ (f.width - 1)
  if f.maxCode < mag then
    if f.hasInf then
      if mag = f.maxCode + 1 then .inf neg
      else .nan (if f.width = 8 then false else decide ((mag - (f.maxCode + 1)) / 2 ^ (f.p - 2) % 2 = 0))
    else .nan false
  else
    let ef := mag / 2 ^ (f.p - 1)
    let fr := mag % 2 ^ (f.p - 1)
    if ef = 0 then .num neg fr f.lmin else .num neg (2 ^ (f.p - 1) + fr) (f.lmin + (ef : Int) - 1)

/-- Sign bit of a layout placed above a magnitude code. -/
def FLayout.withSign (f : FLayout) (neg : Bool) (mag : Nat) : Nat := if neg then 2 ^ (f.width - 1) + mag else mag

/-- Rounding of m / 2^s to an integer in a mode, with whether the result is inexact. -/
def roundShift (rm : RMode) (neg : Bool) (m s : Nat) : Nat × Bool :=
  let q := m / 2 ^ s
  let r := m % 2 ^ s
  let up : Bool := match rm with
    | .rne => decide (2 ^ s < 2 * r) || (decide (2 * r = 2 ^ s) && decide (q % 2 = 1))
    | .rmm => decide (0 < r) && decide (2 ^ s ≤ 2 * r)
    | .rtz => false
    | .rdn => neg && decide (0 < r)
    | .rup => !neg && decide (0 < r)
  (if up then q + 1 else q, decide (0 < r))

/-- Rounding of m * 2^e to a multiple of 2^le. -/
def roundAt (rm : RMode) (neg : Bool) (m : Nat) (e le : Int) : Nat × Bool :=
  if le ≤ e then (m * 2 ^ (e - le).toNat, false) else roundShift rm neg m (le - e).toNat

/-- Number of significant bits. -/
def bitLen (m : Nat) : Nat := if m = 0 then 0 else Nat.log2 m + 1

/-- floor(log2 (m * 2^e)) for m > 0. -/
def expOf (m : Nat) (e : Int) : Int := e + (bitLen m : Int) - 1

/-- The magnitude code, without an upper limit, of m * 2^e rounded in a layout; whether it is inexact; whether the value
rounded with an unbounded exponent lies below the smallest normal (R66, R78). -/
def FLayout.roundMag (f : FLayout) (rm : RMode) (neg : Bool) (m : Nat) (e : Int) : Nat × Bool × Bool :=
  if m = 0 then (0, false, false)
  else
    let top := expOf m e
    let lnorm := top - (f.p : Int) + 1
    let le := max lnorm f.lmin
    let r := roundAt rm neg m e le
    let code := (le - f.lmin).toNat * 2 ^ (f.p - 1) + r.1
    let u := roundAt rm neg m e lnorm
    let tiny := decide (lnorm < f.lmin) && !(decide (lnorm + 1 = f.lmin) && decide (u.1 = 2 ^ f.p))
    (code, r.2, tiny)

/-- What an overflowing finite value becomes (R76 to R78). -/
inductive OvfRule where
  | ieee        -- the IEEE result for the rounding mode
  | saturate    -- the largest finite magnitude
  | nanOrInf    -- the E4M3 NaN code or the E5M2 infinity
  deriving DecidableEq, Repr

/-- Whether a rounding mode takes an overflowing magnitude to infinity. -/
def RMode.overflowsToInf (rm : RMode) (neg : Bool) : Bool :=
  match rm with
  | .rne => true | .rmm => true | .rtz => false | .rdn => neg | .rup => !neg

/-- The code written for an overflowing finite value. -/
def FLayout.ovfCode (f : FLayout) (rm : RMode) (rule : OvfRule) (neg : Bool) : Nat :=
  match rule with
  | .ieee => f.withSign neg (if rm.overflowsToInf neg then f.maxCode + 1 else f.maxCode)
  | .saturate => f.withSign neg f.maxCode
  | .nanOrInf => f.withSign neg (if rm = .rtz then f.maxCode else f.maxCode + 1)

/-- One rounding of a value into a layout, with its flags (R66, R78, R83, R87, R88, R92). A signalling NaN raises NV. -/
def FLayout.round (f : FLayout) (rm : RMode) (rule : OvfRule) (v : FVal) : Nat × FFlags :=
  match v with
  | .nan sg => (f.nanCode, { FFlags.none with nv := sg })
  | .inf neg =>
    match rule with
    | .ieee => (f.withSign neg (f.maxCode + 1), FFlags.none)
    | .saturate => (f.withSign neg f.maxCode, { FFlags.none with of := true, nx := true })
    | .nanOrInf =>
      (f.withSign neg (f.maxCode + 1),
        if f.hasInf then FFlags.none else { FFlags.none with of := true, nx := true })
  | .num neg m e =>
    let r := f.roundMag rm neg m e
    if f.maxCode < r.1 then (f.ovfCode rm rule neg, { FFlags.none with of := true, nx := true })
    else (f.withSign neg r.1, { FFlags.none with uf := r.2.2 && r.2.1, nx := r.2.1 })

/-- IEEE rounding of a value into a layout. -/
def FLayout.rnd (f : FLayout) (rm : RMode) (v : FVal) : Nat × FFlags := f.round rm .ieee v

/-- Whether a value is a NaN. -/
def FVal.isNan : FVal → Bool
  | .nan _ => true | .inf _ => false | .num _ _ _ => false

/-- Whether a value is a signalling NaN. -/
def FVal.isSig : FVal → Bool
  | .nan s => s | .inf _ => false | .num _ _ _ => false

/-- Whether a value is a zero of either sign. -/
def FVal.isZero : FVal → Bool
  | .num _ m _ => decide (m = 0) | .nan _ => false | .inf _ => false

/-- Whether a value is finite. -/
def FVal.isFinite : FVal → Bool
  | .num _ _ _ => true | .nan _ => false | .inf _ => false

/-- Sign of a value; a NaN counts as positive (R64). -/
def FVal.sign : FVal → Bool
  | .num n _ _ => n | .inf n => n | .nan _ => false

/-- Negation, which leaves a NaN as it is. -/
def FVal.neg : FVal → FVal
  | .nan s => .nan s | .inf n => .inf (!n) | .num n m e => .num (!n) m e

/-- A signed integer multiple of 2^e as a number with the sign of a zero given. -/
def FVal.ofSignedMag (i : Int) (e : Int) (zeroNeg : Bool) : FVal :=
  if i = 0 then .num zeroNeg 0 0 else .num (decide (i < 0)) i.natAbs e

/-- The signed integer of a number at a given exponent not above its own. -/
def scaledInt (neg : Bool) (m : Nat) (e le : Int) : Int :=
  let k : Int := ((m * 2 ^ (e - le).toNat : Nat) : Int)
  if neg then -k else k

/-- Exact product (R92, R93). The NaN of an invalid operation is marked so that rounding raises NV. -/
def FVal.mul (a b : FVal) : FVal :=
  match a, b with
  | .nan s, .nan t => .nan (s || t)
  | .nan s, _ => .nan s
  | _, .nan t => .nan t
  | .inf n, .inf k => .inf (n != k)
  | .inf n, .num k m _ => if m = 0 then .nan true else .inf (n != k)
  | .num n m _, .inf k => if m = 0 then .nan true else .inf (n != k)
  | .num n m e, .num k m' e' => .num (n != k) (m * m') (e + e')

/-- Exact sum (R92, R93, R96). The rounding mode only decides the sign of an exact zero. -/
def FVal.add (rm : RMode) (a b : FVal) : FVal :=
  match a, b with
  | .nan s, .nan t => .nan (s || t)
  | .nan s, _ => .nan s
  | _, .nan t => .nan t
  | .inf n, .inf k => if n = k then .inf n else .nan true
  | .inf n, .num _ _ _ => .inf n
  | .num _ _ _, .inf k => .inf k
  | .num n m e, .num k m' e' =>
    if m = 0 ∧ m' = 0 then .num (if n = k then n else decide (rm = .rdn)) 0 0
    else
      let le := min e e'
      FVal.ofSignedMag (scaledInt n m e le + scaledInt k m' e' le) le (decide (rm = .rdn))

/-- Fused multiply-add: the product is not rounded (R97). A NaN addend of an invalid product still counts as invalid
only when it is signalling or the product is invalid. -/
def FVal.fma (rm : RMode) (a b c : FVal) : FVal := FVal.add rm (FVal.mul a b) c

/-- Square-root helper: floor of the square root. -/
def isqrt (n : Nat) : Nat := Nat.sqrt n

/-- Quotient rounded into a layout (R93, R97). The quotient is carried to 2 * p + 3 bits and a sticky bit. -/
def FLayout.div (f : FLayout) (rm : RMode) (a b : FVal) : Nat × FFlags :=
  match a, b with
  | .nan s, .nan t => f.rnd rm (.nan (s || t))
  | .nan s, _ => f.rnd rm (.nan s)
  | _, .nan t => f.rnd rm (.nan t)
  | .inf _, .inf _ => f.rnd rm (.nan true)
  | .inf n, .num k _ _ => f.rnd rm (.inf (n != k))
  | .num n _ _, .inf k => f.rnd rm (.num (n != k) 0 0)
  | .num n m e, .num k m' e' =>
    if m' = 0 then
      if m = 0 then f.rnd rm (.nan true)
      else ((f.rnd rm (.inf (n != k))).1, { FFlags.none with dz := true })
    else
      let sh := bitLen m' + f.p + 3
      let q := m * 2 ^ sh / m'
      let r := m * 2 ^ sh % m'
      f.rnd rm (.num (n != k) (2 * q + (if r = 0 then 0 else 1)) (e - e' - (sh : Int) - 1))

/-- Square root rounded into a layout (R93, R97). -/
def FLayout.sqrt (f : FLayout) (rm : RMode) (a : FVal) : Nat × FFlags :=
  match a with
  | .nan s => f.rnd rm (.nan s)
  | .inf n => if n then f.rnd rm (.nan true) else f.rnd rm (.inf false)
  | .num n m e =>
    if m = 0 then f.rnd rm (.num n 0 0)
    else if n then f.rnd rm (.nan true)
    else
      let sh := 2 * f.p + 4 + (if (e % 2 = 0) then 0 else 1)
      let x := m * 2 ^ sh
      let r := isqrt x
      f.rnd rm (.num false (2 * r + (if r * r = x then 0 else 1)) ((e - (sh : Int)) / 2 - 1))

/-- Strict order of two values that are no NaN; zeros compare equal. -/
def FVal.lt (a b : FVal) : Bool :=
  match a, b with
  | .nan _, _ => false
  | _, .nan _ => false
  | .inf n, .inf k => n && !k
  | .inf n, .num _ _ _ => n
  | .num _ _ _, .inf k => !k
  | .num n m e, .num k m' e' =>
    let le := min e e'
    decide (scaledInt n m e le < scaledInt k m' e' le)

/-- Numeric equality of two values that are no NaN; the zeros are equal. -/
def FVal.eq (a b : FVal) : Bool := !a.isNan && !b.isNan && !FVal.lt a b && !FVal.lt b a

/-- Order that puts -0 below +0 (R94). -/
def FVal.ltTotal (a b : FVal) : Bool :=
  FVal.lt a b || (a.isZero && b.isZero && a.sign && !b.sign)

/-- maximumNumber and minimumNumber as codes with their flags (R94, R95). -/
def FLayout.maxMin (f : FLayout) (isMax : Bool) (x y : Nat) : Nat × FFlags :=
  let a := f.decode x
  let b := f.decode y
  let fl : FFlags := { FFlags.none with nv := a.isSig || b.isSig }
  if a.isNan && b.isNan then (f.nanCode, fl)
  else if a.isNan then (y, fl)
  else if b.isNan then (x, fl)
  else (if FVal.ltTotal a b then (if isMax then y else x) else (if isMax then x else y), fl)

/-- Conversion to a signed integer of w bits, saturating, with a NaN to the largest value (R69). -/
def FVal.toInt (w : Nat) (rm : RMode) (v : FVal) : Nat × FFlags :=
  let hi : Int := 2 ^ (w - 1) - 1
  let lo : Int := -(2 ^ (w - 1))
  match v with
  | .nan _ => (ofSigned w hi, FFlags.invalid)
  | .inf n => (ofSigned w (if n then lo else hi), FFlags.invalid)
  | .num n m e =>
    let r := roundAt rm n m e 0
    let i : Int := if n then -((r.1 : Nat) : Int) else ((r.1 : Nat) : Int)
    if hi < i then (ofSigned w hi, FFlags.invalid)
    else if i < lo then (ofSigned w lo, FFlags.invalid)
    else (ofSigned w i, { FFlags.none with nx := r.2 })

/-! ## Binary operations on codes -/

def FLayout.addC (f : FLayout) (rm : RMode) (x y : Nat) : Nat × FFlags :=
  f.rnd rm (FVal.add rm (f.decode x) (f.decode y))
def FLayout.subC (f : FLayout) (rm : RMode) (x y : Nat) : Nat × FFlags :=
  f.rnd rm (FVal.add rm (f.decode x) (f.decode y).neg)
def FLayout.mulC (f : FLayout) (rm : RMode) (x y : Nat) : Nat × FFlags :=
  f.rnd rm (FVal.mul (f.decode x) (f.decode y))
def FLayout.fmaC (f : FLayout) (rm : RMode) (x y z : Nat) : Nat × FFlags :=
  f.rnd rm (FVal.fma rm (f.decode x) (f.decode y) (f.decode z))
def FLayout.divC (f : FLayout) (rm : RMode) (x y : Nat) : Nat × FFlags :=
  f.div rm (f.decode x) (f.decode y)
def FLayout.sqrtC (f : FLayout) (rm : RMode) (x : Nat) : Nat × FFlags := f.sqrt rm (f.decode x)

/-! ## Microscaling -/

/-- Value of an E8M0 scale code, none for the NaN scale (R72). -/
def scaleExp (c : Nat) : Option Int := if c % 256 = 255 then none else some ((c % 256 : Nat) - 127 : Int)

/-- Value of an element code of any format, without a scale. -/
def Fmt.elemVal (f : Fmt) (x : Nat) : FVal :=
  match f.layout? with
  | some l => l.decode x
  | none =>
    match f with
    | .mxint8 => FVal.ofInt (toSigned 8 x) (-6)
    | .int8 => FVal.ofInt (toSigned 8 x) 0
    | _ => FVal.ofInt (toSigned 32 x) 0

/-- An element value under a block scale (R72, R73, R90): exact. -/
def FVal.scaled (v : FVal) (c : Nat) : FVal :=
  match scaleExp c with
  | none => .nan false
  | some k => match v with
    | .num n m e => .num n m (e + k)
    | .nan s => .nan s
    | .inf n => .inf n

/-- The value of an MX element under its block's scale code, or of a plain element (R73, R90). -/
def Fmt.value (f : Fmt) (scale x : Nat) : FVal := if f.isMx then (f.elemVal x).scaled scale else f.elemVal x

/-- Rounding and overflow rule of a conversion control for a target (R75 to R79); none for a reserved value or
combination. -/
def convControl (target : Fmt) (ctl : Nat) : Option (RMode × OvfRule) :=
  let dflt : OvfRule := if target.isMx then .saturate else .ieee
  let special := decide (target = .e4m3) || decide (target = .e5m2)
  match ctl with
  | 0 => some (.rne, dflt)
  | 1 => if special then some (.rne, .nanOrInf) else none
  | 2 => some (.rtz, dflt)
  | 3 => if special then some (.rtz, .nanOrInf) else none
  | _ => none

/-- Magnitudes of the finite non-zero values of a block, as their floor(log2). -/
def blockExps (vs : List FVal) : List Int :=
  vs.filterMap (fun v => match v with
    | .num _ m e => if m = 0 then none else some (expOf m e)
    | .nan _ => none
    | .inf _ => none)

/-- Scale code of a block before the NaN rule of R88 (R84, R85). -/
def blockScale (f : Fmt) (vs : List FVal) : Nat :=
  match blockExps vs with
  | [] => 0x7F
  | x :: xs =>
    let es := (xs.foldl max x) - f.emax
    ((max (-127) (min 127 es)) + 127).toNat

/-- One element of an MX block divided by the block's scale and rounded (R86, R87, R89). -/
def mxElem (f : Fmt) (rm : RMode) (rule : OvfRule) (es : Int) (v : FVal) : Nat × FFlags :=
  let q : FVal := match v with
    | .num n m e => .num n m (e - es)
    | .nan _ => .nan false
    | .inf n => .inf n
  match f.layout? with
  | some l =>
    let r := l.round rm rule q
    let z := !v.isZero && v.isFinite && decide (r.1 % 2 ^ (l.width - 1) = 0)
    (r.1, { r.2 with uf := r.2.uf || z })
  | none =>
    match q with
    | .nan _ => (0, FFlags.none)
    | .inf n => (ofSigned 8 (if n then -127 else 127), { FFlags.none with of := true, nx := true })
    | .num n m e =>
      let r := roundAt rm n m (e + 6) 0
      let fl : FFlags := { FFlags.none with nx := r.2, uf := decide (m ≠ 0) && decide (r.1 = 0) }
      if 127 < r.1 then (ofSigned 8 (if n then -127 else 127), { FFlags.none with of := true, nx := true })
      else (ofSigned 8 (if n then -(r.1 : Int) else (r.1 : Int)), fl)

/-- Whether a NaN of a source spoils the whole block (R88). -/
def Fmt.nanSpoilsBlock (f : Fmt) : Bool := !(decide (f = .e4m3) || decide (f = .e5m2))

/-- A block encoded to an MX format: the scale code, the element codes and the flags (R84 to R89). -/
def mxEncode (f : Fmt) (rm : RMode) (rule : OvfRule) (vs : List FVal) : Nat × List Nat × FFlags :=
  if f.nanSpoilsBlock && vs.any FVal.isNan then
    (0xFF, vs.map (fun _ => 0), { FFlags.none with nv := vs.any FVal.isSig })
  else
    let sc := blockScale f vs
    let rs := vs.map (mxElem f rm rule ((sc : Int) - 127))
    (sc, rs.map Prod.fst, { (rs.foldl (fun a r => a.or r.2) FFlags.none) with nv := vs.any FVal.isSig })

/-- Conversion of one value to a format without a shared scale (R69, R78, R107). -/
def convPlain (f : Fmt) (rm : RMode) (rule : OvfRule) (v : FVal) : Nat × FFlags :=
  match f.layout? with
  | some l => l.round rm rule v
  | none =>
    match f with
    | .int32 => v.toInt 32 rm
    | _ => v.toInt 8 rm

/-! ## The exact recipe of an array pass (R99 to R101) -/

/-- The exponent of the largest-magnitude term among numbers, none when all are zero. -/
def largestExp (ts : List FVal) : Option Int :=
  match blockExps ts with
  | [] => none
  | x :: xs => some (xs.foldl max x)

/-- A number truncated toward zero to a multiple of 2^le, as a signed integer of that unit. -/
def truncAt (le : Int) (v : FVal) : Int :=
  match v with
  | .num n m e =>
    let q : Nat := if le ≤ e then m * 2 ^ (e - le).toNat else m / 2 ^ (le - e).toNat
    if n then -(q : Int) else (q : Int)
  | .nan _ => 0
  | .inf _ => 0

/-- Truncation of a signed integer toward zero by 2^k. -/
def truncInt (i : Int) (k : Nat) : Int :=
  let q : Int := ((i.natAbs / 2 ^ k : Nat) : Int)
  if i < 0 then -q else q

/-- The sum of a pass's terms, the prior value among them, rounded once into FP32 (R100, R101, R98): a NaN, or
infinities of both signs, give the canonical NaN with NV; infinities of one sign give that infinity. The flags are the
array's NV and OF. -/
def passRound (terms : List FVal) : Nat × FFlags :=
  let pos := terms.any (fun t => decide (t = .inf false))
  let neg := terms.any (fun t => decide (t = .inf true))
  if terms.any FVal.isNan || (pos && neg) then (fp32.nanCode, FFlags.invalid)
  else if pos then (0x7F800000, FFlags.none)
  else if neg then (0xFF800000, FFlags.none)
  else match largestExp terms with
    | none => (0, FFlags.none)
    | some e =>
      let total := (terms.map (truncAt (e - 70))).foldl (· + ·) 0
      let part := truncInt total 10
      if part = 0 then (0, FFlags.none)
      else
        let r := fp32.rnd .rne (FVal.ofInt part (e - 60))
        (r.1, { FFlags.none with of := r.2.of })

/-- An INT8 pass: the INT32 accumulator takes the exact sum wrapped, IOV when it leaves the range (R68). -/
def passInt (prior : Nat) (prods : List Int) : Nat × FFlags :=
  let t : Int := toSigned 32 prior + prods.foldl (· + ·) 0
  (ofSigned 32 t, { FFlags.none with iov := decide (t < -(2 ^ 31)) || decide (2 ^ 31 ≤ t) })

end Sys2Proof.Machine
end

