-- ==== Sys2Proof/Machine/Views.lean ====
section
/-!
DEFINITION. Winnow views (R487 to R528): the descriptor, the window layout, and reads and writes through
a view.
-/
namespace Sys2Proof.Machine

open Sys2Proof

/-! ### The descriptor (R487) -/

def vw (d : List W64) (i : Nat) : Nat := (d.getD i 0).toNat
def vSrc (d : List W64) : Fmt := if vw d 0 % 16 = 0 then .fp64 else .fp32
def vTgt (d : List W64) : Fmt := (Fmt.ofCode (field (vw d 0) 7 4)).getD .fp32
def vTgtCode (d : List W64) : Nat := field (vw d 0) 7 4
def vFixed (d : List W64) : Nat := field (vw d 0) 15 8
def vConv (d : List W64) : Nat := field (vw d 0) 19 16
def vAxis (d : List W64) : Bool := bitN (vw d 0) 20
def vScaleMode (d : List W64) : Bool := bitN (vw d 0) 21
def vAccum (d : List W64) : Bool := bitN (vw d 0) 24
def vBase (d : List W64) : Nat := vw d 1 % 2 ^ 48
def vRstride (d : List W64) : Nat := vw d 2 % 2 ^ 40
def vRows (d : List W64) : Nat := vw d 3 / 2 ^ 32
def vRowLen (d : List W64) : Nat := vw d 3 % 2 ^ 32

/-- `n` rounded up to a multiple of `g`. -/
def roundUp (g n : Nat) : Nat := (n + g - 1) / g * g

/-- TSTRIDE of *Window layout* (R490). -/
def vTstride (d : List W64) : Nat :=
  let w := (vTgt d).bits
  if (vTgt d).isMx then
    if vAxis d then roundUp 256 (vRowLen d * w) / 8 else roundUp 32 ((vRowLen d + 31) / 32 * (4 * w))
  else roundUp 32 (vRowLen d * (w / 8))

/-- SSTRIDE of *Window layout* (R490). -/
def vSstride (d : List W64) : Nat :=
  if !(vTgt d).isMx then 0 else if vAxis d then vRowLen d else (vRowLen d + 31) / 32

/-- The sizes of the target region and of the scale region (R491). -/
def vTgtBytes (d : List W64) : Nat := vRows d * vTstride d
def vScaleBytes (d : List W64) : Nat :=
  if !(vTgt d).isMx then 0 else if vAxis d then (vRows d + 31) / 32 * vSstride d else vRows d * vSstride d

/-- A range of window offsets lies in the target region, or in the scale region (R493). -/
def vInTarget (d : List W64) (off n : Nat) : Bool := decide (off + n ≤ vTgtBytes d)
def vInScale (d : List W64) (off n : Nat) : Bool := decide (0xC0000000 ≤ off ∧ off + n ≤ 0xC0000000 + vScaleBytes d)

/-- A read of a view range by partition p is accepted (R493). -/
def State.viewReadOk (s : State) (p v off n : Nat) : Bool :=
  let d := s.view v
  viewOn d && viewOwner d == p && (vInTarget d off n || vInScale d off n)

/-- A write that is no epilogue's is accepted: target region of a non-MX view (R493, R512). -/
def State.viewWriteOk (s : State) (p v off n : Nat) : Bool :=
  let d := s.view v
  viewOn d && viewOwner d == p && !(vTgt d).isMx && vInTarget d off n

/-- A refusal sets REFUSED in the view block of the master's Tiller; which Tiller's block shows a refusal
of another master is not stated: Tiller 0's (DESIGN CHOICE, log entry 8). -/
def State.viewRefused (s : State) (t : Nat) : State := s.setFlag (lnWv t) 3

/-! ### Conversion -/

/-- A unit of conversion: an MX block, or one element of a non-MX view: (row or block row, block or
column). -/
abbrev VUnit := Nat × Nat

/-- The source elements of a unit, as (row, column); none where R492 gives a zero (R490). -/
def vElems (d : List W64) (u : VUnit) : List (Option (Nat × Nat)) :=
  if !(vTgt d).isMx then [if u.2 < vRowLen d then some u else none]
  else if vAxis d then (List.range 32).map fun k => if 32 * u.1 + k < vRows d then some (32 * u.1 + k, u.2) else none
  else (List.range 32).map fun k => if 32 * u.2 + k < vRowLen d then some (u.1, 32 * u.2 + k) else none

/-- The physical address of source element (r, i). -/
def vSrcAddr (d : List W64) (e : Nat × Nat) : Nat := vBase d + e.1 * vRstride d + e.2 * ((vSrc d).bits / 8)

/-- What a conversion gives: the scale code, the element codes, and the counts of its elements. -/
structure VConv where
  scale : Nat
  codes : List Nat
  sat : Nat
  nan : Nat
  uf : Nat
deriving DecidableEq, Repr

/-- A code is a NaN of the format. -/
def Fmt.codeNan (f : Fmt) (c : Nat) : Bool :=
  match f.layout? with
  | some l => (l.decode c).isNan
  | none => false

/-- A code is plus or minus the largest finite magnitude. -/
def Fmt.codeMax (f : Fmt) (c : Nat) : Bool :=
  match f.layout? with
  | some l => c % 2 ^ (l.width - 1) == l.maxCode
  | none => c == 127 || c == 129

/-- Convert the values of one unit (R495 to R497). An absent element is zero and counts nothing. -/
def vConvert (d : List W64) (vs : List (Option Nat)) : VConv :=
  let src := vSrc d
  let tgt := vTgt d
  let (rm, rule) := (convControl tgt (vConv d)).getD (.rne, .ieee)
  let val := fun (o : Option Nat) => match o with
    | some c => src.elemVal c
    | none => FVal.num false 0 0
  if tgt.isMx then
    let values := vs.map val
    let present := (vs.filter Option.isSome).length
    if tgt.nanSpoilsBlock && values.any FVal.isNan then ⟨0xFF, vs.map fun _ => 0, 0, present, 0⟩
    else
      let sc := if vScaleMode d then vFixed d else blockScale tgt values
      let rs := vs.map fun o => (o, mxElem tgt rm rule ((sc : Int) - 127) (val o))
      let cnt := fun (f : FVal → Nat × FFlags → Bool) => (rs.filter fun r => r.1.isSome && f (val r.1) r.2).length
      ⟨sc, rs.map fun r => r.2.1, cnt fun _ r => r.2.of && tgt.codeMax r.1, cnt fun _ r => tgt.codeNan r.1,
       cnt fun v r => v.isFinite && !v.isZero && r.1 % 2 ^ (tgt.bits - 1) == 0⟩
  else
    let rs := vs.map fun o => (o, match o with
      | some c => if src == tgt then c else (convPlain tgt rm rule (val o)).1
      | none => 0)
    let cnt := fun (f : FVal → Nat → Bool) => (rs.filter fun r => r.1.isSome && f (val r.1) r.2).length
    ⟨0x7F, rs.map (·.2), 0, cnt fun _ c => tgt.codeNan c, cnt fun v c => v.isFinite && !v.isZero && c % 2 ^ (tgt.bits - 1) == 0⟩

/-- Add to a view's counts on Tiller t, with the flags of R525. -/
def State.viewCount (s : State) (v t sat nan uf wovf wnan bytes : Nat) : State :=
  let s := s.modTile t fun x =>
    { x with viewCounts := Tbl.upd ViewCounts.zero x.viewCounts v fun c =>
        { sat := sat32 (c.sat + sat), nan := sat32 (c.nan + nan), uf := sat32 (c.uf + uf), wovf := sat32 (c.wovf + wovf),
          wnan := sat32 (c.wnan + wnan), srcBytes := c.srcBytes + bytes } }
  ((s.setFlagIf (decide (0 < sat)) (lnWv t) 0).setFlagIf (decide (0 < nan)) (lnWv t) 1).setFlagIf (decide (0 < wovf + wnan)) (lnWv t) 2

/-- The Tiller of the convert unit that performs a unit (R517). -/
def State.viewTiller (s : State) (pa : Nat) : Nat := ((s.stackOf pa).map fun k => k.1 / 2).getD 0

/-- Read the source values of elements, one after another; the first address that returns no data stops
the read (R499, R504). -/
def State.readElems (s : State) (mf : MemFaults) (n : Nat) : List (Option Nat) → (Except Nat (List (Option Nat))) × State
  | [] => (.ok [], s)
  | none :: rest => match State.readElems s mf n rest with
    | (.ok vs, s) => (.ok (none :: vs), s)
    | (.error g, s) => (.error g, s)
  | some a :: rest => match s.load mf a n with
    | (.error g, s) => (.error g, s)
    | (.ok bs, s) => match State.readElems s mf n rest with
      | (.ok vs, s) => (.ok (some (leNat bs) :: vs), s)
      | (.error g, s) => (.error g, s)

/-- The sectors of elements, each once. -/
def sectorsOf (as : List Nat) : List Nat := (as.map (alignDown 32)).dedup

/-- Charge a view's owner for the source elements that one access reads: each sector once, or each chunk in block mode
(R448, R499, R523). -/
def State.chargeViewRead (s : State) (p : Nat) (as : List Nat) : State :=
  let secs := sectorsOf as
  ((secs.map (· / 256)).dedup).foldl (fun s c => match s.stackOf (c * 256) with
    | some (k, _) => s.chargeStack k p (if ((s.stack k).reg p).blockMode then 256 else 32 * (secs.filter fun g => g / 256 == c).length)
    | none => s) s

/-- Charge a view's owner for the source elements of n bytes that one access writes: an accumulated or partly written
sector is merged, another written (R60, R448, R521, R523). -/
def State.chargeViewWrite (s : State) (p n : Nat) (accum : Bool) (as : List Nat) : State :=
  let secs := sectorsOf as
  let full := fun g => !accum && (as.filter fun a => alignDown 32 a == g).dedup.length * n == 32
  ((secs.map (· / 256)).dedup).foldl (fun s c => match s.stackOf (c * 256) with
    | some (k, _) =>
      let mine := secs.filter fun g => g / 256 == c
      let whole := (mine.filter full).length
      s.chargeStack k p (if ((s.stack k).reg p).blockMode then (if whole = 8 then 256 else 512) else 32 * whole + 64 * (mine.length - whole))
    | none => s) s

/-- Convert one unit of view v: one read of its source, and the counts (R499, R524). -/
def State.viewUnit (s : State) (mf : MemFaults) (v : Nat) (u : VUnit) : (Except Nat VConv) × State :=
  let d := s.view v
  let n := (vSrc d).bits / 8
  let addrs := (vElems d u).map fun o => o.map (vSrcAddr d)
  match s.readElems mf n addrs with
  | (.error g, s) => (.error g, s)
  | (.ok vs, s) =>
    let r := vConvert d vs
    let present := addrs.filterMap id
    (.ok r, s.viewCount v (s.viewTiller (present.headD 0)) r.sat r.nan r.uf 0 0 (present.length * n))

/-- The units that the byte at a window offset belongs to. -/
def vUnitsAt (d : List W64) (off : Nat) : List VUnit :=
  let w := (vTgt d).bits
  if 0xC0000000 ≤ off then
    let o := off - 0xC0000000
    [(o / vSstride d, o % vSstride d)]
  else
    let r := off / vTstride d
    let b := off % vTstride d
    if !(vTgt d).isMx then (if b / (w / 8) < vRowLen d then [(r, b / (w / 8))] else [])
    else if vAxis d then
      ((List.range ((8 * b + 7) / w + 1 - 8 * b / w)).map fun i => (r / 32, 8 * b / w + i)).filter fun u => decide (u.2 < vRowLen d)
    else if b / (4 * w) < (vRowLen d + 31) / 32 then [(r, b / (4 * w))] else []

/-- The byte at a window offset, from the units converted for the access (R490, R74). -/
def vByte (d : List W64) (got : List (VUnit × VConv)) (off : Nat) : Byte :=
  let w := (vTgt d).bits
  let unit := fun u => ((got.find? fun g => g.1 == u).map (·.2)).getD ⟨0x7F, [], 0, 0, 0⟩
  if 0xC0000000 ≤ off then BitVec.ofNat 8 ((vUnitsAt d off).map fun u => (unit u).scale).sum
  else
    let r := off / vTstride d
    let b := off % vTstride d
    if !(vTgt d).isMx then
      BitVec.ofNat 8 (((vUnitsAt d off).map fun u => (unit u).codes.getD 0 0).sum / 256 ^ (b % (w / 8)))
    else if vAxis d then
      BitVec.ofNat 8 (((vUnitsAt d off).map fun u => (unit u).codes.getD (r % 32) 0 * 2 ^ (w * u.2)).sum / 2 ^ (8 * b))
    else
      let codes := (vUnitsAt d off).flatMap fun u => (unit u).codes
      BitVec.ofNat 8 (((List.range codes.length).map fun k => codes.getD k 0 * 2 ^ (w * k)).sum / 256 ^ (b % (4 * w)))

/-- Convert units in order until one returns no data. -/
def State.viewUnits (s : State) (mf : MemFaults) (v : Nat) : List VUnit → List (VUnit × VConv) → (Option Nat) × List (VUnit × VConv) × State
  | [], got => (none, got, s)
  | u :: us, got => match s.viewUnit mf v u with
    | (.ok c, s) => State.viewUnits s mf v us (got ++ [(u, c)])
    | (.error g, s) => (some g, got, s)

/-- Convert the units that one access touches: the units converted, and the granule that returned no data, if any; the
access is charged to the view's owner (R500, R523). -/
def State.viewConvert (s : State) (mf : MemFaults) (v : Nat) (us : List VUnit) : (Option Nat) × List (VUnit × VConv) × State :=
  let d := s.view v
  let r := s.viewUnits mf v us []
  (r.1, r.2.1, r.2.2.chargeViewRead (viewOwner d) ((r.2.1.flatMap fun g => vElems d g.1).filterMap fun o => o.map (vSrcAddr d)))

/-- Read a range of a window: the bytes, or the granule that returned no data with the bytes before the
unit concerned (R503, R504). -/
def State.viewRead (s : State) (mf : MemFaults) (v off n : Nat) : (Option Nat) × List Byte × State :=
  let d := s.view v
  let offs := (List.range n).map (off + ·)
  let units := (offs.flatMap (vUnitsAt d)).dedup
  match s.viewConvert mf v units with
  | (none, got, s) => (none, offs.map (vByte d got), s)
  | (some g, got, s) =>
    let have_ := got.map (·.1)
    (some g, (offs.takeWhile fun o => (vUnitsAt d o).all have_.contains).map (vByte d got), s)

/-- Store one written element into its source: replaced, or added with one rounding (R507 to R511). -/
def State.viewStore (s : State) (mf : MemFaults) (v : Nat) (e : Nat × Nat) (x : FVal) : (Option Nat) × State :=
  let d := s.view v
  let n := (vSrc d).bits / 8
  let a := vSrcAddr d e
  let l := if vSrc d == .fp64 then fp64 else fp32
  let t := s.viewTiller a
  let finish := fun (s : State) (code : Nat) (ovf : Bool) =>
    match s.storeChecked mf a (leBytes n code) with
    | (some g, s) => (some g, s)
    | (none, s) =>
      let nan := (l.decode code).isNan
      (none, s.viewCount v t 0 0 0 (b2n ovf) (b2n nan) 0)
  if vAccum d then
    match s.load mf a n with
    | (.error g, s) => (some g, s)
    | (.ok bs, s) =>
      let r := l.rnd .rne (FVal.add .rne (l.decode (leNat bs)) x)
      finish s r.1 r.2.of
  else
    let r := l.rnd .rne x
    finish s r.1 (r.2.of || (match x with | .inf _ => vSrc d != .fp64 | _ => false))

/-- Write elements in order until one is not performed: how many were written. -/
def State.viewStores (s : State) (mf : MemFaults) (v : Nat) : List ((Nat × Nat) × FVal) → Nat → (Option Nat) × Nat × State
  | [], k => (none, k, s)
  | (e, x) :: rest, k => match s.viewStore mf v e x with
    | (none, s) => State.viewStores s mf v rest (k + 1)
    | (some g, s) => (some g, k, s)

/-- The charge of a write access through view v to some elements (R523). -/
def State.viewWriteCharge (s : State) (v : Nat) (els : List (Nat × Nat)) : State :=
  let d := s.view v
  s.chargeViewWrite (viewOwner d) ((vSrc d).bits / 8) (vAccum d) (els.map (vSrcAddr d))

/-- Write bytes to the target region of a non-MX view (R507, R514, R492): whole elements, decoded; bytes
beyond ROWLEN are ignored. The second result counts the elements written. -/
def State.viewWrite (s : State) (mf : MemFaults) (v off : Nat) (bs : List Byte) : (Option Nat) × Nat × State :=
  let d := s.view v
  let n := (vTgt d).bits / 8
  let els := (List.range (bs.length / n)).filterMap fun k =>
    let o := off + k * n
    let e := (o / vTstride d, o % vTstride d / n)
    if e.2 < vRowLen d then some (e, (vTgt d).elemVal (leNat ((bs.drop (k * n)).take n))) else none
  let r := s.viewStores mf v els 0
  (r.1, r.2.1, r.2.2.viewWriteCharge v ((els.take r.2.1).map (·.1)))

/-- Write one MX block with its scale (R512, R515, R516): elements that R492 places outside are ignored. The epilogue that
writes charges its blocks together. -/
def State.viewWriteBlock (s : State) (mf : MemFaults) (v : Nat) (u : VUnit) (scale : Nat) (codes : List Nat) : (Option Nat) × State :=
  let d := s.view v
  let els := ((vElems d u).zip codes).filterMap fun p => p.1.map fun e => (e, (vTgt d).value scale p.2)
  let r := s.viewStores mf v els 0
  (r.1, r.2.2)

end Sys2Proof.Machine
end

