-- ==== Sys2Proof/Machine/Local.lean ====
section
/-!
DEFINITION. What the engines share: taking an entry from a queue, completing and failing it (R353, R402,
R413), the checks at issue in the order of R404, and reads and writes at local addresses (R378, R409).
-/
namespace Sys2Proof.Machine

open Sys2Proof

/-! ### Entries -/

/-- The head of a queue, where its opcode is one of `is`, with the queue's rest. -/
def State.popHead (s : State) (t code : Nat) (is : Nat → Bool) : Option (QEntry × State) :=
  match (s.queue t code).waiting with
  | e :: rest => if is (opc e.word) && !isCondition e.word then some (e, s.modQueue t code fun q => { q with waiting := rest }) else none
  | [] => none

/-- The partition of an entry's context. -/
def State.partOf (s : State) (t : Nat) (e : QEntry) : Nat := (s.ctx t e.ctx).partition

/-- The addition of a completed entry's INC (R402). -/
def State.addInc (s : State) (e : QEntry) : State :=
  match ctrOf e.word with
  | some (n, ri) => if ri = 0 then s else s.ctrAdd n (greg e.g ri)
  | none => s

/-- An entry is issued and in progress. -/
def State.activate (s : State) (t code : Nat) (e : QEntry) : State :=
  s.modQueue t code fun q => { q with active := q.active ++ [e] }

/-- An entry leaves the engine. -/
def State.retire (s : State) (t code id : Nat) : State :=
  s.modQueue t code fun q => { q with active := q.active.filter fun e => e.id != id }

/-- The oldest entry in progress of a queue completes: its writes are visible and its INC is added. -/
def State.completeFirst (s : State) (t code : Nat) (is : Nat → Bool) : State :=
  match (s.queue t code).active.find? fun e => is (opc e.word) with
  | some e => (s.retire t code e.id).addInc e
  | none => s

/-- An entry fails: it leaves the engine and stops its context (R413). -/
def State.failEntry (s : State) (t code : Nat) (e : QEntry) (fault done info : Nat) (unconfirmed : Bool) : State :=
  (((s.retire t code e.id).ctxFault t e.ctx ⟨fault, e.pcOff, done, info % 2 ^ 64, code⟩ unconfirmed)).coreNext t (coreOf e.ctx)

/-- A check at issue: a fault code and the value it reports. -/
abbrev Check := Option (Nat × Nat)

/-- The place of a code in the order of R404. -/
def checkRank (code : Nat) : Nat :=
  match [0x0D, 0x0C, 0x0B, 0x01, 0x02, 0x03, 0x04, 0x08, 0x09, 0x0A, 0x06, 0x05, 0x11, 0x12, 0x10].findIdx? (· == code) with
  | some i => i
  | none => 15

/-- The first of several failed checks in the order of R404; among checks of one code, the first given. -/
def firstCheck (cs : List Check) : Check :=
  (cs.filterMap id).foldl (fun (b : Check) c => match b with
    | none => some c
    | some x => if checkRank c.1 < checkRank x.1 then some c else some x) none

/-- Fail with `code` where `c` holds. -/
def failIf (c : Bool) (code info : Nat) : Check := if c then some (code, info) else none

/-- The check of an entry's completion counter (R408). -/
def State.incCheck (s : State) (p : Nat) (ctr ri : Nat) : Check := failIf (ri != 0 && !(s.ownsCtr p ctr)) F_BOUNDS ctr

/-! ### Local addresses (R378) -/

/-- What a local address names. -/
inductive LKind where
  | acm (a off : Nat)
  | hbm
  | view (v off : Nat)
  | spm (t : Nat)
  | bad
deriving DecidableEq, Repr

def localKind (a : Nat) : LKind :=
  if 2 ^ 63 ≤ a then (if field a 62 25 = 0 then .acm (field a 24 23) (a % 2 ^ 23) else .bad)
  else match regionOf a with
    | .hbm => .hbm
    | .view v off => .view v off
    | .spm t _ => .spm t
    | _ => .bad

/-- The memory key of a local address on Tiller t. -/
def localKey (t a : Nat) : Nat :=
  match localKind a with
  | .acm arr off => acmKey t arr off
  | _ => a

/-- The checks of a local range on Tiller t for partition p (R409, R31, R408, R493, R512, R514). -/
def State.localCheck (s : State) (t p : Nat) (write : Bool) (a n : Nat) : Check :=
  if n = 0 then none
  else match localKind a with
    | .bad => some (F_BOUNDS, a)
    | .acm arr off => failIf (!(bitN (s.part p).arrays (4 * t + arr)) || decide (2 ^ 23 < off + n)) F_BOUNDS a
    | .hbm => failIf (!(s.inPartHbm p a n)) F_BOUNDS a
    | .spm t' => failIf ((s.tile t').inService && !(s.inSpm t' a n)) F_BOUNDS a
    | .view v off =>
      let d := s.view v
      let es := (vTgt d).bits / 8
      if write then
        if decide (2 ^ 32 < off + n) || !(s.viewWriteOk p v off n) then some (F_BOUNDS, a)
        else failIf (decide (off % es ≠ 0 ∨ n % es ≠ 0)) F_ALIGN a
      else failIf (decide (2 ^ 32 < off + n) || !(s.viewReadOk p v off n)) F_BOUNDS a

/-- A refused view access sets its flag (R493). -/
def State.noteRefusal (s : State) (t : Nat) (c : Nat × Nat) : State :=
  match localKind c.2 with
  | .view _ _ => if c.1 = F_BOUNDS then s.viewRefused t else s
  | _ => s

/-- The range lies in the scratchpad of a Tiller whose islands do not serve it (R47, R993). -/
def State.islandOut (s : State) (a n : Nat) : Bool :=
  match localKind a with
  | .spm t => n != 0 && !(s.tile t).inService
  | _ => false

/-- Read a local range: the code that stopped it, if any, and the bytes before it. -/
def State.localRead (s : State) (mf : MemFaults) (t p a n : Nat) : Option Nat × List Byte × State :=
  if s.islandOut a n then (some F_ISLAND, [], s)
  else match localKind a with
  | .view v off =>
    let r := s.viewRead mf v off n
    (r.1.map eccCode, r.2)
  | _ =>
    let k := localKey t a
    match s.readErr mf k n with
    | (some g, s) => (some (eccCode g), s.peek k (g - k), s.chargeHbm p false k (g - k))
    | (none, s) => (none, s.peek k n, s.chargeHbm p false k n)

/-- Write bytes at a local address: the code that stopped it, if any, and the bytes written
before it. -/
def State.localWrite (s : State) (mf : MemFaults) (t p a : Nat) (bs : List Byte) : Option Nat × Nat × State :=
  if s.islandOut a bs.length then (some F_ISLAND, 0, s)
  else match localKind a with
  | .view v off =>
    let r := s.viewWrite mf v off bs
    (r.1.map eccCode, r.2.1 * ((vTgt (s.view v)).bits / 8), r.2.2)
  | _ =>
    let k := localKey t a
    match s.mergeErr mf k bs.length with
    | (none, s) => (none, bs.length, (s.chargeHbm p true k bs.length).store k bs)
    | (some g, s) => (some (eccCode g), g - k, (s.chargeHbm p true k (g - k)).store k (bs.take (g - k)))

/-- Two byte ranges share a byte. -/
def rangesMeet (a n b m : Nat) : Bool := n != 0 && m != 0 && decide (a < b + m ∧ b < a + n)

/-- A range of this Tiller's scratchpad at an offset: in its banks (R31, R1004). -/
def State.spmRangeOk (s : State) (t : Nat) (off n : Nat) : Bool := n == 0 || decide (off + n ≤ s.spmBytes t)

end Sys2Proof.Machine
end

