-- ==== Sys2Proof/Machine/Copy.lean ====
section
/-!
DEFINITION. The copy engines' local copies (R356, R396 to R399).
-/
namespace Sys2Proof.Machine

open Sys2Proof

/-- Address of row r. -/
def rowAddr (base : Nat) (stride : Int) (r : Nat) : Int := base + r * stride

/-- An address that no register can hold fails its bounds. -/
def natAddr (i : Int) : Option Nat := if 0 ≤ i ∧ i < 2 ^ 64 then some i.toNat else none

/-- The check of one row's range. -/
def State.rowCheck (s : State) (t p : Nat) (write : Bool) (a : Int) (n : Nat) : Check :=
  match natAddr a with
  | some x => s.localCheck t p write x n
  | none => failIf (n != 0) F_BOUNDS (a % 2 ^ 64).toNat

/-- A row of a copy: its source (none for zeros or a pattern) and its destination. -/
structure CopyRow where
  src : Option Int
  dst : Int

/-- The checks of the rows of a copy (R409, R399). -/
def State.copyChecks (s : State) (t p : Nat) (rows : List CopyRow) (n : Nat) : List Check :=
  (rows.flatMap fun r => [match r.src with
    | some a => s.rowCheck t p false a n
    | none => none, s.rowCheck t p true r.dst n]) ++
  [match rows.find? fun d => rows.any fun r => match r.src with
      | some a => rangesMeet a.toNat n d.dst.toNat n
      | none => false with
    | some d => some (F_OVERLAP, d.dst.toNat)
    | none => none]

/-- Copy rows in order until one fails: complete rows, bytes written of the next, and the code. -/
def State.copyRows (s : State) (mf : MemFaults) (t p n : Nat) (fill : List Byte) : List CopyRow → Nat → (Option (Nat × Nat × Nat)) × State
  | [], _ => (none, s)
  | r :: rest, k =>
    let (e, bs, s) := match r.src with
      | some a => s.localRead mf t p a.toNat n
      | none => (none, fill, s)
    let (we, wn, s) := s.localWrite mf t p r.dst.toNat bs
    match we with
    | some c => (some (c, k, wn), s)
    | none => match e with
      | some c => (some (c, k, wn), s)
      | none => State.copyRows s mf t p n fill rest (k + 1)

/-- The bytes of a fill row (R397). -/
def fillBytes (x : W64) (n : Nat) : List Byte := (List.range n).map fun i => BitVec.ofNat 8 (x.toNat / 256 ^ (i % 8))

/-- Issue a local copy from copy queue q: after every earlier entry of its queue has completed (R356). -/
def State.localCopy (s : State) (t q : Nat) (mf : MemFaults) (op : Nat)
    (rowsOf : State → QEntry → FmtK → List CopyRow × List Check × State) (rsvd : FmtK → Bool) : State :=
  if (s.queue t (8 + q)).active ≠ [] then s
  else match s.popHead t (8 + q) (· == op) with
    | none => s
    | some (e, s) =>
      let k := fmtK e.word
      let p := s.partOf t e
      let (rows, extra, s) := rowsOf s e k
      match firstCheck ([failIf (k.rsvd != 0 || rsvd k) F_RSVD 0] ++ extra ++
          s.copyChecks t p rows k.len ++ [s.incCheck p k.ctr k.ri]) with
      | some (code, info) => (s.noteRefusal t (code, info)).failEntry t (8 + q) e code 0 info false
      | none => match s.copyRows mf t p k.len (fillBytes (if op = 0x21 then greg e.g k.rc else 0) k.len) rows 0 with
        | (none, s) => s.activate t (8 + q) e
        | (some (code, done, info), s) => s.failEntry t (8 + q) e code done info false

/-- CCOPY (R396). -/
def execCcopy (t : Fin 4) (q : Fin 8) (mf : MemFaults) (s : State) : Out :=
  .next <| s.localCopy t q mf 0x20
    (fun s e k => ((List.range k.rows).map fun r =>
      ⟨some (rowAddr (gaddr e.g k.ra) (gstride e.g k.rc) r), rowAddr (gaddr e.g k.rb) (gstride e.g k.rd) r⟩, [], s))
    (fun k => k.re != 0)

/-- CFILL (R397): a row's pattern, with no source. -/
def execCfill (t : Fin 4) (q : Fin 8) (mf : MemFaults) (s : State) : Out :=
  .next <| s.localCopy t q mf 0x21
    (fun s e k => ((List.range k.rows).map fun r => ⟨none, rowAddr (gaddr e.g k.rb) (gstride e.g k.rd) r⟩, [], s))
    (fun k => k.re != 0 || k.ra != 0)

/-- The index list of a gather, read at issue: each index, or the fault of its word (R398). -/
def State.readIndices (s : State) (mf : MemFaults) (t base : Nat) : Nat → Nat → List (Except Nat Nat) × State
  | _, 0 => ([], s)
  | i, n + 1 => match s.load mf (spmBase t + base + 4 * i) 4 with
    | (.ok bs, s) => let r := State.readIndices s mf t base (i + 1) n; (.ok (leNat bs) :: r.1, r.2)
    | (.error g, s) => let r := State.readIndices s mf t base (i + 1) n; (.error g :: r.1, r.2)

/-- CGATHER (R398). A row of zeros is a row without a source. -/
def execCgather (t : Fin 4) (q : Fin 8) (mf : MemFaults) (s : State) : Out :=
  .next <| s.localCopy t q mf 0x22
    (fun s e k =>
      let list := gaddr e.g k.re
      if k.len = 0 then ([], [], s)
      else if !(s.spmRangeOk t list (4 * k.rows)) then ([], [some (F_BOUNDS, list)], s)
      else
        let (ix, s) := s.readIndices mf t list 0 k.rows
        let checks := ix.map fun x => match x with
          | .error g => some (F_SPM_ECC, g - spmBase t)
          | .ok v => failIf (decide (0x80000000 ≤ v ∧ v ≠ 0xFFFFFFFF)) F_BOUNDS v
        ((ix.zipIdx).filterMap fun x => match x.1 with
          | .ok v => some ⟨if v = 0xFFFFFFFF then none else some (rowAddr (gaddr e.g k.ra) (gstride e.g k.rc) v),
              rowAddr (gaddr e.g k.rb) (gstride e.g k.rd) x.2⟩
          | .error _ => none, checks, s))
    (fun _ => false)

/-- A local copy completes (R402). -/
def execCopyDone (t : Fin 4) (q : Fin 8) (s : State) : Out := .next <| s.completeFirst t (8 + q) fun o => o / 16 == 2

end Sys2Proof.Machine
end

