-- ==== Sys2Proof/Machine/PortTx.lean ====
section
/-!
DEFINITION. The transmit side of a port's link layer (R738 to R761): which port serves a plane, DATA
frames with their credits and sequence numbers, and the frames a port sends.
-/
namespace Sys2Proof.Machine

open Sys2Proof

def State.port (s : State) (k : Nat) : Port := Tbl.get Port.reset s.optics.ports k
def State.modPort (s : State) (k : Nat) (f : Port → Port) : State :=
  { s with optics := { s.optics with ports := Tbl.upd Port.reset s.optics.ports k f } }

/-- Port k is a hall port (R738). -/
def State.hallPort (s : State) (k : Nat) : Bool := bitN s.optics.hallGroups (k / 4)

/-- The domain ports in ascending number: the k-th serves plane k (R740). -/
def State.domainPorts (s : State) : List Nat := (List.range 24).filter fun k => !(s.hallPort k)

/-- The port of a plane, and the plane of a domain port (R740). -/
def State.portOfPlane (s : State) (h : Nat) : Option Nat := s.domainPorts[h]?
def State.planeOfPort (s : State) (k : Nat) : Nat := if s.hallPort k then 0 else s.domainPorts.idxOf k

/-- The frame types of R750. -/
def frIdle : Nat := 0
def frData : Nat := 1
def frNak : Nat := 2
def frLanemap : Nat := 3
def frTrain : Nat := 4

/-- Send the frames that wait, in order within each virtual channel, while credits and the replay buffer
allow (R754, R757). -/
def Port.pump (p : Port) : List TxFrame → Bool → Bool → List TxFrame → Port × List TxFrame
  | [], _, _, sent => (p, sent)
  | f :: rest, stop0, stop1, sent =>
    let blocked := if f.vc = 0 then stop0 else stop1
    let credit := if f.vc = 0 then p.credit0 else p.credit1
    if !blocked && decide (0 < credit) && decide (p.unacked.length < 2047) then
      let g := { f with seq := p.nextSeq }
      let p := { p with nextSeq := (p.nextSeq + 1) % 4096, unacked := p.unacked ++ [g],
                        credit0 := if f.vc = 0 then p.credit0 - 1 else p.credit0,
                        credit1 := if f.vc = 0 then p.credit1 else p.credit1 - 1 }
      Port.pump p rest stop0 stop1 (sent ++ [g])
    else
      let p := { p with waiting := p.waiting ++ [f] }
      Port.pump p rest (stop0 || f.vc == 0) (stop1 || f.vc == 1) sent

/-- Pump a port's waiting frames. -/
def State.portPump (s : State) (k : Nat) : State :=
  let p := s.port k
  if p.st = 6 then
    let r := Port.pump { p with waiting := [] } p.waiting false false []
    r.2.foldl (fun s f => s.emit (.frame k frData f.seq)) (s.modPort k fun _ => r.1)
  else s

/-- Hand a piece or packet to a port. -/
def State.portSend (s : State) (k vc op piece : Nat) : State :=
  (s.modPort k fun p => { p with waiting := p.waiting ++ [⟨0, vc, op, piece⟩] }).portPump k

end Sys2Proof.Machine
end

