-- ==== Sys2Proof/Machine/Maint.lean ====
section
/-!
DEFINITION. The maintenance scheduler (R942 to R946): the resources of each activity, the conflict table,
tickets, and the ends of the activities that last.
-/
namespace Sys2Proof.Machine

open Sys2Proof

/-- The modules of a port's two sources: outputs 0 to 3 of the first, 4 to 7 of the second (R783). -/
def sourceA (k : Nat) : Nat := k % 6
def sourceB (k : Nat) : Nat := (k % 6 + 1 + k / 6) % 6

/-- The ports a module feeds. -/
def portsOf (m : Nat) : List Nat := (List.range 24).filter fun k => sourceA k == m || sourceB k == m

def State.laser (s : State) (m : Nat) : LaserModule := Tbl.get LaserModule.reset s.optics.modules m
def State.modLaser (s : State) (m : Nat) (f : LaserModule → LaserModule) : State :=
  { s with optics := { s.optics with modules := Tbl.upd LaserModule.reset s.optics.modules m f } }

/-- Retrainings of a port are deferred (R791). -/
def State.retrainDeferred (s : State) (k : Nat) : Bool := (s.laser (sourceA k)).evac || (s.laser (sourceB k)).evac

/-- A port is in a step of training (R766). -/
def Port.training (p : Port) : Bool := 3 ≤ p.st && p.st ≤ 5

/-- What an evacuation declares (R942). -/
def evacRes (m : Nat) : List Res := .module m :: (portsOf m).map Res.port

/-- Two declared resources overlap: an array lies in its Tiller. -/
def Res.meets (a b : Res) : Bool :=
  match a, b with
  | .array n, .tiller t => n / 4 == t
  | .tiller t, .array n => n / 4 == t
  | a, b => a == b

/-- The later of two activities that share a resource is deferred (R943). A retraining never defers an
evacuation, and retrainings merge. -/
def Activity.defers (running later : Activity) : Bool :=
  match running, later with
  | .repair, .repair | .repair, .hbmdiag | .hbmdiag, .repair | .hbmdiag, .hbmdiag => true
  | .hbmdiag, .huskrb | .huskrb, .hbmdiag => true
  | .evac, .retrain | .evac, .evac => true
  | .roles, .retrain | .roles, .evac | .retrain, .roles | .evac, .roles => true
  | .arrtest, .arrtest | .arrtest, .arrdiag | .arrdiag, .arrtest | .arrdiag, .arrdiag => true
  | .ucode, .arrtest | .ucode, .arrdiag | .arrtest, .ucode | .arrdiag, .ucode => true
  | .flash, .flash => true
  | _, _ => false

/-- Activities in progress, with their resources, that last longer than one command: repairs of failing
rows, trainings, evacuations, array tests and Husk write-backs. -/
def State.running (s : State) : List (Activity × List Res) :=
  ((List.range 8).filterMap fun k => if (s.stack k).failing.isEmpty then none else some (.repair, [.stack k])) ++
  ((List.range 24).filterMap fun k => if (s.port k).training then some (.retrain, [.port k]) else none) ++
  ((List.range 6).filterMap fun m => if (s.laser m).evac then some (.evac, evacRes m) else none) ++
  ((List.range 16).filterMap fun n => if (s.arr (n / 4) (n % 4)).repairing then some (.arrtest, [.array n]) else none) ++
  ((List.range 8).filterMap fun p => if 6 ≤ (s.husk p).st then some (.huskrb, [.partition p]) else none)

/-- An activity must wait: one in progress, or one that waits under a lower ticket than `before`, conflicts
with it (R943, R944). -/
def State.actBlocked (s : State) (act : Activity) (res : List Res) (before : Nat) : Bool :=
  let queued := s.sunas.tickets.filterMap fun t => if t.2.st == 0 && decide (t.1 < before) then some (t.2.act, t.2.res) else none
  (s.running ++ queued).any fun r => r.1.defers act && r.2.any fun a => res.any a.meets

/-- Activities that wait in the scheduler. -/
def State.queuedTickets (s : State) : Nat := (s.sunas.tickets.filter fun t => t.2.st == 0).length

/-- An evacuation of module m waits. -/
def State.evacQueued (s : State) (m : Nat) : Bool :=
  s.sunas.tickets.any fun t => t.2.st == 0 && t.2.act == .evac && t.2.res.contains (.module m)

/-- A new ticket: its number, and the state that holds it. -/
def State.newTicket (s : State) (t : Ticket) : Nat × State :=
  (s.sunas.nextTicket, s.modSunas fun u =>
    { u with tickets := Tbl.set u.tickets u.nextTicket t, nextTicket := u.nextTicket + 1 })

/-- A retraining ends when none of its ports trains or waits (R942). -/
def State.retrainsEnd (s : State) : State :=
  s.endTickets fun t => t.act == .retrain && t.res.all fun r => match r with
    | .port k => !(s.port k).training && !(s.port k).deferred
    | _ => true

/-- The evacuation of module m ends (R942). -/
def State.evacEnds (s : State) (m : Nat) : State := s.endTickets fun t => t.act == .evac && t.res.contains (.module m)

end Sys2Proof.Machine
end

