-- ==== Sys2Proof/Machine/CoreBase.lean ====
section
/-!
DEFINITION. What every application-core command shares: registers, the trap entry, the access fault and
the failed remote store (R558 to R566), and the completion of a load that waited for the domain. The
trap entry and the layout of the standard CSRs are those of the RISC-V architecture that R529 names
(PRESUMED, log entry 9).
-/
namespace Sys2Proof.Machine

open Sys2Proof

def State.core (s : State) (h : Nat) : Core := Tbl.get (Core.reset h) s.cores.core h
def State.modCore (s : State) (h : Nat) (f : Core → Core) : State :=
  { s with cores := { s.cores with core := Tbl.upd (Core.reset h) s.cores.core h f } }

/-- An x register: x0 reads 0 and ignores writes. -/
def Core.xr (c : Core) (n : Nat) : W64 := if n % 32 = 0 then 0 else Tbl.get 0 c.x (n % 32)
def Core.setX (c : Core) (n : Nat) (v : W64) : Core := if n % 32 = 0 then c else { c with x := Tbl.set c.x (n % 32) v }
def Core.fr (c : Core) (n : Nat) : W64 := Tbl.get 0 c.f (n % 32)
/-- A write to an f register makes FS dirty (3 in bits 14:13 of mstatus). -/
def Core.csrAt (c : Core) (n : Nat) : W64 := Tbl.get 0 c.csr n
def Core.setCsr (c : Core) (n : Nat) (v : W64) : Core := { c with csr := Tbl.set c.csr n v }
def Core.setF (c : Core) (n : Nat) (v : W64) : Core :=
  ({ c with f := Tbl.set c.f (n % 32) v }).setCsr 0x300 (c.csrAt 0x300 ||| 0x6000)
/-- A w, p or q register; a write to one makes VXS dirty (R566). p0 reads 0xFF and ignores writes (R570). -/
def Core.wr (c : Core) (n : Nat) : W64 := Tbl.get 0 c.w (n % 32)
def Core.setW (c : Core) (n : Nat) (v : W64) : Core := { c with w := Tbl.set c.w (n % 32) v, vxs := 3 }
def Core.pr (c : Core) (n : Nat) : BitVec 8 := if n % 8 = 0 then 0xFF else Tbl.get 0 c.p (n % 8)
def Core.setP (c : Core) (n : Nat) (v : BitVec 8) : Core :=
  if n % 8 = 0 then { c with vxs := 3 } else { c with p := Tbl.set c.p (n % 8) v, vxs := 3 }
def Core.qr (c : Core) (n : Nat) : W128 := Tbl.get 0 c.q (n % 32)
def Core.setQ (c : Core) (n : Nat) (v : W128) : Core := { c with q := Tbl.set c.q (n % 32) v, vxs := 3 }

/-- The core executes instructions: in service, and not waiting for the domain. -/
def Core.runs (c : Core) : Bool := c.st == 0 && c.wait == .none

/-- Bits of mstatus. -/
def withBit (v : W64) (i : Nat) (b : Bool) : W64 :=
  let m := BitVec.ofNat 64 (2 ^ i)
  if b then v ||| m else v &&& ~~~ m

/-- mstatus with its two-bit field MPP. -/
def withMpp (v : W64) (m : Mode) : W64 :=
  let code : Nat := match m with
    | .user => 0
    | .supervisor => 1
    | .machine => 3
  withBit (withBit v 11 (bitN code 0)) 12 (bitN code 1)

/-- Where a trap vector sends a trap: its base, or base + 4 × cause for an interrupt in vectored mode. -/
def trapVector (tvec : W64) (intr : Bool) (cause : Nat) : W64 :=
  let base := BitVec.ofNat 64 (tvec.toNat / 4 * 4)
  if intr && tvec.toNat % 4 == 1 then base + BitVec.ofNat 64 (4 * cause) else base

/-- Take a trap: to S mode where it is delegated and the core is not in M mode, else to M mode. The trap
CSRs, the status and the mode change, and the pc goes to the handler. -/
def Core.trap (c : Core) (intr : Bool) (cause : Nat) (tval : W64) : Core :=
  let deleg := bitN (c.csrAt (if intr then 0x303 else 0x302)).toNat cause
  let code := BitVec.ofNat 64 (cause + (if intr then 2 ^ 63 else 0))
  let st := c.csrAt 0x300
  let c := { c with resv := none, wait := .none }
  if deleg && c.mode != .machine then
    let st := withBit (withBit (withBit st 5 (bitN st.toNat 1)) 1 false) 8 (c.mode == .supervisor)
    { ((((c.setCsr 0x141 c.pc).setCsr 0x142 code).setCsr 0x143 tval).setCsr 0x300 st) with
      mode := .supervisor, pc := trapVector (c.csrAt 0x105) intr cause }
  else
    let st := withMpp (withBit (withBit st 7 (bitN st.toNat 3)) 3 false) c.mode
    { ((((c.setCsr 0x341 c.pc).setCsr 0x342 code).setCsr 0x343 tval).setCsr 0x300 st) with
      mode := .machine, pc := trapVector (c.csrAt 0x305) intr cause }

/-- An exception of core h. -/
def State.coreTrap (s : State) (h cause : Nat) (tval : W64) : State := s.modCore h fun c => c.trap false cause tval

/-- The illegal-instruction exception (cause 2). -/
def State.illegal (s : State) (h : Nat) : State := s.coreTrap h 2 0

/-- Access fault reasons (R561). -/
def reasonHole : Nat := 1
def reasonView : Nat := 2
def reasonUe : Nat := 3
def reasonFenced : Nat := 4
def reasonRemote : Nat := 5
def reasonUnconf : Nat := 6
def reasonIsland : Nat := 7
def reasonAtomic : Nat := 8
def reasonMmio : Nat := 9

/-- An access fault (R558, R561): cause 5 for a load, 7 for a store or AMO; `saerr` and `saepa` are written
whichever mode takes the trap. -/
def State.accessFault (s : State) (h : Nat) (store : Bool) (va pa reason : Nat) : State :=
  (s.modCore h fun c => { c with saerr := reason, saepa := pa % 2 ^ 48 }).coreTrap h (if store then 7 else 5) (BitVec.ofNat 64 va)

/-- A posted aperture store failed (R562, R563); of a core that has been retired it is logged (R992). -/
def State.remoteStoreFail (s : State) (h pa : Nat) (unconfirmed : Bool) : State :=
  if (s.core h).st = 0 then
    (s.modCore h fun c =>
      ({ c with srsfcnt := sat32 (c.srsfcnt + 1),
                srsfaddr := BitVec.ofNat 64 (pa % 2 ^ 48 + (if unconfirmed then 2 ^ 63 else 0)) }).setCsr 0x344
        (c.csrAt 0x344 ||| 0x10000)).setFlag lnAc 0
  else s.logEv "REMOTE_STORE_LOST" 4 h 0xFF [(8, pa), (1, h), (1, b2n (!unconfirmed))]

/-- Sign extension of an n-byte value to 64 bits. -/
def extendN (n : Nat) (signed : Bool) (v : Nat) : W64 :=
  if signed && bitN v (8 * n - 1) then BitVec.ofNat 64 (v + 2 ^ 64 - 2 ^ (8 * n)) else BitVec.ofNat 64 v

/-- Bytes of an 8-byte register under a byte mask: the masked bytes from `v`, the others kept. -/
def mergeMask (mask old v : Nat) : Nat :=
  leNat ((List.range 8).map fun i => BitVec.ofNat 8 (if bitN mask i then v / 256 ^ i else old / 256 ^ i))

/-- Write a loaded value to its register. -/
def Core.landLoad (c : Core) (n : Nat) (signed : Bool) (unit rd mask v : Nat) : Core :=
  match unit with
  | 0 => c.setX rd (extendN n signed v)
  | 1 => c.setF rd (if n = 4 then BitVec.ofNat 64 (v + 0xFFFFFFFF00000000) else BitVec.ofNat 64 v)
  | 2 => c.setW rd (BitVec.ofNat 64 (mergeMask mask (c.wr rd).toNat v))
  | _ => c.setQ rd (BitVec.ofNat 128 v)

/-- The instruction of core h completes: the pc goes on to the next. -/
def Core.nextPc (c : Core) : Core := { c with pc := c.pc + BitVec.ofNat 64 c.ilen, wait := .none }

/-- The values of a first-fault load in a q register, element 0 lowest, zeros after the last (R581). -/
def packElems (bytes : Nat) (vs : List Nat) : W128 := BitVec.ofNat 128 (leNat (vs.flatMap (leBytes bytes)))

/-- Fill the missing values of a first-fault load from the values the domain gave, in order. -/
def fillElems : List (Nat × Nat × Option Nat) → List Nat → List (Nat × Nat × Option Nat)
  | [], _ => []
  | (va, pa, some v) :: rest, got => (va, pa, some v) :: fillElems rest got
  | (va, pa, none) :: rest, g :: got => (va, pa, some g) :: fillElems rest got
  | (va, pa, none) :: rest, [] => (va, pa, none) :: fillElems rest []

/-- Finish a first-fault load: the leading elements that were read are written, the rest are zero, and
`lvffc` counts them; with none the first element's fault is taken (R581, R582). -/
def State.finishFirst (s : State) (h bytes rd reason : Nat) (elems : List (Nat × Nat × Option Nat)) : State :=
  let good := (elems.takeWhile fun e => e.2.2.isSome).filterMap fun e => e.2.2
  match good with
  | [] => match elems with
    | (va, pa, _) :: _ => s.accessFault h false va pa reason
    | [] => s
  | _ => s.modCore h fun c => ({ c.setQ rd (packElems bytes good) with lvffc := good.length }).nextPc

end Sys2Proof.Machine
end

