-- ==== Sys2Proof/Machine/Net.lean ====
section
/-!
DEFINITION. Remote operations (R594 to R690): their pieces, planes and connections; what a target does
with a piece; and how an operation completes, fails and is reported.
-/
namespace Sys2Proof.Machine

open Sys2Proof

/-! ### Aperture, slots and planes -/

def apSlot (a : Nat) : Nat := field a 45 39
def apAddr (a : Nat) : Nat := a % 2 ^ 39

/-- The package's own slot (R594, R596). -/
def State.ownSlot (s : State) : Option Nat := if s.places.valid then some (s.places.place % 128) else none

/-- The planes of a mask, in ascending order. -/
def maskPlanes (m : W16) : List Nat := (List.range 16).filter fun h => bitN m.toNat h

/-- The plane of a piece (R613); none with an empty mask. -/
def planeOf (mask : W16) (a : Nat) : Option Nat :=
  let h := Nat.xor (Nat.xor (field a 11 8) (field a 15 12)) (field a 42 39)
  let up := maskPlanes mask
  if up.isEmpty then none else if bitN mask.toNat h then some h else up[field a 23 12 % up.length]?

/-- A slot that operations may name (R598): reachable. -/
def State.slotUp (s : State) (k : Nat) : Bool := (s.slot k).st == 1

/-- A slot whose aperture operations work: reachable, once stage 5 has completed (R598, R911). -/
def State.apertureUp (s : State) (k : Nat) : Bool := decide (5 ≤ s.start.stage) && s.slotUp k

/-- Cut a range of n bytes at address a into pieces at the 256-byte boundaries (R607, R671): offset and
length. -/
def splitFuel : Nat → Nat → Nat → Nat → List (Nat × Nat)
  | 0, _, _, _ => []
  | k + 1, a, off, n => if n = 0 then [] else
    let m := min n (256 - (a + off) % 256)
    (off, m) :: splitFuel k a (off + m) (n - m)
def splitPieces (a n : Nat) : List (Nat × Nat) := splitFuel (n / 256 + 2) a 0 n

/-! ### Export entries (R599 to R606) -/

def rightR : Nat := 0
def rightW : Nat := 1
def rightA : Nat := 2

/-- An entry covers a range and grants a right. -/
def Export.grants (e : Export) (right a n : Nat) : Bool :=
  bitN e.rights right && (n == 0 || decide (e.base ≤ a ∧ a + n ≤ e.base + e.len))

/-- An entry opens a counter (R604). -/
def Export.opens (e : Export) (c : Nat) : Bool := decide (e.cntBase ≤ c ∧ c < e.cntBase + 1024 * e.cntCount)

/-- The entries of this package in force for a job. -/
def State.exportsOf (s : State) (job : Nat) : List Export := (s.net.exports.map (·.2)).filter fun e => e.valid && e.job == job

/-- The cached entries of partition p at slot k: those of its job, up to four (R602); of the own slot, this package's
own. -/
def State.cachedOf (s : State) (p k : Nat) : List Export :=
  if s.ownSlot = some k then (s.exportsOf (s.part p).job).take 4
  else ((Tbl.get [] s.net.cached k).filter fun e => e.valid && e.job == (s.part p).job).take 4

/-! ### What a target does (R600, R606, R608, R609, R646) -/

/-- The entry of the target that lets a piece in. -/
def State.grantFor (s : State) (job right a n : Nat) : Option Export := (s.exportsOf job).find? fun e => e.grants right a n

/-- A store piece: refused with a code, or written. -/
def State.targetStore (s : State) (mf : MemFaults) (job a : Nat) (bs : List Byte) : Option Nat × State :=
  match s.grantFor job rightW a bs.length with
  | none => (some F_REMOTE_BOUNDS, s)
  | some e => if !(s.hbmOk a bs.length) then (some F_ISLAND, s) else
    match s.storeChecked mf a bs with
    | (some _, s) => (some F_HBM_ECC, s)
    | (none, s) => (none, s.chargeHbm e.partition true a bs.length)

/-- A load piece: refused, or read. -/
def State.targetLoad (s : State) (mf : MemFaults) (job a n : Nat) : Except Nat (List Byte) × State :=
  match s.grantFor job rightR a n with
  | none => (.error F_REMOTE_BOUNDS, s)
  | some e => if !(s.hbmOk a n) then (.error F_ISLAND, s) else
    match s.load mf a n with
    | (.error _, s) => (.error F_HBM_ECC, s)
    | (.ok bs, s) => (.ok bs, s.chargeHbm e.partition false a n)

/-- The new value of an atomic on n-byte words (R401, R609). -/
def atomicFn (op n : Nat) (old x cmp : Nat) : Nat :=
  let w := 8 * n
  let so := toSigned w old
  let sx := toSigned w x
  match op with
  | 0 => (old + x) % 2 ^ w
  | 1 => x
  | 2 => if old = cmp then x else old
  | 3 => Nat.land old x
  | 4 => Nat.lor old x
  | 5 => Nat.xor old x
  | 6 => if so < sx then x else old
  | 7 => if sx < so then x else old
  | 8 => max old x
  | _ => min old x

/-- An atomic piece: refused, or performed, giving the prior value. -/
def State.targetAtomic (s : State) (mf : MemFaults) (job op : Nat) (w64 : Bool) (a x cmp : Nat) : Except Nat Nat × State :=
  let n := if w64 then 8 else 4
  match s.grantFor job rightA a n with
  | none => (.error F_REMOTE_BOUNDS, s)
  | some e => if !(s.hbmOk a n) then (.error F_ISLAND, s) else
    match s.load mf a n with
    | (.error _, s) => (.error F_HBM_ECC, s)
    | (.ok bs, s) =>
      let old := leNat bs
      match s.storeChecked mf a (leBytes n (atomicFn op n old (x % 2 ^ (8 * n)) (cmp % 2 ^ (8 * n)))) with
      | (some _, s) => (.error F_HBM_ECC, s)
      | (none, s) => (.ok old, (s.chargeHbm e.partition false a n).chargeHbm e.partition true a n)

/-- A domain counter addition: refused, or made (R604, R646). -/
def State.targetAdd (s : State) (job c : Nat) (x : W64) : Option Nat × State :=
  if !((s.exportsOf job).any fun e => e.opens c) then (some F_REMOTE_BOUNDS, s)
  else if s.hcStopped (c / 32768) then (some F_ISLAND, s)
  else (none, s.ctrAdd c x)

/-! ### Windows at the target (R659 to R663, R669 to R674) -/

def rightP : Nat := 0
def rightG : Nat := 1
def rightC : Nat := 2

def State.window (s : State) (w : Nat) : Window := Tbl.get Window.reset s.net.windows w

/-- A window check: F_WINDOW where it is not in force for the job and generation, F_REMOTE_BOUNDS where a
right or the range is missing. -/
def Window.check (w : Window) (job : Nat) (gen : Option Nat) (right off n : Nat) : Option Nat :=
  if !w.valid || w.job != job || (match gen with
    | some g => w.gen != g
    | none => false) then some F_WINDOW
  else if !(bitN w.rights right) || (n != 0 && decide (w.len < off + n)) then some F_REMOTE_BOUNDS
  else none

/-- A window opens a counter. -/
def Window.opens (w : Window) (c : Nat) : Bool := bitN w.rights rightC && decide (w.cntBase ≤ c ∧ c < w.cntBase + 1024 * w.cntCount)

/-- The piece of a put at the target. -/
def State.targetPut (s : State) (mf : MemFaults) (job w : Nat) (gen : Option Nat) (off : Nat) (bs : List Byte) : Option Nat × State :=
  let x := s.window w
  match x.check job gen rightP off bs.length with
  | some c => (some c, s)
  | none => if !(s.hbmOk (x.base + off) bs.length) then (some F_ISLAND, s) else
    match s.storeChecked mf (x.base + off) bs with
    | (some _, s) => (some F_HBM_ECC, s)
    | (none, s) => (none, s.chargeHbm x.partition true (x.base + off) bs.length)

/-- A get request at the target. -/
def State.targetGet (s : State) (mf : MemFaults) (job w : Nat) (gen : Option Nat) (off n : Nat) : Except Nat (List Byte) × State :=
  let x := s.window w
  match x.check job gen rightG off n with
  | some c => (.error c, s)
  | none => if !(s.hbmOk (x.base + off) n) then (.error F_ISLAND, s) else
    match s.load mf (x.base + off) n with
    | (.error _, s) => (.error F_HBM_ECC, s)
    | (.ok bs, s) => (.ok bs, s.chargeHbm x.partition false (x.base + off) n)

/-- A transport counter addition at the target: of a put, to its own window's counters; of an `RTADD`, to
those of any valid window of the job (R669, R670). -/
def State.targetWinAdd (s : State) (job : Nat) (w : Option Nat) (c : Nat) (x : W64) : Option Nat × State :=
  let ok := match w with
    | some w => (s.window w).valid && (s.window w).job == job && (s.window w).opens c
    | none => s.net.windows.any fun y => y.2.valid && y.2.job == job && y.2.opens c
  if !ok then (some F_REMOTE_BOUNDS, s)
  else if s.hcStopped (c / 32768) then (some F_ISLAND, s)
  else (none, s.ctrAdd c x)

/-! ### Operations -/

def State.op (s : State) (id : Nat) : Option RemOp := s.net.ops.find? fun o => o.id == id
def State.modOp (s : State) (id : Nat) (f : RemOp → RemOp) : State :=
  s.modNet fun n => { n with ops := n.ops.map fun o => if o.id == id then f o else o }

def RemOp.domain (o : RemOp) : Bool := o.conn == 65536
def PieceState.final : PieceState → Bool
  | .held => false
  | .sent => false
  | .done => true
  | .refused _ => true
  | .dropped => true
  | .lost => true
def PieceState.unperformed : PieceState → Bool
  | .refused _ => true
  | .dropped => true
  | .held => false
  | .sent => false
  | .done => false
  | .lost => false

def RemOp.setPiece (o : RemOp) (i : Nat) (f : Piece → Piece) : RemOp :=
  { o with pieces := o.pieces.zipIdx.map fun p => if p.2 = i then f p.1 else p.1 }
def RemOp.setSt (o : RemOp) (i : Nat) (st : PieceState) : RemOp := o.setPiece i fun p => { p with st := st }

/-- Every part of an operation is final. -/
def RemOp.final (o : RemOp) : Bool := o.pieces.all (fun p => p.st.final) && o.addSt.final
/-- Every part of an operation was performed. -/
def RemOp.good (o : RemOp) : Bool := o.code == 0 && o.pieces.all (fun p => p.st == .done) && o.addSt == .done

/-- The first failure of an operation: its code is kept, and nothing that has not been sent will be. -/
def RemOp.fail (o : RemOp) (code : Nat) : RemOp :=
  { o with code := if o.code = 0 then code else o.code,
           pieces := o.pieces.map fun p => if p.st == .held then { p with st := .dropped } else p,
           addSt := if o.addSt == .held then .dropped else o.addSt }

/-- DONE of a failed operation: the bytes of its leading pieces that were performed; and whether the rest
cannot be confirmed as not performed (R647, R641, R645, R683). -/
def RemOp.outcome (o : RemOp) : Nat × Bool :=
  let lead := o.pieces.takeWhile fun p => p.st == .done
  let rest := (o.pieces.drop lead.length).map (·.st) ++ [if o.addSt == .done && o.addTo.isNone then .dropped else o.addSt]
  ((lead.map (·.len)).sum,
   match o.kind with
   | .load => false
   | .get => false
   | _ => !(rest.all PieceState.unperformed))

/-- The place an operation addresses. -/
def State.opPlace (s : State) (o : RemOp) : Nat := if o.domain then (s.slot (apSlot o.addr)).place else o.target

/-- An operation leaves the table, and the operations that wait for it see that it is acknowledged or has
failed (R620, R621). -/
def State.forgetOp (s : State) (id : Nat) (failed : Bool) : State :=
  s.modNet fun n =>
    { n with ops := (n.ops.filter fun o => o.id != id).map fun o =>
        if o.after.contains id then { o with after := o.after.filter (· != id), broken := o.broken || failed } else o }

/-- An acknowledged operation stays until REMOTE_OP_DONE, but holds nothing back any more. -/
def State.releaseAfter (s : State) (id : Nat) : State :=
  s.modNet fun n => { n with ops := n.ops.map fun o => { o with after := o.after.filter (· != id) } }

/-- A FENCE of a core that waited for an operation. -/
def State.fenceProgress (s : State) (h id : Nat) : State :=
  match (s.core h).wait with
  | .fence ops =>
    let left := ops.filter (· != id)
    if left = [] then s.modCore h Core.nextPc else s.modCore h fun c => { c with wait := .fence left }
  | _ => s

/-- A core's load, AMO or first-fault load that the domain answered (R559, R560, R581). -/
def State.coreAnswer (s : State) (h : Nat) (o : RemOp) : State :=
  let reason := if o.outcome.2 then reasonUnconf else reasonRemote
  match (s.core h).wait with
  | .load id va pa bytes signed unit rd mask =>
    if id ≠ o.id then s
    else if o.good then s.modCore h fun c => (c.landLoad bytes signed unit rd mask (leNat (o.data.take bytes))).nextPc
    else s.accessFault h false va pa reason
  | .amo id va pa bytes rd =>
    if id ≠ o.id then s
    else if o.good then s.modCore h fun c => (c.setX rd (extendN bytes true (leNat (o.data.take bytes)))).nextPc
    else s.accessFault h true va pa reason
  | .first id bytes rd elems =>
    if id ≠ o.id then s
    else
      let n := (o.pieces.takeWhile fun p => p.st == .done).length
      let got := (List.range n).map fun i => leNat ((o.data.drop (i * bytes)).take bytes)
      s.finishFirst h bytes rd reasonRemote (fillElems elems got)
  | _ => s

/-- Report an operation all of whose parts are final. A failed one is reported at once; one of a copy queue
or of a Husk that succeeded waits for REMOTE_OP_DONE. -/
def State.opSettle (s : State) (id : Nat) : State :=
  match s.op id with
  | none => s
  | some o =>
    if !o.final then s
    else if o.good then
      match o.src with
      | .core h =>
        let s := s.forgetOp id false
        if o.kind == .store then s.fenceProgress h id else s.coreAnswer h o
      | _ => s.releaseAfter id
    else
      let (done, unconf) := o.outcome
      let code := if o.code = 0 then F_REMOTE_LOST else o.code
      let s := s.forgetOp id true
      let s := if unconf && o.domain then
          (s.modNet fun n => { n with unconfirmed := sat32 (n.unconfirmed + 1) }).setFlag lnDm fDmUnconf
        else s
      match o.src with
      | .queue t q entry => match (s.queue t (8 + q)).active.find? fun e => e.id == entry with
        | some e => s.failEntry t (8 + q) e code done (s.opPlace o) unconf
        | none => s
      | .core h =>
        if o.kind == .store then
          let s := o.pieces.foldl (fun s p => if p.st == .done then s else s.remoteStoreFail h (o.addr + p.off) unconf) s
          s.fenceProgress h id
        else s.coreAnswer h o
      | .husk p => s.huskAbandon p "HUSK_DRAIN_FAILED"

/-! ### Sending domain pieces -/

/-- Two operations come from one source queue: a copy queue of one Tiller, whatever the entry, or one core (R617). -/
def OpSource.sameQueue (a b : OpSource) : Bool :=
  match a, b with
  | .queue t q _, .queue t' q' _ => t == t' && q == q'
  | _, _ => a == b

/-- A piece of the same source queue and block that was issued earlier and is not final. -/
def State.earlierInBlock (s : State) (o : RemOp) (i : Nat) (a : Nat) : List Piece :=
  (s.net.ops.filter fun x => x.src.sameQueue o.src && x.domain || x.id == o.id).flatMap fun x =>
    (x.pieces.zipIdx.filter fun p => (decide (x.id < o.id) || (x.id == o.id && decide (p.2 < i))) &&
      (x.addr + p.1.off) / 256 == a / 256 && !p.1.st.final).map (·.1)

/-- The domain job of a source's partition. -/
def State.jobOf (s : State) (p : Nat) : Nat := (s.part p).job

/-- Record a piece's outcome. -/
def State.pieceDone (s : State) (id i : Nat) : State := s.modOp id fun o => o.setSt i .done
def State.pieceFail (s : State) (id i : Nat) (st : PieceState) (code : Nat) : State :=
  s.modOp id fun o => (o.setSt i st).fail code

/-- Bytes placed at an offset of a buffer. -/
def placeAt (d : List Byte) (off : Nat) (bs : List Byte) : List Byte :=
  (d ++ List.replicate (off - d.length) 0).take off ++ bs ++ d.drop (off + bs.length)

/-- The data of piece i lands: in a core's buffer, or at the operation's local address. -/
def State.land (s : State) (mf : MemFaults) (o : RemOp) (i : Nat) (bs : List Byte) : State :=
  match o.pieces[i]? with
  | none => s
  | some p =>
    let bs := bs.take p.len
    match o.src with
    | .core _ => (s.modOp o.id fun x => { x with data := placeAt x.data ((o.pieces.take i).map (·.len)).sum bs }).pieceDone o.id i
    | .queue t _ _ =>
      let lo := if o.kind == .atomic then 0 else p.off
      match s.localWrite mf t o.partition (o.local_ + lo) bs with
      | (none, _, s) => s.pieceDone o.id i
      | (some c, _, s) => s.pieceFail o.id i (.refused c) c
    | .husk _ => (s.modOp o.id fun x => { x with data := placeAt x.data ((o.pieces.take i).map (·.len)).sum bs }).pieceDone o.id i

/-- Perform a piece of an operation on the package's own memory (R596). -/
def State.ownPiece (s : State) (mf : MemFaults) (o : RemOp) (i : Nat) (p : Piece) : State :=
  let a := apAddr (o.addr + p.off)
  let job := s.jobOf o.partition
  let refuse := fun (s : State) (c : Nat) => s.pieceFail o.id i (.refused c) c
  match o.kind with
  | .load => match s.targetLoad mf job a p.len with
    | (.ok bs, s) => s.land mf o i bs
    | (.error c, s) => refuse s c
  | .atomic => match s.targetAtomic mf job o.atop o.w64 a (leNat o.data) o.cmp with
    | (.ok old, s) => (s.modOp o.id fun x => { x with data := [] }).land mf { o with data := [], pieces := o.pieces.map fun q => { q with len := 8 } } i (leBytes 8 old)
    | (.error c, s) => refuse s c
  | _ => match s.targetStore mf job a ((o.data.drop p.off).take p.len) with
    | (none, s) => s.pieceDone o.id i
    | (some c, s) => refuse s c

/-- Send piece i of a domain operation, unless it must be held: an earlier piece of its block has not been
sent, or is outstanding on another plane (R618, R643). -/
def State.sendPiece (s : State) (mf : MemFaults) (id i : Nat) : State :=
  match s.op id with
  | none => s
  | some o => match o.pieces[i]? with
    | none => s
    | some p =>
      let a := o.addr + p.off
      let slot := apSlot a
      if p.st != .held then s
      else if s.ownSlot == some slot then
        if (s.earlierInBlock o i a) = [] then s.ownPiece mf o i p else s
      else match planeOf (s.slot slot).mask a with
        | none => s.pieceFail id i .dropped F_REMOTE_LOST
        | some h =>
          if (s.earlierInBlock o i a).any fun q => q.st == .held || q.plane != h then s
          else
            let s := (s.modOp id fun o => o.setPiece i fun q => { q with st := .sent, plane := h }).emit (.domPiece id p.off h)
            match s.portOfPlane h with
            | some k => s.portSend k 0 id i
            | none => s

/-- Pieces of a core's operation go one at a time; those of a queue all at once (R582). -/
def State.sendPieces (s : State) (mf : MemFaults) (id : Nat) : State :=
  match s.op id with
  | none => s
  | some o =>
    let s := match o.src with
      | .core _ => (List.range o.pieces.length).foldl (fun (s : State) _ =>
          match (s.op id).bind fun o => o.pieces.findIdx? fun (p : Piece) => !p.st.final with
          | some i => s.sendPiece mf id i
          | none => s) s
      | _ => (List.range o.pieces.length).foldl (fun s i => s.sendPiece mf id i) s
    s.opSettle id

/-- Make or send the counter addition of an operation whose pieces are all performed (R622). -/
def State.sendAdd (s : State) (id : Nat) : State :=
  match s.op id with
  | none => s
  | some o =>
    if o.addSt != .held || !(o.pieces.all fun p => p.st == .done) || o.after != [] then s
    else match o.addTo with
      | none => s
      | some (c, x) =>
        let slot := apSlot o.addr
        let s := if s.ownSlot == some slot then
            match s.targetAdd (s.jobOf o.partition) c (BitVec.ofNat 64 x) with
            | (none, s) => s.modOp id fun o => { o with addSt := .done }
            | (some code, s) => s.modOp id fun o => { o with addSt := .refused code, code := code }
          else match planeOf (s.slot slot).mask o.addr with
            | none => s.modOp id fun o => { o with addSt := .dropped, code := F_REMOTE_LOST }
            | some h =>
              let s := (s.modOp id fun o => { o with addSt := .sent }).emit (.domAdd id)
              match s.portOfPlane h with
              | some k => s.portSend k 0 id o.pieces.length
              | none => s
        s.opSettle id

/-- Add an operation to the table. -/
def State.newOp (s : State) (o : RemOp) : State :=
  s.modNet fun n => { n with ops := n.ops ++ [o], nextOp := n.nextOp + 1 }

/-! ### Losing a plane or a slot (R614, R642, R645) -/

/-- Pieces outstanding on plane h to a slot that `lostSlot` gives: a load is sent again, everything else is
lost. `unreach` says the slot is gone, so that loads fail too. -/
def State.losePieces (s : State) (f : RemOp → Piece → Bool) (unreach : Bool) : State :=
  let hit := s.net.ops.filter fun o => o.domain && o.pieces.any fun p => p.st == .sent && f o p
  let s := hit.foldl (fun s o =>
    s.modOp o.id fun o =>
      let resend := o.kind == .load && !unreach
      let o' : RemOp := { o with pieces := o.pieces.map fun p =>
                    if p.st == .sent && f o p then { p with st := if resend then .held else .lost } else p }
      if resend then o' else o'.fail F_REMOTE_LOST) s
  hit.foldl (fun s o => if o.kind == .load && !unreach then s.sendPieces ⟨[], []⟩ o.id else s.opSettle o.id) s

/-- Counter additions that travel on plane h and are outstanding are lost. -/
def State.loseAdds (s : State) (f : RemOp → Bool) : State :=
  let hit := s.net.ops.filter fun o => o.domain && o.addSt == .sent && f o
  let s := hit.foldl (fun s o => s.modOp o.id fun o => RemOp.fail { o with addSt := .lost } F_REMOTE_LOST) s
  hit.foldl (fun s o => s.opSettle o.id) s

/-- A slot changes state (R597, `DM_FLAGS.SLOT`). -/
def State.setSlotSt (s : State) (k st : Nat) : State :=
  if (s.slot k).st = st then s
  else (s.modNet fun n => { n with slots := Tbl.upd Slot.reset n.slots k fun x => { x with st := st } }).setFlag lnDm fDmSlot

/-- A slot leaves the reachable state: what is outstanding to it fails (R645). -/
def State.slotLost (s : State) (k : Nat) : State :=
  ((s.losePieces (fun o p => apSlot (o.addr + p.off) == k) true).loseAdds fun o => apSlot o.addr == k)

/-- Plane h leaves the mask of every slot (R614, R642): pieces on it are sent again or fail, and a slot left
without a plane is unreachable. -/
def State.planeLost (s : State) (h : Nat) : State :=
  let had := (List.range 128).filter fun k => bitN (s.slot k).mask.toNat h
  let onPlane := (s.net.ops.filter fun o => o.domain && o.addSt == .sent && planeOf (s.slot (apSlot o.addr)).mask o.addr == some h).map (·.id)
  let s := had.foldl (fun s k =>
    s.modNet fun n => { n with slots := Tbl.upd Slot.reset n.slots k fun x => { x with mask := x.mask &&& ~~~ (BitVec.ofNat 16 (2 ^ h)) } }) s
  let s := if had = [] then s else s.modNet fun n => { n with respreads := sat32 (n.respreads + 1) }
  let dead := had.filter fun k => (s.slot k).mask == 0 && (s.slot k).st == 1 && s.ownSlot != some k
  let s := dead.foldl (fun s k => (s.setSlotSt k 2).slotLost k) s
  let s := (s.losePieces (fun _ p => p.plane == h) false).loseAdds fun o => onPlane.contains o.id
  (s.setFlag lnDm fDmPlane).logEv "DOMAIN_PLANE_DOWN" 1 ((s.portOfPlane h).getD 0) 0xFF [(1, h)]

/-- Plane h is usable at this package's port (`DM_STATUS.PLANES_UP`, R614, R807). -/
def State.planeUp (s : State) (h : Nat) : Bool :=
  match s.portOfPlane h with
  | some k => (s.port k).st == 6 && !(s.port k).misplaced
  | none => false

/-- The planes usable at this package's ports. -/
def State.planesUp (s : State) : W16 := BitVec.ofNat 16 (((List.range 16).map fun h => if s.planeUp h then 2 ^ h else 0).sum)

/-- A plane has become usable: it returns to the masks that Sunas set, and slots without a plane return
(R614). -/
def State.planeBack (s : State) (h : Nat) : State :=
  let ks := (List.range 128).filter fun k => bitN (s.slot k).cfgMask.toNat h && (s.slot k).cfgSt != 0
  let s := ks.foldl (fun s k =>
    (s.modNet fun n => { n with slots := Tbl.upd Slot.reset n.slots k fun x => { x with mask := x.mask ||| BitVec.ofNat 16 (2 ^ h) } }).setSlotSt k (s.slot k).cfgSt) s
  let s := if ks = [] then s else s.modNet fun n => { n with respreads := sat32 (n.respreads + 1) }
  s.setFlag lnDm fDmPlane

/-! ### Connections -/

/-- The transport version of a connection (R819): 1 toward a GN6 hall. -/
def State.connVersion (s : State) (place : Nat) : Nat :=
  if (Tbl.get Hall.reset s.places.halls (place / 32768)).gen = 1 then 1 else 2

/-- The hall and the domain that a place names (R9). -/
def hallOf (place : Nat) : Nat := place / 32768 % 32
def domainOf (place : Nat) : Nat := place / 128 % 256

/-- A place is reachable under the tables (R811). -/
def State.placeReachable (s : State) (place : Nat) : Bool :=
  let h := Tbl.get Hall.reset s.places.halls (hallOf place)
  let ownHall := s.places.valid && hallOf s.places.place == hallOf place
  let ownDomain := ownHall && domainOf s.places.place == domainOf place
  h.st == 1 && (!ownHall || Tbl.get 0 s.places.domains (domainOf place) == 1) && (!ownDomain || s.slotUp (place % 128)) &&
  (h.gen != 1 || (decide (domainOf place < 64) && decide (place % 128 < 64)))

/-- An open connection of partition p to a place that the tables reach (R666, R811, R814). -/
def State.connTo (s : State) (p place : Nat) : Option Nat :=
  if s.placeReachable place then
    (s.net.conns.find? fun c => c.2.st == 1 && !c.2.closing && c.2.partition == p && c.2.place == place).map (·.1)
  else none

/-- The package's own place (R667). -/
def State.isOwnPlace (s : State) (place : Nat) : Bool := s.places.valid && s.places.place == place

/-- A packet enters a connection. -/
def State.sendPacket (s : State) (c op part : Nat) : State :=
  let x := s.conn c
  let s := (s.modConn c fun y => { y with txPsn := (y.txPsn + 1) % 2 ^ 24, unacked := y.unacked ++ [⟨x.txPsn, op, part⟩] }).emit (.xpPacket c x.txPsn)
  s.portSend x.port 0 op part

def State.connFull (s : State) (c : Nat) : Bool := decide (2 ^ 22 - 1 ≤ (s.conn c).unacked.length)

/-- Counter additions of a connection that are not acknowledged (R820). -/
def State.addsOut (s : State) (c : Nat) : Nat := (s.net.ops.filter fun o => o.conn == c && o.addSt == .sent).length

/-- Piece i is the first of a get request: one request for each 64 KiB of the range (R671). -/
def RemOp.startsReq (o : RemOp) (i : Nat) : Bool :=
  i == 0 || ((o.pieces[i - 1]?).map fun p => p.off / 65536) != ((o.pieces[i]?).map fun p => p.off / 65536)

/-- Perform one part of an operation to the package's own place (R667). -/
def State.ownPut (s : State) (mf : MemFaults) (o : RemOp) (i : Nat) (p : Piece) : State :=
  let job := s.jobOf o.partition
  match o.kind with
  | .get => match s.targetGet mf job o.window none (o.addr + p.off) p.len with
    | (.ok bs, s) => s.land mf o i bs
    | (.error c, s) => s.pieceFail o.id i (.refused c) c
  | _ => match s.targetPut mf job o.window none (o.addr + p.off) ((o.data.drop p.off).take p.len) with
    | (none, s) => s.pieceDone o.id i
    | (some c, s) => s.modOp o.id fun x => { x.setSt i (.refused c) with code := if x.code = 0 then c else x.code }

/-- Enter the parts of an operation into its connection, in order, while it takes packets: pieces or get
requests, then the counter addition (R671, R672, R674, R676, R820). -/
def State.enterOp (s : State) (mf : MemFaults) (id : Nat) : State :=
  match s.op id with
  | none => s
  | some o =>
    let own := s.isOwnPlace o.target
    let s := o.pieces.zipIdx.foldl (fun s p =>
      if p.1.st != .held then s
      else if own then (match s.op id with
        | some o' => s.ownPut mf o' p.2 p.1
        | none => s)
      else if o.kind == .get && !o.startsReq p.2 then
        if ((s.op id).bind fun o' => o'.pieces[p.2 - 1]?).any fun q => q.st != .held then
          s.modOp id fun o => o.setPiece p.2 fun q => { q with st := .sent }
        else s
      else if s.connFull o.conn then s
      else
        let psn := (s.conn o.conn).txPsn
        (s.modOp id fun o => o.setPiece p.2 fun q => { q with st := .sent, psn := psn }).sendPacket o.conn id (if o.kind == .get then 2 ^ 32 + p.2 else p.2)) s
    match s.op id with
    | none => s
    | some o' =>
      let s := match o'.addTo with
        | some (c, x) =>
          if o'.addSt == PieceState.held && o'.pieces.all (fun p => p.st != PieceState.held) then
            if own then
              match s.targetWinAdd (s.jobOf o'.partition) (if o'.kind == RKind.put then some o'.window else none) c (BitVec.ofNat 64 x) with
              | (none, s) => s.modOp id fun y => { y with addSt := .done }
              | (some code, s) => s.modOp id fun y => { y with addSt := .refused code, code := if y.code = 0 then code else y.code }
            else if s.connFull o'.conn || (s.connVersion o'.target == 1 && decide (1024 ≤ s.addsOut o'.conn)) then s
            else
              let psn := (s.conn o'.conn).txPsn
              (s.modOp id fun y => { y with addSt := .sent, addPsn := psn }).sendPacket o'.conn id o'.pieces.length
          else s
        | none => s
      s.opSettle id

/-- An operation issued before `id` still has a part to enter into connection c. -/
def State.connHolds (s : State) (c id : Nat) : Bool :=
  s.net.ops.any fun x => x.conn == c && decide (x.id < id) && (x.pieces.any (fun p => p.st == .held) || (x.addSt == .held && x.addTo.isSome))

/-- Enter an operation into its connection, unless an earlier one has still to enter (R672). -/
def State.enterNext (s : State) (mf : MemFaults) (id : Nat) : State :=
  match s.op id with
  | none => s
  | some o => if s.connHolds o.conn id then s else s.enterOp mf id

/-- Enter what waits on a connection, in the order of issue (R672). -/
def State.connPump (s : State) (c : Nat) : State :=
  (s.net.ops.filter fun o => o.conn == c).foldl (fun s o => s.enterNext MemFaults.none o.id) s

/-- Retransmit from the first packet that is not acknowledged (R678, R689). -/
def State.retransmit (s : State) (c : Nat) : State :=
  let x := s.conn c
  let s := s.modNet fun n => { n with retransmits := sat32 (n.retransmits + x.unacked.length) }
  x.unacked.foldl (fun s p => (s.emit (.xpPacket c p.psn)).portSend x.port 0 p.op p.part) s

/-- A hall port fails: its connections move to another hall port in ACTIVE and retransmit (R682). -/
def State.hallPortLost (s : State) (k : Nat) : State :=
  match (List.range 24).find? fun j => j != k && s.hallPort j && (s.port j).st == 6 with
  | none => s
  | some j =>
    (s.net.conns.filter fun c => c.2.st == 1 && c.2.port == k).foldl
      (fun s c => (s.modConn c.1 fun x => { x with port := j }).retransmit c.1) s

/-- A hall port enters ACTIVE: connections whose own port is not a hall port in ACTIVE move to it, and what its port did
not deliver is sent again (R682). -/
def State.hallPortBack (s : State) (k : Nat) : State :=
  (s.net.conns.filter fun c => c.2.st == 1 && (c.2.port == k || !(s.hallPort c.2.port && (s.port c.2.port).st == 6))).foldl
    (fun s c => (s.modConn c.1 fun x => { x with port := k }).retransmit c.1) s

/-- Step 3 of a revocation (R663): VALID is cleared, GEN advances, and the command of mailbox m returns it. -/
def State.revoked (s : State) (m w : Nat) : State :=
  (s.modNet fun n => { n with windows := Tbl.upd Window.reset n.windows w fun y =>
    { y with valid := false, revoking := false, gen := (y.gen + 1) % 65536 } }).respond m 0 0
    (leBytes 2 (((s.window w).gen + 1) % 65536))

/-- Connection c has acknowledged the invalidation of a window that `f` accepts, or has failed: revocations go on
(R663). -/
def State.revokeGoes (s : State) (c : Nat) (f : Nat → Bool) : State :=
  (s.sunas.mboxes.filter fun m => match m.2.wait with
      | .revoke w cs => f w && cs.contains c
      | _ => false).foldl (fun s m => match m.2.wait with
    | .revoke w cs =>
      let left := cs.filter (· != c)
      if left = [] then s.revoked m.1 w else s.modMbox m.1 fun b => { b with wait := .revoke w left }
    | _ => s) s

/-- A connection fails (R683, R814): gets fail, puts and additions not wholly acknowledged fail unconfirmed,
and the window cache is emptied. One that was being closed is closed. -/
def State.connFail (s : State) (c : Nat) : State :=
  if (s.conn c).st ≠ 1 then s
  else
    let closing := (s.conn c).closing
    let s := s.modConn c fun x => { x with st := 2, cache := [], unacked := [], peerCaches := [] }
    let s := (s.modNet fun n => { n with connFailed := sat32 (n.connFailed + 1) }).setFlag lnXp fXpConn
    let ids := (s.net.ops.filter fun o => o.conn == c && !o.final).map (·.id)
    let s := ids.foldl (fun s id => s.modOp id fun o =>
      RemOp.fail { o with pieces := o.pieces.map fun p => if p.st == .sent || p.st == .held then { p with st := .lost } else p,
                          addSt := if o.addSt == .sent || o.addSt == .held then .lost else o.addSt } F_REMOTE_LOST) s
    let s := ids.foldl (fun s id => s.opSettle id) s
    let s := if closing then s.modConn c fun _ => Conn.reset else s
    (s.respondWaiting (.connClose c) 0 0 []).revokeGoes c fun _ => true

end Sys2Proof.Machine
end

