-- ==== Sys2Proof/Machine/Ports.lean ====
section
/-!
DEFINITION. The optical ports and the laser modules (R737 to R803): the link layer, training, lane sparing,
fibres, light and modules.
-/
namespace Sys2Proof.Machine

open Sys2Proof

/-! ### States of a port -/

def stOff : Nat := 0
def stFibreOut : Nat := 1
def stNoLight : Nat := 2
def stDetect : Nat := 3
def stAlign : Nat := 4
def stExchange : Nat := 5
def stActive : Nat := 6
def stBackoff : Nat := 7
def stDark : Nat := 8

/-- Set a port's state, with the flag of a change. -/
def State.setPortSt (s : State) (k st : Nat) : State :=
  if (s.port k).st = st then s else ((s.modPort k fun p => { p with st := st }).setFlag (lnOp k) 0).retrainsEnd

/-- A link loses what its state held: numbers, credits, frames, sparing. -/
def Port.clearLink (p : Port) : Port :=
  { p with nextSeq := 0, unacked := [], waiting := [], credit0 := 0, credit1 := 0, lastCred0 := 0, lastCred1 := 0,
           expected := 0, accepted := false, lastNak := none, freed0 := 0, freed1 := 0, sparing := none, mapEpoch := none,
           stepSent := false, echo := 0, spareTx := false, spareRx := false }

/-- The state in which a port that may train starts: without fibre FIBRE_OUT, without a source NO_LIGHT. -/
def Port.startSt (p : Port) : Nat := if !p.fibre then stFibreOut else if !(p.srcA || p.srcB) then stNoLight else stDetect

/-- Start a port from DETECT. -/
def State.portStart (s : State) (k : Nat) : State := (s.modPort k Port.clearLink).setPortSt k (s.port k).startSt

/-- A port leaves ACTIVE: its frames are handed back as not delivered, its plane leaves the masks or its
connections move (R763, R779, R642, R682). -/
def State.leaveActive (s : State) (k st : Nat) : State :=
  if (s.port k).st ≠ stActive then (s.modPort k Port.clearLink).setPortSt k st
  else
    let plane := s.planeOfPort k
    let usable := s.planeUp plane
    let s := (s.modPort k Port.clearLink).setPortSt k st
    if s.hallPort k then s.hallPortLost k else if usable then s.planeLost plane else s

/-- A port leaves ACTIVE, or a training step, and trains from DETECT. -/
def State.portOut (s : State) (k : Nat) : State := s.leaveActive k (s.port k).startSt

/-- A training step fails (R770, R771). -/
def State.trainFail (s : State) (k : Nat) : State :=
  let p := s.port k
  let s := (s.modPort k fun p => { p.clearLink with trainFail := sat32 (p.trainFail + 1), fails := min 4 (p.fails + 1) }).logEv "PORT_TRAIN_FAIL" 1 k 0xFF []
  if p.fails < 3 then s.setPortSt k stBackoff
  else
    let s := s.setPortSt k stDark
    if p.fails = 3 then
      let s := s.logEv "PORT_DARK" 1 k 0xFF []
      if p.fibre then s.raiseService 1 k else s
    else s

/-- A port enters ACTIVE (R756, R772). -/
def State.enterActive (s : State) (k rtt version cred0 cred1 partner : Nat) : State :=
  let s := s.modPort k fun p =>
    { p.clearLink with rtt := rtt, version := version, credit0 := cred0, credit1 := cred1, partner := some partner,
                       fails := 0, spareTx := p.spareTx, spareRx := p.spareRx, misplaced := false, lightLost := false }
  let bad := s.places.valid && !(s.hallPort k) && partner != s.places.place % 128
  let s := if bad then
      ((s.modPort k fun p => { p with misplaced := true }).setFlag lnPl 1).logEv "PLACE_MISMATCH" 1 k 0xFF [(1, k), (1, s.places.place % 128), (1, partner)]
    else s
  let s := (s.setPortSt k stActive).clearService 1 k
  if s.hallPort k then s.hallPortBack k else if bad then s else s.planeBack (s.planeOfPort k)

/-! ### Frames (R748 to R764) -/

/-- A header field is outside its type's range (R749 to R751). -/
def Frame.malformed (f : Frame) : Bool :=
  if f.ty = frData then f.len == 0 || decide (16 < f.len) || f.ctl != 0
  else if f.ty = frIdle || f.ty = frNak then f.len != 0 || f.seq != 0 || f.vc || f.ctl != 0
  else if f.ty = frLanemap then f.len != 0 || f.seq != 0 || f.vc || decide (256 ≤ f.ctl)
  else if f.ty = frTrain then f.len != 2 || f.seq != 0 || f.vc || f.ctl != 0
  else true

/-- Credits regained from CRED (R754). -/
def Port.takeCredit (p : Port) (cvc : Bool) (cred : Nat) : Port :=
  if cvc then { p with credit1 := p.credit1 + (cred + 4096 - p.lastCred1) % 4096, lastCred1 := cred % 4096 }
  else { p with credit0 := p.credit0 + (cred + 4096 - p.lastCred0) % 4096, lastCred0 := cred % 4096 }

/-- An acknowledgement frees its frame and every older one; a stale one is ignored (R761). -/
def Port.takeAck (p : Port) (ack : Nat) : Port :=
  match p.unacked.findIdx? fun f => f.seq == ack with
  | some i => { p with unacked := p.unacked.drop (i + 1) }
  | none => p

/-- A frame decodes under the new map: the sparing of a receive lane ends (R777). -/
def State.sparingDone (s : State) (k : Nat) : State :=
  match (s.port k).sparing with
  | none => s
  | some (lane, _) =>
    let p := s.port k
    let logical := (Tbl.get Lane.reset p.lanes (9 + lane)).logical
    let spare := (List.range 9).find? fun l => (Tbl.get Lane.reset p.lanes (9 + l)).st == 1
    let s := s.modPort k fun p =>
      let lanes := Tbl.upd Lane.reset p.lanes (9 + lane) fun x => { x with st := 2 }
      { p with sparing := none, spareRx := true,
               lanes := match spare with
                 | some l => Tbl.upd Lane.reset lanes (9 + l) fun x => { x with st := 0, logical := logical }
                 | none => lanes }
    (s.setFlag (lnOp k) 1).logEv "LANE_SPARED" 1 k 0xFF [(1, lane)]

/-- A well-formed frame of one type arrives at a port in ACTIVE; a malformed one is discarded and counted. -/
def State.frameIn (s : State) (k ty : Nat) (f : Frame) (body : State → State) : State :=
  if f.malformed || f.ty != ty then s.modPort k fun p => { p with frameErr := sat32 (p.frameErr + 1) }
  else if (s.port k).st = stActive then body s
  else s

/-- The fields of an IDLE or DATA frame that acknowledge and give credit. -/
def State.frameAck (s : State) (k : Nat) (f : Frame) : State :=
  ((s.modPort k fun p => (if f.ackv then p.takeAck f.ack else p).takeCredit f.cvc f.cred).sparingDone k).portPump k

/-- The last SEQ accepted (R760). -/
def Port.lastSeq (p : Port) : Nat := (p.expected + 4095) % 4096

/-- A DATA frame (R758 to R760): accepted, ahead, or a duplicate. -/
def execDataFrame (k : Fin 24) (f : Frame) (s : State) : Out :=
  .next <| s.frameIn k frData f fun s =>
    let s := s.frameAck k f
    let p := s.port k
    let d := (f.seq + 4096 - p.expected) % 4096
    if d = 0 then
      let s := s.modPort k fun p =>
        { p with expected := (p.expected + 1) % 4096, accepted := true, lastNak := none,
                 freed0 := if f.vc then p.freed0 else (p.freed0 + 1) % 4096,
                 freed1 := if f.vc then (p.freed1 + 1) % 4096 else p.freed1 }
      s.emit (.frame k frIdle (s.port k).lastSeq)
    else if d ≤ 2048 then
      let quiet := match p.lastNak with
        | some (e, t) => e == p.expected && decide (s.timeNs < t + 1000)
        | none => false
      if quiet then s
      else (s.modPort k fun p => { p with lastNak := some (p.expected, s.timeNs), naks := sat32 (p.naks + 1) }).emit (.frame k frNak p.expected)
    else s.emit (.frame k frIdle p.lastSeq)

/-- An IDLE frame (R754, R761). -/
def execIdleFrame (k : Fin 24) (f : Frame) (s : State) : Out := .next (s.frameIn k frIdle f fun s => s.frameAck k f)

/-- Resend every frame not acknowledged, in order. -/
def State.resend (s : State) (k : Nat) : State := (s.port k).unacked.foldl (fun s f => s.emit (.frame k frData f.seq)) s

/-- A NAK for n frees every frame before n, and resends from n on (R761). -/
def execNakFrame (k : Fin 24) (f : Frame) (s : State) : Out :=
  .next <| s.frameIn k frNak f fun s =>
    let s := s.modPort k fun p => p.takeCredit f.cvc f.cred
    let p := s.port k
    match p.unacked.findIdx? fun x => x.seq == f.ack with
    | some i => ((s.modPort k fun p => { p with unacked := p.unacked.drop i }).resend k).portPump k
    | none => if f.ack = p.nextSeq then (s.modPort k fun p => { p with unacked := [] }).portPump k else s.portPump k

/-- A LANEMAP frame: the failed lane's logical lane moves onto the spare, once for each EPOCH (R776). -/
def execLanemapFrame (k : Fin 24) (f : Frame) (s : State) : Out :=
  .next <| s.frameIn k frLanemap f fun s =>
    let s := (s.modPort k fun p => p.takeCredit f.cvc f.cred).portPump k
    let p := s.port k
    let lane := f.ctl % 16
    let epoch := f.ctl / 16
    if p.mapEpoch = some epoch ∨ 9 ≤ lane then s
    else match (List.range 9).find? fun l => (Tbl.get Lane.reset p.lanes l).st == 1 with
      | none => s
      | some sp =>
        let logical := (Tbl.get Lane.reset p.lanes lane).logical
        (s.modPort k fun p =>
          { p with mapEpoch := some epoch, spareTx := true,
                   lanes := Tbl.upd Lane.reset (Tbl.upd Lane.reset p.lanes lane fun x => { x with st := 2 }) sp
                     fun x => { x with st := 0, logical := logical } }).setFlag (lnOp k) 1

/-- The highest common protocol version of an offer, 0 for none (R769). -/
def commonVersion (versions : Nat) : Nat := if bitN versions 1 then 2 else if bitN versions 0 then 1 else 0

/-- A TRAIN frame: in EXCHANGE an offer or an acceptance, checked under R769; in ACTIVE the partner has
restarted (R764). The payload's fields are those of R768 in order: VERSIONS, ROLE, PLANE, PORT, PLACE,
CRED_VC0, CRED_VC1, STAMP, ECHO, STEP. -/
def execTrainFrame (k : Fin 24) (f : Frame) (s : State) : Out :=
  .next <|
    if f.malformed || f.ty != frTrain then s.modPort k fun p => { p with frameErr := sat32 (p.frameErr + 1) }
    else if (s.port k).st = stActive then
      let p := s.port k
      ((s.leaveActive k stExchange).modPort k fun q => { q with spareTx := p.spareTx, spareRx := p.spareRx }).emit (.frame k frTrain 0)
    else if (s.port k).st ≠ stExchange then s
    else
      let g := fun i => f.payload.getD i 0
      let hall := s.hallPort k
      let roleOk := if hall then g 1 == 3 else g 1 == 2 && g 2 == s.planeOfPort k
      let v := commonVersion (g 0)
      let verOk := v == 2 || (hall && v == 1)
      let credOk := decide (1 ≤ g 5 ∧ g 5 ≤ 1024 ∧ 1 ≤ g 6 ∧ g 6 ≤ 1024)
      let rtt := (s.timeNs % 2 ^ 32 + 2 ^ 32 - g 8) % 2 ^ 32
      let rttOk := g 8 == 0 || decide (rtt ≤ 6000)
      if !(roleOk && verOk && credOk && rttOk) then
        let s := s.trainFail k
        if roleOk then s else s.logEv "PORT_MISWIRED" 1 k 0xFF []
      else
        let s := s.modPort k fun p => { p with echo := g 7 }
        if g 8 = 0 then s
        else
          let s := (s.modPort k fun p => { p with stepSent := true }).emit (.frame k frTrain 1)
          if g 9 = 1 then s.enterActive k (rtt / 10) v (g 5) (g 6) (g 3) else s

/-- A frame that is not to be used: a bad CRC, or a malformed header; codewords that could not be corrected
are counted with it (R744, R751). -/
def execBadFrame (k : Fin 24) (crc : Bool) (codewords : Nat) (s : State) : Out :=
  .next <| s.modPort k fun p =>
    { p with crcErr := if crc then sat32 (p.crcErr + 1) else p.crcErr,
             frameErr := if crc then p.frameErr else sat32 (p.frameErr + 1),
             fecUncorr := sat32 (p.fecUncorr + codewords) }

/-- No acknowledgement progress for the round trip plus 1 µs (R762). -/
def execReplayTimeout (k : Fin 24) (s : State) : Out :=
  .next <| if (s.port k).st = stActive ∧ (s.port k).unacked ≠ [] then
    (s.modPort k fun p => { p with replays := sat32 (p.replays + 1) }).resend k else s

/-- No acknowledgement progress for the round trip plus 3 µs (R763). -/
def execLinkDownTimeout (k : Fin 24) (s : State) : Out :=
  .next <| if (s.port k).st = stActive ∧ (s.port k).unacked ≠ [] then s.portOut k else s

/-! ### Training (R765 to R772) -/

/-- DETECT succeeds; a return of light clears the failures (R766, R772). -/
def execDetectSuccess (k : Fin 24) (s : State) : Out :=
  .next <| if (s.port k).st ≠ stDetect then s
  else (s.modPort k fun p => { p with fails := if p.lightLost then 0 else p.fails, lightLost := false }).setPortSt k stAlign

/-- A step of training times out (R766, R770). -/
def State.stepTimeout (s : State) (k st : Nat) : State := if (s.port k).st = st then s.trainFail k else s

/-- DETECT times out (R766). -/
def execDetectTimeout (k : Fin 24) (s : State) : Out := .next (s.stepTimeout k stDetect)
/-- ALIGN times out (R766). -/
def execAlignTimeout (k : Fin 24) (s : State) : Out := .next (s.stepTimeout k stAlign)
/-- EXCHANGE times out (R766). -/
def execExchangeTimeout (k : Fin 24) (s : State) : Out := .next (s.stepTimeout k stExchange)

/-- The physical lanes of one direction after ALIGN: the eight lowest good lanes carry logical lanes 0 to 7,
a ninth is the spare, the others have failed (R766, R780). -/
def alignLanes (base good : Nat) (lanes : Tbl Lane) : Tbl Lane :=
  (List.range 9).foldl (fun t l =>
    let before := ((List.range l).filter fun j => bitN good j).length
    Tbl.upd Lane.reset t (base + l) fun x =>
      if !(bitN good l) then { x with st := 2 }
      else if before < 8 then { x with st := 0, logical := before }
      else { x with st := 1, logical := 8 }) lanes

/-- ALIGN succeeds on at least eight good lanes in each direction (R766). -/
def execAlignSuccess (k : Fin 24) (goodTx goodRx : Fin 512) (s : State) : Out :=
  .next <|
    let count := fun (g : Nat) => ((List.range 9).filter fun l => bitN g l).length
    if (s.port k).st ≠ stAlign ∨ count goodTx < 8 ∨ count goodRx < 8 then s
    else ((s.modPort k fun p => { p with lanes := alignLanes 9 goodRx (alignLanes 0 goodTx p.lanes), spareTx := false,
                                         spareRx := false, stepSent := false, echo := 0 }).setPortSt k stExchange).emit (.frame k frTrain 0)

/-- The wait of BACKOFF ends (R770); a retry of a port whose module is being replaced is deferred (R791). -/
def execBackoffExpiry (k : Fin 24) (s : State) : Out :=
  .next <| if (s.port k).st ≠ stBackoff then s
  else if s.retrainDeferred k then s.modPort k fun p => { p with deferred := true }
  else s.portStart k

/-- A probe from DARK (R771, R791). -/
def execDarkProbe (k : Fin 24) (s : State) : Out :=
  .next <| if (s.port k).st ≠ stDark then s
  else if s.retrainDeferred k then s.modPort k fun p => { p with deferred := true }
  else s.portStart k

/-! ### Fibre and light (R773, R774) -/

/-- A port connector's fibre-detect is lost (R773). -/
def execFibreOut (k : Fin 24) (s : State) : Out :=
  .next <| if !(s.port k).fibre then s
  else
    let s := ((s.modPort k fun p => { p with fibre := false }).setFlag (lnOp k) 2).setFlag lnLs 1
    let s := if (s.port k).st = stOff then s else (s.leaveActive k stFibreOut).logEv "FIBRE_OUT" 1 k 0xFF []
    s.clearService 1 k

/-- A mating of a receptacle (R798). -/
def State.mated (s : State) (r : Nat) : State :=
  { s with optics := { s.optics with matings := Tbl.upd 0 s.optics.matings r fun n => satTo 65535 (n + 1) } }

/-- Fibre-detect has been present for 100 ms (R772, R773). -/
def execFibreIn (k : Fin 24) (s : State) : Out :=
  .next <| if (s.port k).fibre then s
  else
    let s := (((s.modPort k fun p => { p with fibre := true, fails := 0 }).mated k).setFlag (lnOp k) 2).setFlag lnLs 1
    let s := s.logEv "FIBRE_IN" 1 k 0xFF []
    if (s.port k).st = stFibreOut then s.portStart k else s

/-- No light on any receive lane for 100 µs (R774). -/
def execLightLoss (k : Fin 24) (s : State) : Out :=
  .next <| let st := (s.port k).st
    if st = stActive ∨ st = stAlign ∨ st = stExchange then (s.modPort k fun p => { p with lightLost := true }).portOut k
    else s.modPort k fun p => { p with lightLost := true }

/-! ### Lanes (R775 to R780) -/

/-- A receive lane is failing: sparing by LANEMAP, or the port leaves ACTIVE (R776, R779). -/
def execLaneFailing (k : Fin 24) (lane : Fin 9) (s : State) : Out :=
  .next <|
    let p := s.port k
    if p.st ≠ stActive ∨ (Tbl.get Lane.reset p.lanes (9 + lane)).st ≠ 0 ∨ (p.sparing.map (·.1)) = some lane.val then s
    else
      let s := s.setFlag (lnOp k) 1
      if p.sparing.isSome || !((List.range 9).any fun l => (Tbl.get Lane.reset p.lanes (9 + l)).st == 1) then s.portOut k
      else
        let e := (p.epoch + 1) % 16
        (s.modPort k fun p => { p with sparing := some (lane, e), epoch := e }).emit (.frame k frLanemap (e * 16 + lane))

/-- Frames do not decode under the new map within 20 µs (R776). -/
def execSparingTimeout (k : Fin 24) (s : State) : Out := .next (if (s.port k).sparing.isSome then s.portOut k else s)

/-- A spare on standby fails (R778): lanes 0 to 8 transmit, 9 to 17 receive. -/
def execLaneFailed (k : Fin 24) (lane : Fin 18) (s : State) : Out :=
  .next <| if (Tbl.get Lane.reset (s.port k).lanes lane).st ≠ 1 then s
  else ((s.modPort k fun p => { p with lanes := Tbl.upd Lane.reset p.lanes lane fun x => { x with st := 2 } }).setFlag (lnOp k) 1).logEv
    "LANE_FAILED" 1 k 0xFF [(1, lane)]

/-! ### Laser sources and modules (R781 to R791, R795) -/

/-- A port's sources change (R784, R787); a return of light clears the failures (R772). -/
def State.setSources (s : State) (k : Nat) (a b : Bool) : State :=
  let p := s.port k
  if p.srcA = a ∧ p.srcB = b then s
  else
    let s := (s.modPort k fun p => { p with srcA := a, srcB := b }).setFlag (lnOp k) 3
    if !(a || b) then (if p.st = stOff ∨ p.st = stFibreOut then s else s.leaveActive k stNoLight)
    else if p.st = stNoLight then (s.modPort k fun p => { p with fails := 0 }).portStart k
    else s

/-- A module's outputs stop or start working at every port it feeds. -/
def State.feedPorts (s : State) (m : Nat) (works : Bool) : State :=
  (portsOf m).foldl (fun s k => s.setSources k (if sourceA k = m then works else (s.port k).srcA)
    (if sourceB k = m then works else (s.port k).srcB)) s

/-- Set a module's state, with the flag of a change. -/
def State.setModuleSt (s : State) (m st : Nat) : State :=
  if (s.laser m).st = st then s else (s.modLaser m fun x => { x with st := st }).setFlag lnLs 0

def State.lsmEn (s : State) (m : Nat) (on : Bool) : State :=
  s.modPower fun w => { w with lsmEn := if on then Nat.lor w.lsmEn (2 ^ m) else w.lsmEn - (if bitN w.lsmEn m then 2 ^ m else 0) }

/-- A module is taken out whole (R786): it ends in state `st`. -/
def State.moduleFail (s : State) (m st : Nat) : State :=
  ((((s.lsmEn m false).setModuleSt m st).feedPorts m false).logEv "LASER_MODULE_FAILED" 2 m 0xFF []).raiseService 2 m

/-- The ports whose retraining waited for a module start (R791). -/
def State.releaseDeferred (s : State) (m : Nat) : State :=
  (portsOf m).foldl (fun s k => if (s.port k).deferred && !(s.retrainDeferred k) then (s.modPort k fun p => { p with deferred := false }).portStart k else s) s

/-- One source of a port fails (R785, R787). -/
def execLaserSourceFail (k : Fin 24) (b : Bool) (s : State) : Out :=
  .next (s.setSources k (if b then (s.port k).srcA else false) (if b then false else (s.port k).srcB))

/-- The 10 ms poll of a module: its powers, its temperature, whether it alarms or has lost an output
(R781, R786). -/
def execLaserPoll (m : Fin 6) (powers : List Int) (temp10 : Int) (alarm lost : Bool) (s : State) : Out :=
  .next <|
    let st := (s.laser m).st
    if st = 1 ∨ st = 2 ∨ st = 5 ∨ st = 6 then
      let s := s.modLaser m fun x => { x with powers := powers, temp10 := temp10 }
      if (st = 1 ∨ st = 2 ∨ st = 5) ∧ (alarm || lost || decide (700 < temp10)) then s.moduleFail m 3 else s
    else s

/-- A module leaves its cage (R788, R789). -/
def execLaserModulePull (m : Fin 6) (s : State) : Out :=
  .next <| if !(s.laser m).present then s
  else
    let st := (s.laser m).st
    let s := s.modLaser m fun x => { x with present := false }
    if st = 1 ∨ st = 2 ∨ st = 5 then s.moduleFail m 0 else s.setModuleSt m 0

/-- Identification of a module, and what follows (R782, R790); before stage 4 its outputs stay off
(R891). -/
def State.moduleStart (s : State) (m : Nat) (ok : Bool) (vendor : Nat) : State :=
  let s := s.modLaser m fun x => { x with vendor := vendor }
  if !ok then
    (((s.lsmEn m false).setModuleSt m 4).logEv "LASER_REJECTED" 2 m 0xFF []).raiseService 2 m
  else if s.start.stage < 3 then s.setModuleSt m 0
  else if !(s.laser m).feed then (s.setModuleSt m 7).raiseService 2 m
  else (s.lsmEn m true).setModuleSt m 1

/-- A module has been present for 100 ms (R790). `ok` says its identification meets R782. -/
def execLaserModuleInsert (m : Fin 6) (ok : Bool) (vendor : Nat) (s : State) : Out :=
  .next <| if (s.laser m).present then s
  else (s.modLaser m fun x => { x with present := true, insertions := satTo 65535 (x.insertions + 1) }).moduleStart m ok vendor

/-- A module's outputs reach their set-points (R790, R791). -/
def execLaserSetpointReached (m : Fin 6) (s : State) : Out :=
  .next <| if (s.laser m).st ≠ 1 then s
  else (((((s.modLaser m fun x => { x with evac := false }).setModuleSt m 2).feedPorts m true).clearService 2 m).evacEnds m).releaseDeferred m

/-- A laser-feed connector's fibre-detect is lost (R795). -/
def execFeedOut (m : Fin 6) (s : State) : Out :=
  .next <| if !(s.laser m).feed then s
  else
    let st := (s.laser m).st
    let s := (s.modLaser m fun x => { x with feed := false }).setFlag lnLs 1
    if st = 1 ∨ st = 2 ∨ st = 5 then s.moduleFail m 7 else s

/-- A laser-feed contact has been present for 100 ms (R795). -/
def execFeedIn (m : Fin 6) (ok : Bool) (vendor : Nat) (s : State) : Out :=
  .next <| if (s.laser m).feed then s
  else
    let s := ((s.modLaser m fun x => { x with feed := true }).mated (24 + m)).setFlag lnLs 1
    if (s.laser m).st = 7 then s.moduleStart m ok vendor else s

/-- Evacuate a module (R788, R943): a training of a port it feeds stops and waits, ports without another
source leave service, the outputs go off, and the module is SAFE. -/
def State.evacuate (s : State) (m : Nat) : State :=
  let s := (s.modLaser m fun x => { x with evac := true }).setModuleSt m 5
  let s := (portsOf m).foldl (fun s k =>
    if (s.port k).training then ((s.modPort k fun p => { p.clearLink with deferred := true }).setPortSt k stBackoff) else s) s
  (((s.feedPorts m false).lsmEn m false).setModuleSt m 6).logEv "LASER_EVACUATED" 2 m 0xFF []

/-- End a running evacuation by cancelling it (R946): the module goes on as R790 gives from its step 3, and
the retrainings of its ports start. -/
def State.evacCancel (s : State) (m : Nat) : State :=
  let s := s.modLaser m fun x => { x with evac := false }
  let x := s.laser m
  let s := if x.present && (x.st == 5 || x.st == 6) then
      if x.feed then (s.lsmEn m true).setModuleSt m 1 else (s.setModuleSt m 7).raiseService 2 m
    else s
  (s.evacEnds m).releaseDeferred m

/-- A request to evacuate a module that the package itself makes (R1094, R1096): it joins one that runs or
waits, waits behind one that it conflicts with, or runs. -/
def State.requestEvac (s : State) (m : Nat) : State :=
  if (s.laser m).evac || s.evacQueued m then s
  else if s.actBlocked .evac (evacRes m) s.sunas.nextTicket then
    (s.newTicket ⟨0, 0x0303, 0, .evac, evacRes m, 64, [], [], true⟩).2
  else s.evacuate m

end Sys2Proof.Machine
end

