-- ==== Sys2Proof/Machine/Islands.lean ====
section
/-!
DEFINITION. The clock islands (R37 to R55, R1116), the events that stop them, and the bookkeeping of the
staged start (R888 to R918).
-/
namespace Sys2Proof.Machine

open Sys2Proof

def islCores : Nat := 8
def islScarab : Nat := 9
def islCricket : Nat := 12

/-- A number in two's complement (R1115). -/
def twos (bytes : Nat) (i : Int) : Nat := ofSigned (8 * bytes) i

/-- An island whose clock Scarab may change (R54). -/
def varClock (i : Nat) : Bool := decide (i < 4) || i == islCores

/-- The floor of a variable clock (R38, R39). -/
def floorClock (i : Nat) : Nat := if i = islCores then 1600 else 800

/-- The clock an island is set to, in MHz (R37, R39, R1082). -/
def State.setClock (s : State) (i : Nat) : Nat :=
  if i < 4 then (let c := (s.tile i).capMhz; if c = 0 then s.start.tillerMhz else min c s.start.tillerMhz)
  else if i < 8 then 1250
  else if i = islCores then 3200
  else if i = islScarab then 800
  else if i < islCricket then 1600
  else 250

/-- An island starts at its set clock. -/
def State.islandUp (s : State) (i : Nat) : State :=
  let c := s.setClock i
  s.modIsland i fun x => { Island.reset with up := true, mhz := c, setMhz := c, mv := x.mv, temp := x.temp }

/-- Memory that may have changed at any of its bytes: those that were held only in a lost cache (R994). -/
def State.disturb (s : State) (lo hi : Nat) : State :=
  { s with mem := ((Config.freeBytes s.freeCtr).filter fun c => decide (lo ≤ c.1 ∧ c.1 < hi)).foldl
             (fun m c => Memory.write m c.1 c.2) s.mem,
           freeCtr := s.freeCtr + 1 }

/-! ### Stages -/

/-- The stages go on: power is good, the latch is closed, REFCLK runs, nothing holds or has failed the
start (R889, R895, R912, R914). -/
def State.startRuns (s : State) : Bool :=
  s.power.pwrgd && s.power.latchClosed && !s.power.resetLow && s.power.refclk && !s.power.trip && s.start.begun && !s.start.failed &&
  !s.log.halted && !s.log.restarting

/-- The next stage is stage k and may complete. -/
def State.atStage (s : State) (k : Nat) : Bool := s.startRuns && s.start.stage + 1 == k

/-- Stage k completes (R918, R919). -/
def State.stageDone (s : State) (k : Nat) : State :=
  let us := (s.timeNs - s.start.origin) / 1000
  ((s.modStart fun x => { x with stage := k, failed := false, reason := 0, doneAt := Tbl.set x.doneAt k us }).setFlag lnSt fStStage).logEv
    "START_STAGE" 5 0 0xFF [(1, k), (4, us % 2 ^ 32)]

/-- Stage k fails (R912). -/
def State.stageFail (s : State) (k reason : Nat) : State :=
  ((s.modStart fun x => { x with failed := true, reason := reason }).setFlag lnSt fStFail).logEv
    "START_FAIL" 5 0 0xFF [(1, k), (1, reason)]

/-! ### Everything but Scarab and Cricket stops (R915, R989) -/

/-- An array that loses its supply keeps its repairs and its counters (R158, R161, R173). -/
def Arr.stopped (a : Arr) : Arr :=
  { Arr.reset with retired := a.retired, pchkMismatch := a.pchkMismatch, pchkRetryOk := a.pchkRetryOk,
                   remapEvents := a.remapEvents, acmCe := a.acmCe, acmUe := a.acmUe, rowsFree := a.rowsFree,
                   colsFree := a.colsFree, repairMap := a.repairMap }

/-- A Tiller that loses its supply keeps its repairs and the counters that only power-on resets. -/
def Tile.stopped (t : Tile) : Tile :=
  { Tile.reset with arrays := Tbl.mapVal (fun _ a => a.stopped) t.arrays, entriesDone := t.entriesDone,
                    entriesFailed := t.entriesFailed, veDone := t.veDone, veFailed := t.veFailed, bankMap := t.bankMap,
                    spareBanks := t.spareBanks, retiredBanks := t.retiredBanks }

/-- A stack without supply keeps its repairs, its retirement table and its counters. -/
def Stack.stopped (k : Stack) : Stack :=
  { Stack.reset with vendor := k.vendor, ce := k.ce, ue := k.ue, retired := k.retired, fenced := k.fenced,
                     journal := k.journal, modeRegs := k.modeRegs }

/-- A port without supply is OFF; its fibre and its counters stay. -/
def Port.stopped (p : Port) : Port :=
  { Port.reset with fibre := p.fibre, crcErr := p.crcErr, frameErr := p.frameErr, fecUncorr := p.fecUncorr,
                    replays := p.replays, naks := p.naks, trainFail := p.trainFail }

/-- A core without supply is held or lost. -/
def Core.stopped (h : Nat) (c : Core) : Core := { Core.reset h with phys := c.phys, spart := c.spart, st := if c.st = 2 then 2 else 1 }

/-- Register blocks of the Scarab and Cricket islands keep their registers: the start block and the blocks of
lines 76 and above (DESIGN CHOICE, log entry 13). -/
def keptLine (ln : Nat) : Bool := ln == lnSt || 76 ≤ ln

def Regs.stopped (r : Regs) : Regs :=
  { ctrl := r.ctrl.filter fun x => keptLine x.1, flags := r.flags.filter fun x => keptLine x.1,
    index := r.index.filter fun x => keptLine (x.1 / 2), latch := r.latch.filter fun x => keptLine x.1 && decide (x.1 < 150), route := [] }

/-- The islands other than Scarab and Cricket stop: work in progress ends without a report, ports are OFF and
every LSM_EN is low (R891, R915, R989). -/
def State.stopAll (s : State) : State :=
  { s with
    tiles := Tbl.mapVal (fun _ t => t.stopped) s.tiles,
    hbm := { Hbm.reset with stack := Tbl.mapVal (fun _ k => k.stopped) s.hbm.stack },
    views := [], parts := [], husks := [],
    regs := s.regs.stopped,
    net := { Net.reset with nextOp := s.net.nextOp, unconfirmed := s.net.unconfirmed, timeouts := s.net.timeouts,
                            respreads := s.net.respreads, retransmits := s.net.retransmits, connFailed := s.net.connFailed },
    sunas := { s.sunas with mboxes := Tbl.mapVal (fun _ b => if b.st = 1 then { b with st := 0, wait := .none } else b) s.sunas.mboxes,
                            order := [], notify := none, tickets := [], verified := false, handOver := none },
    power := { s.power with islands := Tbl.mapVal (fun i x => if i = islScarab ∨ i = islCricket then x else Island.reset) s.power.islands,
                            lsmEn := 0, pkgEvac := false, pkgSafe := false },
    start := { s.start with stage := 0 },
    places := Places.reset,
    optics := { s.optics with ports := Tbl.mapVal (fun _ p => p.stopped) s.optics.ports, hallGroups := Optics.reset.hallGroups,
                              modules := Tbl.mapVal (fun _ m => { m with st := if m.st = 4 then 4 else 0, evac := false }) s.optics.modules },
    cores := { s.cores with core := Tbl.mapVal Core.stopped s.cores.core, coh := [] } }

/-- At stage 1 Scarab asks the rack controller for the records it holds (R1013). -/
def State.askPinned (s : State) : State :=
  { s with cricket := { s.cricket with askPinned := true, returned := [], returnDone := false } }

/-- Start again from stage 1, with budgets from now (R914, R919). -/
def State.restart1 (s : State) : State :=
  let s := s.stopAll.modLog fun l => { l with failureSeen := false, degradedSeen := false }
  (s.modStart fun x =>
    { x with stage := 0, begun := true, failed := false, reason := 0, fallback := false, origin := s.timeNs, extraMs := 0,
             doneAt := [(0, 0)], starts := sat32 (x.starts + 1), joinAsked := false }).askPinned.modPower fun w =>
    { w with railFault := false, refclkLost := false }

/-- A thermal trip (R1086 to R1088, R916): of an island or a stack at a temperature. -/
def State.thermTrip (s : State) (source idx : Nat) (temp : Int) : State :=
  if s.power.trip then s
  else
    let k := s.start.stage + 1
    let s := (((s.modPower fun w => { w with trip := true }).setFlag lnPw fPwThermal).ibi 4).logEv "THERMTRIP" source idx 0xFF
      [(1, idx), (4, twos 4 temp)]
    s.stopAll.stageFail (min k 5) 7

/-! ### Single islands -/

/-- The application-core island stops (R994): every partition is reset, the cores' state and the bytes held
only in their caches are lost, and the start goes on from stage 3. -/
def State.coresStop (s : State) : State :=
  let s := s.forN 8 fun s p => s.partReset p
  let s := (s.disturb 0 (2 ^ 39)).modIsland islCores fun _ => Island.reset
  let s := { s with cores := { s.cores with core := Tbl.mapVal Core.stopped s.cores.core, coh := [] } }
  let s := s.modNet fun n => { n with ops := n.ops.filter fun o => match o.src with
    | .core _ => false
    | _ => true }
  s.modStart fun x => { x with stage := min x.stage 2, doneAt := (Tbl.erase (Tbl.erase (Tbl.erase x.doneAt 3) 4) 5) }

/-- Stop one island's clock (R51, R55). -/
def State.stopIsland (s : State) (i : Nat) : State :=
  if i < 4 then s.tillerOffline i true
  else if i < 8 then ((s.stackLost (2 * (i - 4))).stackLost (2 * (i - 4) + 1)).modIsland i fun _ => Island.reset
  else if i = islCores then s.coresStop
  else if i = 10 ∨ i = 11 then
    let s := s.forN 12 fun s k => s.leaveActive (12 * (i - 10) + k) stOff
    s.modIsland i fun _ => Island.reset
  else s

/-- A record whose loss a repair must survive is written to the flash (R1002, R1010). -/
def State.pin (s : State) (kind unit value : Nat) : State :=
  s.modLog fun l => { l with pinnedQueue := l.pinnedQueue ++ [⟨kind, unit, value⟩] }

/-- Retire core h (R585 to R588, R992): a spare takes its number, held, or the number is lost. -/
def State.retireCore (s : State) (h : Nat) : State :=
  let phys := (s.core h).phys
  let spare := s.cores.spares.head?
  let s := { s with cores := { s.cores with retired := natInsert s.cores.retired phys, spares := s.cores.spares.tail } }
  let s := (s.modCore h fun c => match spare with
    | some q => { Core.reset h with phys := q, spart := c.spart, st := 1 }
    | none => { Core.reset h with phys := phys, spart := c.spart, st := 2 }).pin 2 h phys
  let s := ((s.setFlag lnAc 1).logEv "CORE_RETIRED" 4 h 0xFF [(1, h), (1, phys)]).notify 4 none [h, phys, b2n spare.isSome]
  if spare.isSome then s else s.raiseService 4 h

end Sys2Proof.Machine
end

