-- ==== Sys2Proof/Machine/Repair.lean ====
section
/-!
DEFINITION. Self-repair of arrays, scratchpad banks and HBM rows (R156 to R161, R463 to R475, R1001 to
R1006), and the HBM controllers' own events (R449, R450, R463 to R468).
-/
namespace Sys2Proof.Machine

open Sys2Proof

/-! ### Arrays -/

/-- The physical line that carries entry e of the repair map: its own, where no repair has moved it. The
checksum column's own line is physical column 512 (DESIGN CHOICE, log entry 16). -/
def ownLine (e : Nat) : Nat := if e < 128 then e else if e < 640 then e - 128 else 512
def Arr.phys (a : Arr) (e : Nat) : Nat := Tbl.get (ownLine e) a.repairMap e

/-- Map entry e to the next spare of its kind; none when no spare is left (R159). -/
def Arr.spareLine (a : Arr) (e : Nat) : Option Arr :=
  if e < 128 then
    if a.rowsFree = 0 then none
    else some { a with repairMap := Tbl.set a.repairMap e (132 - a.rowsFree), rowsFree := a.rowsFree - 1 }
  else if a.colsFree = 0 then none
  else some { a with repairMap := Tbl.set a.repairMap e (528 - a.colsFree), colsFree := a.colsFree - 1 }

/-- Map every defective entry to a spare, or none when the spares do not cover them. -/
def Arr.cover (a : Arr) : List Nat → Option Arr
  | [] => some a
  | e :: es => match a.spareLine e with
    | some b => Arr.cover b es
    | none => none

/-- Log the entries of a remap, eight to a record (R1115). -/
def State.logRemap (s : State) (n : Nat) : Nat → List Nat → State
  | 0, _ => s
  | _, [] => s
  | k + 1, es => State.logRemap (s.logPart "ARRAY_REMAP" 6 n 0xFF ((es.take 8).map fun e => (2, e))) n k (es.drop 8)

/-- Retire array a of Tiller t (R161); a Tiller with fewer than two working arrays goes offline (R57). -/
def State.arrRetire (s : State) (t a : Nat) : State :=
  let s := ((s.modArr t a fun x => { x with retired := true, repairing := false, rerun := none }).setFlag (lnArray t a) fMaRetired).logEv
    "ARRAY_RETIRED" 6 (4 * t + a) 0xFF []
  if s.workingArrays t < 2 then s.tillerOffline t true else s

/-- The built-in test of an array has found defective entries: they are remapped and recorded, or the array is
retired (R157 to R159). Without defects nothing changes. -/
def State.arrRepair (s : State) (t a : Nat) (defects : List Nat) : State :=
  if defects = [] then s
  else match (s.arr t a).cover defects with
    | none => s.arrRetire t a
    | some x =>
      let s := s.modArr t a fun _ => { x with remapEvents := sat32 (x.remapEvents + 1) }
      let s := defects.foldl (fun s e => s.pin 2 (4 * t + a) (e * 1024 + x.phys e)) s
      s.logRemap (4 * t + a) (defects.length / 8 + 1) defects

/-! ### Scratchpad banks -/

/-- Map a failing bank to a spare (R1003). -/
def State.bankSpare (s : State) (t b : Nat) : State :=
  ((s.modTile t fun x =>
    { x with bankMap := Tbl.set x.bankMap b (66 - x.spareBanks), spareBanks := x.spareBanks - 1,
             bankCes := Tbl.erase x.bankCes b, bankCopy := x.bankCopy.filter (· != b) }).pin 2 (16 + t) (b * 1024 + (66 - (s.tile t).spareBanks))).logEv
    "SPM_BANK_SPARED" 3 t 0xFF []

/-- The banks that waited while no spare was left are retired, one after another (R1004, R1006). -/
def State.bankNext (s : State) (t : Nat) : Nat → State
  | 0 => s
  | n + 1 => match (s.tile t).bankCopy with
    | b :: _ => if (s.tile t).spareBanks = 0 && (s.tile t).inService then State.bankNext (s.bankRetire t b) t n else s
    | [] => s

/-- The copy of a failing bank ends (R1003, R1006). -/
def execSpmBankCopy (t : Fin 4) (s : State) : Out :=
  .next <| match (s.tile t).bankCopy with
  | [] => s
  | b :: rest => (if (s.tile t).spareBanks = 0 then s else s.bankSpare t b).bankNext t (rest.length + 1)

/-! ### HBM rows (R468 to R475) -/

/-- The bank of a row, as pseudo-channel × 64 + bank. -/
def bankOfRow (r : Nat) : Nat := r / 16384
def Stack.sppr (k : Stack) (b : Nat) : Nat := Tbl.get k.spprAll k.spprFree b
def Stack.hppr (k : Stack) (b : Nat) : Nat := Tbl.get k.hpprAll k.hpprFree b

/-- The four 4 KiB pages of a row (R433). -/
def State.rowPages (s : State) (k r : Nat) : List Nat := (List.range 4).map fun i => alignDown 4096 (s.paOf k (rowSector r (8 * i)))

/-- Report a row to node software (R470, R940): the number of the report, 0 where it is only logged. -/
def State.reportRow (s : State) (k r : Nat) : Nat × State :=
  ((if s.sunas.notify.isSome then s.sunas.nextNote else 0), s.notify 1 none ([k, rowSector r 0] ++ s.rowPages k r))

/-- A stack whose retirement table is full is degraded (R473, R1007). -/
def State.stackFull (s : State) (k : Nat) : State :=
  if (s.stack k).retired.length = 4096 ∧ (s.stack k).st = 1 then
    ((s.setStackSt k 2).setFlag (lnHc k) fHcRetireFull).raiseService 0 k
  else s

/-- Retire a row (R470, R473). -/
def State.rowRetire (s : State) (k r : Nat) : State :=
  let rep := s.reportRow k r
  let s := rep.2.modStack k fun x => { x with failing := x.failing.filter (· != r) }
  if 4096 ≤ (s.stack k).retired.length then s.logEv "HBM_RETIRE_FULL" 0 k 0xFF []
  else
    let s := s.modStack k fun x => { x with retired := x.retired ++ [r], reported := x.reported ++ [(r, rep.1)] }
    (((s.pin 0 k r).setFlag (lnHc k) fHcRetire).logEv "HBM_ROW_RETIRED" 0 k 0xFF []).stackFull k

/-- Read every sector of a row, correcting and poisoning what it finds, while the stack serves. -/
def State.rowScan (s : State) (mf : MemFaults) (k r : Nat) : State :=
  (s.rowPas k r).foldl (fun s pa => if (s.stack k).serves then (s.readErr mf pa 32).2 else s) s

/-- Repair row r of stack k by soft repair, where its bank has a resource (R468, R469); otherwise it is
retired. -/
def State.rowRepair (s : State) (mf : MemFaults) (k r : Nat) : State :=
  let b := bankOfRow r
  if (s.stack k).sppr b = 0 then s.rowRetire k r
  else
    let s := s.rowScan mf k r
    if !((s.stack k).serves) then s
    else (((s.modStack k fun x =>
      { x with spprFree := Tbl.set x.spprFree b (x.sppr b - 1), journal := x.journal ++ [r], failing := x.failing.filter (· != r),
               rowCes := Tbl.erase x.rowCes r }).pin 1 k r)).logEv "HBM_ROW_REPAIRED" 0 k 0xFF []

/-- The repair granted for the oldest failing row of a stack ends. -/
def execHbmSoftRepair (k : Fin 8) (mf : MemFaults) (s : State) : Out :=
  .next <| match (s.stack k).failing with
  | r :: _ => if (s.stack k).serves then s.rowRepair mf k r else s
  | [] => s

/-- Fence a reported row (R470, R471). -/
def State.rowFence (s : State) (k r : Nat) : State :=
  s.modStack k fun x => { x with fenced := natInsert x.fenced r, reported := x.reported.filter fun q => q.1 != r }

/-- Ten seconds have passed since the report of a row (R470). -/
def execHbmRowFence (k : Fin 8) (row : Nat) (s : State) : Out :=
  .next <| if (s.stack k).reported.any fun q => q.1 == row then s.rowFence k row else s

/-- Patrol scrub reads one sector (R463 to R465): it waits while a repair runs on the stack. -/
def State.scrubOne (s : State) (mf : MemFaults) (k : Nat) : State :=
  let x := s.stack k
  if !(x.serves && x.scrubEnable) || x.repairing then s
  else
    let s := (s.readErr mf (s.paOf k (rowSector x.rowsDone x.scrubSector)) 32).2
    s.modStack k fun x =>
      if x.scrubSector < 31 then { x with scrubSector := x.scrubSector + 1 }
      else if x.rowsDone + 1 < 2 ^ 26 then { x with scrubSector := 0, rowsDone := x.rowsDone + 1 }
      else { x with scrubSector := 0, rowsDone := 0, passes := (x.passes + 1) % 64 }

/-- Patrol scrub reads the next `n` sectors. -/
def execHbmPatrolScrub (k : Fin 8) (n : Nat) (mf : MemFaults) (s : State) : Out := .next <| s.forN n fun s _ => s.scrubOne mf k

/-- A bank is refreshed (R466): nothing that a program reads changes. -/
def execHbmRefresh (_ : Fin 8) (_ : Fin 4096) (s : State) : Out := .next s

/-- The tokens of every regulator of a stack, brought up to now. -/
def Stack.settle (k : Stack) (now : Nat) : Stack :=
  { k with regs := Tbl.mapVal (fun _ r => { r with tokens := r.level now k.throttled, since := now }) k.regs }

/-- The controller reads its stack's temperature (R466, R467, R1086). -/
def execHbmTempRead (k : Fin 8) (temp : Fin 256) (s : State) : Out :=
  .next <|
    let hot := 95 ≤ temp.val && !(s.stack k).throttled
    let s := s.modStack k fun x =>
      let x := { x.settle s.timeNs with temp := temp.val }
      { x with doubled := if 85 ≤ temp.val then true else if temp.val < 80 then false else x.doubled,
               throttled := if 95 ≤ temp.val then true else if temp.val < 90 then false else x.throttled }
    let s := if hot then (s.setFlag (lnHc k) fHcThermal).logEv "HBM_THERMAL" 0 k 0xFF [] else s
    if 105 ≤ temp.val then s.thermTrip 0 k temp.val else s

/-- The requests of a stack whose buckets hold their charge: the oldest of each partition (R449). -/
def Stack.ready (k : Stack) (now : Nat) : List (Nat × Nat) :=
  (List.range 8).filterMap fun p => match k.waiting.find? fun w => w.1 == p with
    | some w => if w.2 ≤ (k.reg p).level now k.throttled then some w else none
    | none => none

/-- The request served next (R450): partitions below their guaranteed share of the epoch first, the rest in
turn after the last one served. -/
def Stack.choose (k : Stack) (now : Nat) : Option (Nat × Nat) :=
  let all := k.ready now
  let total := (k.regs.map fun r => r.2.epochBytes).sum
  match all.find? fun w => decide ((k.reg w.1).epochBytes * 256 < (k.reg w.1).guar * total) with
  | some w => some w
  | none => match all.find? fun w => k.lastServed < w.1 with
    | some w => some w
    | none => all.head?

/-- A request that waited for tokens is granted (R449). -/
def execHbmRequestGrant (k : Fin 8) (s : State) : Out :=
  .next <| match (s.stack k).choose s.timeNs with
  | none => s
  | some w => s.modStack k fun x =>
      let r := (x.reg w.1).take s.timeNs x.throttled w.2
      { x with regs := Tbl.set x.regs w.1 { r with waits := sat32 (r.waits + 1) }, waiting := x.waiting.erase w, lastServed := w.1 }

/-- A regulator epoch ends (R450). -/
def execHbmEpoch (k : Fin 8) (s : State) : Out :=
  .next <| s.modStack k fun x => { x with regs := Tbl.mapVal (fun _ r => { r with epochBytes := 0 }) x.regs }

end Sys2Proof.Machine
end

