-- ==== Sys2Proof/Machine/Prologue.lean ====
section
/-!
DEFINITION. What the array operations share: the array modes (R111 to R113), the prologue descriptor (R216), the
checks and reads of array operands in the scratchpad, in HBM and through a view (R114 to R118, R217 to R234), and
taking an operation from an array's queue (R135, R162, R404).
-/
namespace Sys2Proof.Machine

open Sys2Proof

/-! ### Array modes -/

/-- K_pass of a format on its own (R111); none for a format that is no array operand (R113). -/
def Fmt.kPass : Fmt → Option Nat
  | .fp32 => some 64
  | .fp16 => some 128 | .bf16 => some 128
  | .e4m3 => some 256 | .e5m2 => some 256 | .e3m2 => some 256 | .e2m3 => some 256 | .mxint8 => some 256
  | .e2m1 => some 512
  | .int8 => some 256
  | .fp64 => none | .int32 => none

/-- K_pass of a pairing (R112, R113): the smaller of the two; INT8 pairs only with INT8. -/
def pairKPass (a b : Fmt) : Option Nat :=
  if decide (a = .int8) != decide (b = .int8) then none
  else match a.kPass, b.kPass with
    | some x, some y => some (min x y)
    | _, _ => none

/-- Bytes of an operand row of k elements: whole blocks of an MX row (R114, R117). -/
def rowBytes (f : Fmt) (k : Nat) : Nat := if f.isMx then (k + 31) / 32 * (4 * f.bits) else k * (f.bits / 8)

/-- Scale bytes of an operand row (R115). -/
def rowScales (f : Fmt) (k : Nat) : Nat := if f.isMx then (k + 31) / 32 else 0

/-- Element codes of a packed row, from bit `lo` of its bytes (R74, R114). -/
def unpackFrom (w lo n : Nat) (bs : List Byte) : List Nat :=
  let x := leNat bs
  (List.range n).map fun i => x / 2 ^ (lo + w * i) % 2 ^ w

/-- An element of a tile as an exact value. -/
def BTile.elem (b : BTile) (f : Fmt) (k c : Nat) : FVal :=
  f.value (b.scales.getD (k / 32 * 512 + c) 0x7F) (b.elems.getD (k * 512 + c) 0)

/-! ### The prologue descriptor (R216) -/

def dw (d : List W64) (i : Nat) : Nat := (d.getD i 0).toNat
def pKind (d : List W64) : Nat := field (dw d 0) 1 0
def pMode (d : List W64) : Nat := field (dw d 0) 3 2
def pView (d : List W64) : Nat := field (dw d 0) 15 8
def pBase (d : List W64) (scale : Bool) : Nat := field (if scale then dw d 3 else dw d 1) 47 0
def pLimit (d : List W64) (scale : Bool) : Nat := field (if scale then dw d 4 else dw d 2) 39 0
def pIdxLimit (d : List W64) : Nat := field (dw d 5) 63 32
def pIdxBase (d : List W64) : Nat := field (dw d 5) 26 0

/-- Its reserved fields and reserved values (R214). -/
def pRsvd (d : List W64) : Bool :=
  field (dw d 0) 63 16 != 0 || field (dw d 0) 7 4 != 0 || pMode d == 3 || pKind d == 3 || field (dw d 1) 63 48 != 0 ||
  field (dw d 2) 63 40 != 0 || field (dw d 3) 63 48 != 0 || field (dw d 4) 63 40 != 0 || field (dw d 5) 31 27 != 0 ||
  dw d 6 != 0 || dw d 7 != 0

/-- Its regions leave HBM or the view window (R219). -/
def pLeaves (d : List W64) : Bool :=
  let top := if pKind d = 1 then 2 ^ 39 else 2 ^ 32
  pKind d != 0 && (decide (top < pBase d false + pLimit d false) || decide (top < pBase d true + pLimit d true))

/-! ### Checks and reads of a source -/

/-- Check a range at an offset of a path's element or scale region (R132, R218, R409). -/
def State.srcCheck (s : State) (t p : Nat) (d : List W64) (scale : Bool) (off : Int) (n : Nat) : Check :=
  if n = 0 then none
  else if off < 0 then some (F_BOUNDS, (off % 2 ^ 64).toNat)
  else
    let o := off.toNat
    let a := pBase d scale + o
    if pKind d = 0 then failIf (!(s.spmRangeOk t o n)) F_BOUNDS o
    else if pKind d = 1 then failIf (decide (pLimit d scale < o + n) || !(s.inPartHbm p a n)) F_BOUNDS a
    else failIf (decide (pLimit d scale < o + n) || !(s.viewReadOk p (pView d) a n)) F_BOUNDS (viewBase + pView d * 2 ^ 32 + a)

/-- Where an offset of a region lies: a memory key, or an offset in the view's window. -/
def pAbs (t : Nat) (d : List W64) (scale : Bool) (off : Int) : Nat :=
  if pKind d = 0 then spmBase t + off.toNat else pBase d scale + off.toNat

/-- Read ranges one after another. -/
def State.fetchRanges (s : State) (mf : MemFaults) (p : Nat) : List (Nat × Nat) → (Except Nat (List (List Byte))) × State
  | [] => (.ok [], s)
  | r :: rest => match s.load mf r.1 r.2 with
    | (.error g, s) => (.error g, s)
    | (.ok bs, s) => match State.fetchRanges (s.chargeHbm p false r.1 r.2) mf p rest with
      | (.ok l, s) => (.ok (bs :: l), s)
      | (.error g, s) => (.error g, s)

/-- Fetch ranges of a source: those of a view in one conversion of each block that they touch (R501). -/
def State.srcFetch (s : State) (mf : MemFaults) (p : Nat) (d : List W64) (rs : List (Nat × Nat)) : (Except Nat (List (List Byte))) × State :=
  if pKind d = 2 then
    let vd := s.view (pView d)
    let offs := rs.map fun r => (List.range r.2).map (r.1 + ·)
    match s.viewConvert mf (pView d) ((offs.flatten.flatMap (vUnitsAt vd)).dedup) with
    | (none, got, s) => (.ok (offs.map fun l => l.map (vByte vd got)), s)
    | (some g, _, s) => (.error g, s)
  else s.fetchRanges mf p rs

/-- An operand: its descriptor, format, and the four addresses of the instruction. -/
structure Source where
  d : List W64
  f : Fmt
  base : Nat
  stride : Int
  sbase : Nat
  sstride : Int

/-- The offset of a row's elements or scales. -/
def Source.at (o : Source) (scale : Bool) (i : Nat) : Int :=
  if scale then o.sbase + i * o.sstride else o.base + i * o.stride

/-- The operand of an instruction's registers. -/
def sourceOf (d : List W64) (f : Fmt) (e : QEntry) : Source :=
  let m := fmtM e.word
  ⟨d, f, gaddr e.g m.ra, gstride e.g m.rb, gaddr e.g m.rc, gstride e.g m.rd⟩

/-- The alignment of element addresses (R116, R218). -/
def Source.alignCheck (o : Source) : Check :=
  let base := (if pKind o.d = 0 then 0 else pBase o.d false) + o.base
  failIf (decide (base % 32 ≠ 0) || decide (o.stride % 32 ≠ 0)) F_ALIGN o.base

/-- The checks of `rows` rows of k elements, given by row numbers (none: a zero row). -/
def State.rowChecks (s : State) (t p : Nat) (o : Source) (k : Nat) (rows : List (Option Nat)) : List Check :=
  rows.flatMap fun r => match r with
    | none => []
    | some i => [s.srcCheck t p o.d false (o.at false i) (rowBytes o.f k), s.srcCheck t p o.d true (o.at true i) (rowScales o.f k)]

/-- The checks of a transposed operand: k stored rows of n elements, their scale rows of n bytes (R225 to R227). -/
def State.transChecks (s : State) (t p : Nat) (o : Source) (k n : Nat) : List Check :=
  ((List.range k).map fun i => s.srcCheck t p o.d false (o.at false i) ((n * o.f.bits + 7) / 8)) ++
  (if o.f.isMx then (List.range ((k + 31) / 32)).map fun j => s.srcCheck t p o.d true (o.at true j) n else [])

/-- The check of a view source's format and axis (R223). -/
def State.viewFmtCheck (s : State) (o : Source) : Check :=
  let vd := s.view (pView o.d)
  failIf (pKind o.d == 2 && (vTgtCode vd != o.f.code || (o.f.isMx && (vAxis vd != (pMode o.d == 1))))) F_VIEW_FMT (pView o.d)

/-- The row numbers an operand uses: in order, or from the index list read at issue (R229 to R233); with the
checks of the list and of each index. -/
def State.readIdx (s : State) (mf : MemFaults) (t : Nat) (d : List W64) (first n : Nat) : List (Option Nat) × List Check × State :=
  if pMode d ≠ 2 then ((List.range n).map some, [], s)
  else
    let list := pIdxBase d + 4 * first
    if !(s.spmRangeOk t list (4 * n)) then ([], [some (F_BOUNDS, list)], s)
    else
      let (ix, s) := s.readIndices mf t list 0 n
      let checks := failIf (decide (pIdxBase d % 4 ≠ 0)) F_ALIGN (pIdxBase d) :: ix.map fun x => match x with
        | .error g => some (F_SPM_ECC, g - spmBase t)
        | .ok v => failIf (v != 0xFFFFFFFF && decide (0x80000000 ≤ v ∨ pIdxLimit d ≤ v)) F_BOUNDS v
      (ix.filterMap fun x => match x with
        | .ok v => some (if v = 0xFFFFFFFF then none else some v)
        | .error _ => none, checks, s)

/-- A row of k elements: its codes and its scale codes (R114, R115, R231). -/
def State.fetchRow (s : State) (mf : MemFaults) (t p : Nat) (o : Source) (k : Nat) (r : Option Nat) :
    (Except Nat (List Nat × List Nat)) × State :=
  match r with
  | none => (.ok (List.replicate k 0, List.replicate (rowScales o.f k) 0x7F), s)
  | some i =>
    match s.srcFetch mf p o.d [(pAbs t o.d false (o.at false i), rowBytes o.f k), (pAbs t o.d true (o.at true i), rowScales o.f k)] with
    | (.ok [bs, ss], s) => (.ok (unpackFrom o.f.bits 0 k bs, ss.map (·.toNat)), s)
    | (.ok _, s) => (.ok ([], []), s)
    | (.error g, s) => (.error g, s)

/-- Column i of k stored rows: element i of each, and byte i of each scale row (R226, R227). -/
def State.fetchCol (s : State) (mf : MemFaults) (t p : Nat) (o : Source) (k i : Nat) :
    (Except Nat (List Nat × List Nat)) × State :=
  let lo := i * o.f.bits
  let n := (lo + o.f.bits + 7) / 8 - lo / 8
  let nb := rowScales o.f k
  match s.srcFetch mf p o.d (((List.range k).map fun j => (pAbs t o.d false (o.at false j) + lo / 8, n)) ++
      ((List.range nb).map fun j => (pAbs t o.d true (o.at true j) + i, 1))) with
  | (.ok l, s) => (.ok ((l.take k).map fun bs => (unpackFrom o.f.bits (lo % 8) 1 bs).headD 0, (l.drop k).map leNat), s)
  | (.error g, s) => (.error g, s)

/-! ### Taking an operation from an array's queue -/

/-- Start the built-in test of an array (R157). -/
def State.startTest (s : State) (t a : Nat) : State :=
  (s.modArr t a fun x => { x with repairing := true, testDue := false }).logEv "ARRAY_ABIST" 6 (4 * t + a) 0xFF []

/-- An operation boundary: a test that was asked for starts (R157). -/
def State.arrBoundary (s : State) (t a : Nat) : State :=
  if (s.arr t a).testDue && !(s.arr t a).retired then s.startTest t a else s

/-- An operation of an array fails. -/
def State.failArr (s : State) (t a : Nat) (e : QEntry) (code done info : Nat) : State :=
  (s.failEntry t a e code done info false).arrBoundary t a

/-- The fields of an array operation that must be 0, as one number of each. -/
def anySet (l : List Nat) : Bool := l.any (· != 0)

/-- Issue the head of an array's queue, where it is `op` and no test holds the array (R160): on a retired array it
fails (R162); `prep` reads what is read at issue and gives the checks; `run` performs it. -/
def State.takeArr {α : Type} (s : State) (t a op : Nat) (rsvd : FmtM → Bool)
    (prep : State → QEntry → FmtM → Nat → List Check × α × State) (run : State → QEntry → FmtM → Nat → α → State) : State :=
  if (s.arr t a).repairing then s
  else match s.popHead t a (· == op) with
    | none => s
    | some (e, s) =>
      let m := fmtM e.word
      let p := s.partOf t e
      if (s.arr t a).retired then s.failArr t a e F_ARRAY_LOST 0 0
      else
        let (checks, x, s) := prep s e m p
        match firstCheck ([failIf (m.rsvd != 0 || rsvd m) F_RSVD 0, failIf (!(bitN (s.part p).arrays (4 * t + a))) F_BOUNDS a] ++
            checks ++ [s.incCheck p m.ctr m.ri]) with
        | some (code, info) => (s.noteRefusal t (code, info)).failArr t a e code 0 info
        | none => run (s.activate t a e) e m p x

/-- Set the sticky flags of an array (R170, R247). -/
def State.arrFlags (s : State) (t a : Nat) (f : FFlags) : State :=
  ((s.setFlagIf f.nv (lnArray t a) fMaNv).setFlagIf f.of (lnArray t a) fMaOf).setFlagIf f.iov (lnArray t a) fMaIov

/-- The flags of several results. -/
def orFlags (l : List (Nat × FFlags)) : FFlags := l.foldl (fun a r => a.or r.2) FFlags.none

/-- The key of an accumulator word (R136) and of an FP64 element (R137). -/
def acmWord (t a bank row col : Nat) : Nat := acmKey t a (bank * 0x200000 + row * 0x800 + col * 4)
def acmDouble (t a bank row col : Nat) : Nat := acmKey t a (bank * 0x200000 + row * 0x1000 + col * 8)

/-- Cut bytes into numbers of n bytes. -/
def chunksOf (n count : Nat) (bs : List Byte) : List Nat := (List.range count).map fun i => leNat ((bs.drop (n * i)).take n)

/-- Read words of an accumulator row; none where one is uncorrectable. -/
def State.acmRead (s : State) (mf : MemFaults) (key w n : Nat) : Option (List Nat) × State :=
  match s.load mf key (w * n) with
  | (.ok bs, s) => (some (chunksOf w n bs), s)
  | (.error _, s) => (none, s)

/-- Write words of an accumulator row. -/
def State.acmWrite (s : State) (key w : Nat) (xs : List Nat) : State := s.poke key (xs.flatMap (leBytes w))

/-- Run rows in order: `row s i` answers the state with row i written, or the fault that stops the operation at it. -/
def State.runRows (t a : Nat) (e : QEntry) (base : Nat) (row : State → Nat → (Except Nat State) × State) : Nat → Nat → State → State
  | 0, _, s => s.arrBoundary t a
  | n + 1, i, s => match row s i with
    | (.ok s, _) => State.runRows t a e base row n (i + 1) s
    | (.error code, s) => s.failArr t a e code i (base + i)

end Sys2Proof.Machine
end

