-- ==== Sys2Proof/Machine/Arrays.lean ====
section
/-!
DEFINITION. The matrix arrays: loading tiles, passes and their check, MACM, the Sliced-64 fold and combine, the
queue condition, completion and the built-in test (spec/03_matrix_arrays.md, spec/04_sliced_fp64.md, R271 to R278).
-/
namespace Sys2Proof.Machine

open Sys2Proof

/-! ### MLDB (R119 to R127, R225, R230) -/

/-- The tile of stored rows: row n of the list is column n. -/
def tileOfCols (f : Fmt) (k nc : Nat) (cols : List (List Nat × List Nat)) : BTile :=
  ⟨f.code, k, nc,
   (List.range (k * 512)).map fun i => ((cols.getD (i % 512) ([], [])).1).getD (i / 512) 0,
   (List.range ((k + 31) / 32 * 512)).map fun i => ((cols.getD (i % 512) ([], [])).2).getD (i / 512) 0x7F⟩

/-- Fetch rows, or columns of a transposed operand, one after another. -/
def State.fetchAll (get : State → Nat → (Except Nat (List Nat × List Nat)) × State) : Nat → Nat → State →
    (Except Nat (List (List Nat × List Nat))) × State
  | 0, _, s => (.ok [], s)
  | n + 1, i, s => match get s i with
    | (.error g, s) => (.error g, s)
    | (.ok r, s) => match State.fetchAll get n (i + 1) s with
      | (.ok l, s) => (.ok (r :: l), s)
      | (.error g, s) => (.error g, s)

def mldbRsvd (m : FmtM) : Bool :=
  anySet [m.tout, m.srcArr, m.t, m.s, m.path, m.first, m.swap, m.acc, m.rowb, m.bank2, m.bank] || (Fmt.ofCode m.fmt).isNone ||
  match Fmt.ofCode m.fmt with
  | some f => f.kPass.isNone
  | none => true

/-- MLDB: loads the standby tile. -/
def execMldb (t a : Fin 4) (mf : MemFaults) (s : State) : Out :=
  .next <| s.takeArr t a 0x40 mldbRsvd
    (fun s e m p =>
      let f := (Fmt.ofCode m.fmt).getD .fp32
      let o := sourceOf (s.arr t a).prologueB f e
      let kMax := f.kPass.getD 512
      let counts := [failIf (decide (kMax < m.m)) F_BOUNDS m.m, failIf (decide (512 < m.nc)) F_BOUNDS m.nc]
      if m.m = 0 ∨ m.nc = 0 then (counts, (o, []), s)
      else if kMax < m.m ∨ 512 < m.nc then (counts ++ [o.alignCheck], (o, []), s)
      else if pMode o.d = 1 then
        (counts ++ [o.alignCheck, s.viewFmtCheck o] ++ s.transChecks t p o m.m m.nc, (o, []), s)
      else
        let (rows, ic, s) := s.readIdx mf t o.d 0 m.nc
        (counts ++ [o.alignCheck, s.viewFmtCheck o] ++ ic ++ s.rowChecks t p o m.m rows, (o, rows), s))
    (fun s e m p (o, rows) =>
      if m.m = 0 ∨ m.nc = 0 then s.arrBoundary t a
      else
        match State.fetchAll (fun s i => if pMode o.d = 1 then s.fetchCol mf t p o m.m i else s.fetchRow mf t p o m.m (rows.getD i none)) m.nc 0 s with
        | (.error g, s) => s.failArr t a e (eccCode g) 0 0
        | (.ok cols, s) => (s.modArr t a fun x => { x with standby := tileOfCols o.f m.m m.nc cols }).arrBoundary t a)

/-! ### MMUL (R108 to R110, R128 to R135, R150 to R157) -/

/-- One column of a pass: the prior value with the exact products (R99 to R101, R68, R126). -/
def passColumn (b : BTile) (f : Fmt) (codes : List Nat) (vals : List FVal) (prior c : Nat) : Nat × FFlags :=
  match Fmt.ofCode b.fmt with
  | none => (if f = .int8 ∨ prior ≠ 0x80000000 then prior else 0, FFlags.none)
  | some g =>
    if f = .int8 then passInt prior (codes.zipIdx.map fun x => toSigned 8 x.1 * toSigned 8 (b.elems.getD (x.2 * 512 + c) 0))
    else passRound (fp32.decode prior :: vals.zipIdx.map fun x => FVal.mul x.1 (b.elem g x.2 c))

/-- The values of a row of codes under its scales. -/
def rowVals (f : Fmt) (r : List Nat × List Nat) : List FVal := r.1.zipIdx.map fun x => f.value (r.2.getD (x.2 / 32) 0x7F) x.1

/-- A running MMUL. -/
structure MmulRun where
  e : QEntry
  p : Nat
  o : Source
  rows : List (Option Nat)

/-- The A row of a pass. -/
def State.fetchA (s : State) (mf : MemFaults) (t : Nat) (r : MmulRun) (k i : Nat) : (Except Nat (List Nat × List Nat)) × State :=
  if k = 0 then (.ok ([], []), s)
  else if pMode r.o.d = 1 then s.fetchCol mf t r.p r.o k i
  else s.fetchRow mf t r.p r.o k (r.rows.getD i none)

/-- A mismatch of a pass is counted and flagged. -/
def State.noteMismatch (s : State) (t a n : Nat) : State :=
  (s.modArr t a fun x => { x with pchkMismatch := sat32 (x.pchkMismatch + n) }).setFlag (lnArray t a) fMaPchk

/-- A transient: its re-run has checked correctly (R156); the sixteenth within 1 s asks for a test (R157). -/
def State.noteTransient (s : State) (t a : Nat) : State :=
  let now := s.timeNs
  s.modArr t a fun x =>
    let times := now :: x.transients.filter fun u => decide (now < u + 1000000000)
    if 16 ≤ times.length then { x with pchkRetryOk := sat32 (x.pchkRetryOk + 1), transients := [], testDue := true }
    else { x with pchkRetryOk := sat32 (x.pchkRetryOk + 1), transients := times }

/-- The operation in progress on an array is lost and the array retires (R161). -/
def State.loseArr (s : State) (t a : Nat) (e : QEntry) (done : Nat) : State :=
  (s.failEntry t a e F_ARRAY_LOST done ((fmtM e.word).rowb + done) false).arrRetire t a

/-- Run the passes left from pass i. `mism` lists the passes whose check mismatches, a pass once for each mismatch;
`post` says that pass i runs again after a built-in test. A pass that mismatches twice starts the test, one that
mismatches after it retires the array (*Pass check mismatch*, R159). -/
def State.runPasses (t a : Nat) (mf : MemFaults) (mism : List Nat) (r : MmulRun) : Nat → Nat → Bool → State → State
  | 0, _, _, s => s.arrBoundary t a
  | n + 1, i, post, s =>
    let m := fmtM r.e.word
    let b := (s.arr t a).active
    let row := m.rowb + i
    match s.fetchA mf t r b.kTile i with
    | (.error g, s) => s.failArr t a r.e (eccCode g) i row
    | (.ok A, s) =>
      match (if m.acc = 1 then s.acmRead mf (acmWord t a m.bank row 0) 4 b.nc else (some (List.replicate b.nc 0), s)) with
      | (none, s) => s.failArr t a r.e F_ACM_ECC i row
      | (some prior, s) =>
        let k := (mism.filter (· == i)).length
        let write := fun (s : State) =>
          let res := prior.zipIdx.map fun x => passColumn b r.o.f A.1 (rowVals r.o.f A) x.1 x.2
          ((s.acmWrite (acmWord t a m.bank row 0) 4 (res.map (·.1))).arrFlags t a (orFlags res))
        if k = 0 then State.runPasses t a mf mism r n (i + 1) false (write s)
        else if post then (s.noteMismatch t a 1).loseArr t a r.e i
        else if k = 1 then State.runPasses t a mf mism r n (i + 1) false (write ((s.noteMismatch t a 1).noteTransient t a))
        else ((s.noteMismatch t a 2).modArr t a fun x =>
          { x with rerun := some ⟨r.e.id, i, r.rows.map fun y => y.getD 0xFFFFFFFF, s.view (pView r.o.d)⟩ }).startTest t a

def mmulRsvd (m : FmtM) : Bool :=
  anySet [m.tout, m.srcArr, m.t, m.s, m.path, m.first, m.bank2, m.nc] || (Fmt.ofCode m.fmt).isNone

/-- The checks of an MMUL when it starts, after its swap (R112, R113, R131). -/
def mmulStart (b : BTile) (f : Fmt) : Option Nat :=
  match Fmt.ofCode b.fmt with
  | none => if f.kPass.isNone then some F_RSVD else none
  | some g => match pairKPass f g with
    | none => some F_RSVD
    | some k => if k < b.kTile then some F_BOUNDS else none

/-- MMUL: swaps the tiles where SWAP is set, and streams M rows through the active tile. -/
def execMmul (t a : Fin 4) (mf : MemFaults) (mism : List Nat) (s : State) : Out :=
  .next <| s.takeArr t a 0x41 mmulRsvd
    (fun s e m p =>
      let f := (Fmt.ofCode m.fmt).getD .fp32
      let o := sourceOf (s.arr t a).prologueA f e
      let b := if m.swap = 1 then (s.arr t a).standby else (s.arr t a).active
      let counts := [failIf (decide (1024 < m.m)) F_BOUNDS m.m, failIf (decide (1024 < m.rowb + m.m)) F_BOUNDS (m.rowb + m.m)]
      if m.m = 0 then (counts, (⟨e, p, o, []⟩ : MmulRun), s)
      else if 1024 < m.m then (counts ++ [o.alignCheck], ⟨e, p, o, []⟩, s)
      else if pMode o.d = 1 then
        (counts ++ [o.alignCheck, s.viewFmtCheck o] ++ s.transChecks t p o b.kTile m.m, ⟨e, p, o, []⟩, s)
      else
        let (rows, ic, s) := s.readIdx mf t o.d (m.bank * 1024 + m.rowb) m.m
        (counts ++ [o.alignCheck, s.viewFmtCheck o] ++ ic ++ (if b.kTile = 0 then [] else s.rowChecks t p o b.kTile rows), ⟨e, p, o, rows⟩, s))
    (fun s e m _ r =>
      let s := if m.swap = 1 then s.modArr t a fun x => { x with active := x.standby, standby := x.active } else s
      match mmulStart (s.arr t a).active r.o.f with
      | some code => s.failArr t a e code 0 m.rowb
      | none => State.runPasses t a mf mism r m.m 0 false s)

/-- The built-in test of an array ends with the entries of the repair map that it found defective (R156 to R159).
Where spares cover them they are remapped, and a stopped MMUL goes on from the pass that mismatched; otherwise the
array retires. -/
def execArrayAbist (t a : Fin 4) (defects : List (Fin 641)) (mism : List Nat) (mf : MemFaults) (s : State) : Out :=
  .next <|
    let x := s.arr t a
    if !x.repairing then s
    else
      let ds := (defects.map Fin.val).dedup
      let run := x.rerun.bind fun r => ((s.queue t a).active.find? fun e => e.id == r.id).map fun e => (r, e)
      let s := s.modArr t a fun x => { x with repairing := false, rerun := none }
      match run with
      | none => s.arrRepair t a ds
      | some (r, e) =>
        if (x.cover ds).isNone then s.loseArr t a e r.pass
        else
          let m := fmtM e.word
          let o := sourceOf x.prologueA ((Fmt.ofCode m.fmt).getD .fp32) e
          let rows := r.idx.map fun i => if i = 0xFFFFFFFF then none else some i
          if pKind o.d = 2 ∧ s.view (pView o.d) ≠ r.view then (s.arrRepair t a ds).failArr t a e F_VIEW_FMT r.pass (m.rowb + r.pass) else
          State.runPasses t a mf mism ⟨e, s.partOf t e, o, rows⟩ (m.m - r.pass) r.pass true (s.arrRepair t a ds)

/-! ### MACM (R166 to R169) -/

def macmRsvd (m : FmtM) : Bool :=
  anySet [m.tout, m.t, m.s, m.path, m.first, m.swap, m.acc, m.nc, m.ra, m.rb, m.rc, m.rd] || !(m.fmt == 1 || m.fmt == 0xB)

/-- The sum of two accumulator words: one RNE rounding with every NaN an invalid operation (R98, R166, R170), or a
wrapping integer sum (R68). -/
def macmWord (int : Bool) (x y : Nat) : Nat × FFlags :=
  if int then passInt x [toSigned 32 y]
  else
    let r := fp32.addC .rne x y
    (r.1, { r.2 with nv := r.2.nv || (fp32.decode r.1).isNan })

/-- MACM: adds M rows of a source bank into a target bank. -/
def execMacm (t a : Fin 4) (mf : MemFaults) (s : State) : Out :=
  .next <| s.takeArr t a 0x42 macmRsvd
    (fun s _ m p => ([failIf (decide (1024 < m.m)) F_BOUNDS m.m, failIf (decide (1024 < m.rowb + m.m)) F_BOUNDS (m.rowb + m.m),
        failIf (!(bitN (s.part p).arrays (4 * t + m.srcArr))) F_BOUNDS m.srcArr], (), s))
    (fun s e m _ _ =>
      State.runRows t a e m.rowb (fun s i =>
        match s.acmRead mf (acmWord t m.srcArr m.bank2 (m.rowb + i) 0) 4 512 with
        | (none, s) => (.error F_ACM_ECC, s)
        | (some y, s) => match s.acmRead mf (acmWord t a m.bank (m.rowb + i) 0) 4 512 with
          | (none, s) => (.error F_ACM_ECC, s)
          | (some x, s) =>
            let r := List.zipWith (macmWord (m.fmt == 0xB)) x y
            (.ok ((s.acmWrite (acmWord t a m.bank (m.rowb + i) 0) 4 (r.map (·.1))).arrFlags t a (orFlags r)), s)) m.m 0 s)

/-! ### MFLD and MCMB (R190 to R204) -/

def mfldRsvd (m : FmtM) : Bool :=
  anySet [m.tout, m.srcArr, m.path, m.swap, m.acc, m.rowb, m.bank2, m.bank, m.nc, m.fmt, m.ra, m.rb, m.rc, m.rd] ||
  decide (m.s < 3 ∨ 8 < m.s ∨ m.s ≤ m.t)

/-- Read the wide sum of a row (R192): none where a word is uncorrectable. -/
def State.wideRead (s : State) (mf : MemFaults) (t a i n : Nat) : Option (List Nat) × State :=
  match s.acmRead mf (acmWord t a 1 i 0) 4 n with
  | (none, s) => (none, s)
  | (some w0, s) => match s.acmRead mf (acmWord t a 2 i 0) 4 n with
    | (none, s) => (none, s)
    | (some w1, s) => match s.acmRead mf (acmWord t a 3 i 0) 4 n with
      | (none, s) => (none, s)
      | (some w2, s) => (some ((List.range n).map fun c => w0.getD c 0 + w1.getD c 0 * 2 ^ 32 + w2.getD c 0 * 2 ^ 64), s)

/-- MFLD: W := W' + P · 2^(7(s − 1 − t)) (R193). -/
def execMfld (t a : Fin 4) (mf : MemFaults) (s : State) : Out :=
  .next <| s.takeArr t a 0x43 mfldRsvd
    (fun s _ m _ => ([failIf (decide (512 < m.m)) F_BOUNDS m.m], (), s))
    (fun s e m _ _ =>
      State.runRows t a e 0 (fun s i =>
        match s.acmRead mf (acmWord t a 0 i 0) 4 512 with
        | (none, s) => (.error F_ACM_ECC, s)
        | (some pr, s) => match (if m.first = 1 then (some (List.replicate 512 0), s) else s.wideRead mf t a i 512) with
          | (none, s) => (.error F_ACM_ECC, s)
          | (some w, s) =>
            let r := List.zipWith (fun x y => ofSigned 96 (toSigned 96 x + toSigned 32 y * 2 ^ (7 * (m.s - 1 - m.t)))) w pr
            (.ok (((s.acmWrite (acmWord t a 1 i 0) 4 (r.map (· % 2 ^ 32))).acmWrite (acmWord t a 2 i 0) 4 (r.map (· / 2 ^ 32 % 2 ^ 32))).acmWrite
              (acmWord t a 3 i 0) 4 (r.map (· / 2 ^ 64))), s)) m.m 0 s)

def mcmbRsvd (m : FmtM) : Bool :=
  anySet [m.tout, m.srcArr, m.t, m.path, m.first, m.swap, m.rowb, m.bank2, m.bank, m.fmt, m.rc, m.rd] || decide (m.s < 3 ∨ 8 < m.s)

/-- One combined element (R196, R198). -/
def mcmbElem (sl w ea eb prior : Nat) : Nat :=
  let c := fp64.decode prior
  if ea = 0x7FFF ∨ eb = 0x7FFF ∨ c.isNan then fp64.nanCode
  else (fp64.rnd .rne (FVal.add .rne c (FVal.ofInt (toSigned 96 w) (toSigned 16 ea + toSigned 16 eb - 7 * (sl + 1))))).1

/-- MCMB: turns the wide sums into FP64 results (R195 to R199). -/
def execMcmb (t a : Fin 4) (mf : MemFaults) (s : State) : Out :=
  .next <| s.takeArr t a 0x44 mcmbRsvd
    (fun s e m _ =>
      let ea := gaddr e.g m.ra
      let eb := gaddr e.g m.rb
      ([failIf (decide (512 < m.m)) F_BOUNDS m.m, failIf (decide (512 < m.nc)) F_BOUNDS m.nc] ++
        (if m.m = 0 ∨ m.nc = 0 then [] else
          [failIf (decide (ea % 2 ≠ 0)) F_ALIGN ea, failIf (decide (eb % 2 ≠ 0)) F_ALIGN eb, failIf (!(s.spmRangeOk t ea (2 * m.m))) F_BOUNDS ea,
           failIf (!(s.spmRangeOk t eb (2 * m.nc))) F_BOUNDS eb]), (), s))
    (fun s e m _ _ =>
      let ea := spmBase t + gaddr e.g m.ra
      let eb := spmBase t + gaddr e.g m.rb
      State.runRows t a e 0 (fun s i =>
        match s.load mf (ea + 2 * i) 2 with
        | (.error g, s) => (.error (eccCode g), s)
        | (.ok x, s) => match s.load mf eb (2 * m.nc) with
          | (.error g, s) => (.error (eccCode g), s)
          | (.ok y, s) => match s.wideRead mf t a i m.nc with
            | (none, s) => (.error F_ACM_ECC, s)
            | (some w, s) =>
              let key := acmDouble t a (1 + i / 256) (256 + i % 256) 0
              match (if m.acc = 1 then s.acmRead mf key 8 m.nc else (some (List.replicate m.nc 0), s)) with
              | (none, s) => (.error F_ACM_ECC, s)
              | (some c, s) =>
                (.ok (s.acmWrite key 8 ((List.range m.nc).map fun j =>
                  mcmbElem m.s (w.getD j 0) (leNat x) ((chunksOf 2 m.nc y).getD j 0) (c.getD j 0))), s)) (if m.nc = 0 then 0 else m.m) 0 s)

/-! ### MWAIT (R271 to R278) and completion -/

/-- The checks of an MWAIT at issue (R277, R379, R408). -/
def State.mwaitCheck (s : State) (t a : Nat) (e : QEntry) : Check :=
  let m := fmtM e.word
  let p := s.partOf t e
  firstCheck [failIf (m.rsvd != 0 || anySet [m.ri, m.srcArr, m.t, m.s, m.path, m.first, m.swap, m.acc, m.rowb, m.bank2, m.bank, m.nc, m.m,
      m.fmt, m.rd, m.rc]) F_RSVD 0, failIf (!(bitN (s.part p).arrays (4 * t + a))) F_BOUNDS a, failIf (!(s.ownsCtr p (condCtr e))) F_BOUNDS (condCtr e)]

/-- The head of an array's queue, where it is an MWAIT. -/
def State.headWait (s : State) (t a : Nat) : Option QEntry :=
  match (s.queue t a).waiting with
  | e :: _ => if opc e.word = 0x49 then some e else none
  | [] => none

/-- MWAIT reaches the head of its array's queue: a failed check stops its program; otherwise it holds the next
entry, and a value that meets its threshold is remembered (R273). -/
def execMwait (t a : Fin 4) (s : State) : Out :=
  .next <| match s.headWait t a with
  | none => s
  | some e => match s.mwaitCheck t a e with
    | some (code, info) => (s.modQueue t a fun q => { q with waiting := q.waiting.drop 1 }).failEntry t a e code 0 info false
    | none =>
      if condThr e ≤ s.ctr (condCtr e) then
        s.modQueue t a fun q => { q with waiting := { e with met := true } :: q.waiting.drop 1 }
      else s

/-- The counter meets the threshold and the held entry can start (R275). -/
def execMwaitRelease (t a : Fin 4) (s : State) : Out :=
  .next <| match s.headWait t a with
  | none => s
  | some e => if (s.mwaitCheck t a e).isNone then s.releaseCondition t a (· == 0x49) else s

/-- The timeout of an MWAIT expires (R278). -/
def execMwaitTimeout (t a : Fin 4) (s : State) : Out :=
  .next <| match s.headWait t a with
  | none => s
  | some e => if (s.mwaitCheck t a e).isNone then s.timeoutCondition t a (· == 0x49) else s

/-- The oldest operation of an array completes and adds its INC (R402); one that a built-in test holds does not. -/
def execArrayOpDone (t a : Fin 4) (s : State) : Out :=
  .next <| match (s.queue t a).active with
  | [] => s
  | e :: _ => match (s.arr t a).rerun with
    | some r => if r.id = e.id then s else s.completeFirst t a fun _ => true
    | none => s.completeFirst t a fun _ => true

end Sys2Proof.Machine
end

