-- ==== Sys2Proof/Machine/Power.lean ====
section
/-!
DEFINITION. Pins, power, temperature and service handling (R48 to R55, R888 to R895, R914, R915, R1061 to
R1102).
-/
namespace Sys2Proof.Machine

open Sys2Proof

/-! ### Power and the pins that start and stop the package -/

def ImageInfo.slot (i : ImageInfo) : ImgSlot := ⟨i.present, i.secVersion, i.imgVersion, i.stepping, i.mcode, i.bytes⟩

/-- The always-on rails come into specification (R27, R891): the Scarab and Cricket islands run. The operands
are what the flash device holds: both image slots, the active slot and the stored interleave mode. -/
def execPowerOn (slotA slotB : ImageInfo) (active : Fin 2) (mode : Fin 3) (s : State) : Out :=
  .next <| if s.power.powered then s
  else
    let s := s.modPower fun w => { w with powered := true, poweredAt := s.timeNs }
    let s := (s.modSunas fun u => { u with slotA := slotA.slot, slotB := slotB.slot, activeSlot := active, runningSlot := active }).modStart
      fun x => { x with storedMode := mode }
    (s.islandUp islScarab).islandUp islCricket

/-- PWRGD_IN rises (R888, R890): stage 0 reads and checks the fuse bank (R892) and completes. A SCARAB_HALT
ends with it (R1007). -/
def execPwrgdRise (fuses : Fuses) (latchLow : Bool) (s : State) : Out :=
  .next <| if !s.power.powered || s.power.pwrgd then s
  else
    let s := s.modPower fun w => { w with pwrgd := true, railFault := false, refclkLost := false }
    let s := if s.power.latchClosed = latchLow then s else (s.modPower fun w => { w with latchClosed := latchLow }).setFlag lnPw fPwLatch
    let s := (s.modLog fun l => { l with halted := false, lockstepAt := none, failureSeen := false, degradedSeen := false }).clearService 5 1
    let s := s.modStart fun x =>
      { x with stage := 0, begun := true, failed := false, reason := 0, fallback := false,
               origin := max s.timeNs (s.power.poweredAt + 10000000), extraMs := 0, doneAt := [],
               starts := sat32 (x.starts + 1), joinAsked := false, fuseBad := !fuses.good, grade := fuses.grade,
               stepping := fuses.stepping, tillerMhz := if fuses.grade.val = 0 then 2100 else 1800, serial := fuses.serial,
               maps := fuses.maps.map fun m => (m.1.val, m.2.1.val, m.2.2.val) }
    (s.modSunas fun u => { u with fuseVersion := max u.fuseVersion fuses.secVersion }).askPinned.stageDone 0

/-- PWRGD_IN falls (R915). -/
def execPwrgdFall (s : State) : Out :=
  .next <| if !s.power.pwrgd then s
  else ((s.modPower fun w => { w with pwrgd := false }).modStart fun x => { x with begun := false }).stopAll

/-- RESET_IN_N goes low (R914). -/
def execResetAssert (s : State) : Out :=
  .next <| if s.power.resetLow then s else (s.modPower fun w => { w with resetLow := true }).stopAll

/-- RESET_IN_N is released (R914). -/
def execResetRelease (s : State) : Out :=
  .next <| if !s.power.resetLow then s
  else
    let s := s.modPower fun w => { w with resetLow := false }
    if s.power.pwrgd then s.restart1 else s

/-- REFCLK stops for 10 µs (R1064). -/
def execRefclkLoss (s : State) : Out :=
  .next <| if !s.power.refclk then s
  else ((s.modPower fun w => { w with refclk := false, refclkLost := true }).stopAll).logEv "REFCLK_LOST" 5 0 0xFF []

/-- REFCLK has been back for 10 ms (R1064). -/
def execRefclkReturn (s : State) : Out :=
  .next <| if s.power.refclk then s
  else
    let s := s.modPower fun w => { w with refclk := true }
    if s.power.pwrgd then s.restart1 else s

/-- The package latch opens (R895, R1100). -/
def execLatchOpen (s : State) : Out :=
  .next <| if !s.power.latchClosed then s
  else
    let s := (s.modPower fun w => { w with latchClosed := false }).setFlag lnPw fPwLatch
    if s.start.begun then s.stopAll.logEv "START_LATCH" 5 0 0xFF [] else s

/-- The latch has been closed for 100 ms (R1101). -/
def execLatchClose (s : State) : Out :=
  .next <| if s.power.latchClosed then s
  else
    let s := (s.modPower fun w => { w with latchClosed := true }).setFlag lnPw fPwLatch
    if s.power.pwrgd then s.restart1 else s

/-! ### The service button (R1063, R1094 to R1099) -/

/-- A press is recognised. -/
def execButtonPress (s : State) : Out :=
  .next <| if s.power.btnDown then s
  else (s.modPower fun w => { w with btnDown := true, presses := sat32 (w.presses + 1) }).setFlag lnPw fPwButton

/-- The module whose evacuation a short press cancels. -/
def State.cancelTarget (s : State) : Option Nat :=
  (List.range 6).find? fun m => (s.laser m).st == 5 || ((s.laser m).st == 6 && (s.laser m).present)

/-- The lowest-numbered module whose service request is raised. -/
def State.evacTarget (s : State) : Option Nat := (List.range 6).find? fun m => s.log.service.contains (2, m)

/-- The effect of a press by its length in ms, with the code of that effect (R1094, R1098). -/
def State.pressEffect (s : State) (ms : Nat) : Nat × State :=
  if ms ≤ 3000 then
    match s.cancelTarget with
    | some m => (2, s.evacCancel m)
    | none => match s.evacTarget with
      | some m => (1, s.requestEvac m)
      | none => (0, s)
  else if ms < 5000 ∨ 30000 < ms then (0, s)
  else if s.power.pkgEvac then (4, (s.modPower fun w => { w with pkgEvac := false }).updSafe)
  else (3, ((s.modPower fun w => { w with pkgEvac := true }).logEv "PKG_EVAC_REQUESTED" 5 0 0xFF []).updSafe)

/-- A press takes its effect, which is logged with its length (R1095). -/
def State.pressDone (s : State) (ms : Nat) : State :=
  let r := s.pressEffect ms
  r.2.logEv "SERVICE_BUTTON" 5 0 0xFF [(4, ms), (1, r.1)]

/-- A press is released: discarded where it coincides with a trip, a rail fault or an open latch (R1097), held
before stage 4 completes (R917), otherwise performed. -/
def execServiceButton (ms : Nat) (s : State) : Out :=
  .next <| if !s.power.btnDown then s
  else
    let s := s.modPower fun w => { w with btnDown := false }
    if s.power.trip || s.power.railFault || !s.power.latchClosed then s.logEv "SERVICE_BUTTON" 5 0 0xFF [(4, ms), (1, 0)]
    else if s.start.stage < 4 then s.modPower fun w => { w with heldPresses := w.heldPresses ++ [ms] }
    else s.pressDone ms

/-- A press lasts over 30 s (R1094). -/
def execButtonStuck (s : State) : Out := .next <| if s.power.btnDown then s.logEv "BUTTON_STUCK" 5 0 0xFF [] else s

/-! ### Rails and set-points (R1073 to R1081) -/

/-- A rail's nominal range in mV: a core rail's between the set-points requested and applied (R1073, R1077). -/
def State.railNominal (s : State) (r : Nat) : Nat × Nat :=
  if r < 4 then
    let v := Tbl.get 750 s.power.vset r
    let a := Tbl.get 750 s.power.vack r
    (min v a, max v a)
  else
    let n := [780, 750, 1050, 750, 1800, 1800, 3300].getD (r - 4) 0
    (n, n)

/-- The tolerance in percent. -/
def railPercent (r : Nat) : Nat := if r < 8 then 3 else 5

/-- A sample is outside a rail's tolerance. -/
def State.railOut (s : State) (r mv : Nat) : Bool :=
  let n := s.railNominal r
  decide (mv * 100 < n.1 * (100 - railPercent r) ∨ n.2 * (100 + railPercent r) < mv * 100)

/-- A rail fault (R1076): a core rail takes its Tiller offline, any other main rail stops the package. -/
def State.railFault (s : State) (r mv : Nat) : State :=
  let s := (((s.modPower fun w => { w with railFault := true, faults := sat32 (w.faults + 1) }).setFlag lnPw fPwRail).logEv
    "RAIL_FAULT" 5 0 0xFF [(4, r), (2, mv)])
  if r < 4 then s.tillerOffline r true else s.stopAll

/-- One sample of one rail: its voltage and its current in 0.1 A; the second one in a row out of tolerance on a
main rail is a fault. -/
def State.railSample (s : State) (r mv amps10 : Nat) : State :=
  let out := s.railOut r mv
  let k := (Tbl.get Rail.reset s.power.rails r).out
  let s := s.modPower fun w => { w with rails := Tbl.set w.rails r ⟨mv, amps10, if out then min 2 (k + 1) else 0⟩ }
  if out && k == 1 && decide (r < 9) then s.railFault r mv else s

/-- A sample of every rail (R1076), with the package's power in W. -/
def execRailSample (samples : List (Nat × Nat)) (watts : Nat) (s : State) : Out :=
  .next <| if !s.power.pwrgd then s
  else (samples.zipIdx.take 11).foldl (fun s x => s.railSample x.2 (x.1.1 % 65536) (x.1.2 % 65536)) (s.modPower fun w => { w with packageWatts := watts })

/-- The core current of Tiller t exceeds 950 A (R1081). -/
def execOvercurrent (t : Fin 4) (s : State) : Out := .next <| s.modIsland t fun x => { x with mhz := min x.mhz 800 }

/-- A write of a VACK word (R1080). -/
def State.vackWrite (s : State) (k v : Nat) : State :=
  if v < 600 ∨ 850 < v ∨ !(s.power.vchanged.contains k) then s.setFlag lnPw fPwCfg
  else s.modPower fun w => { w with vack := Tbl.set w.vack k v, vchanged := if Tbl.get 750 w.vset k = v then w.vchanged.filter (· != k) else w.vchanged }

def execVackWrite (k : Fin 6) (v : Nat) (s : State) : Out := .next (s.vackWrite k v)

/-- No matching VACK arrives within 2 ms (R1079). -/
def execVsetTimeout (k : Fin 6) (s : State) : Out :=
  .next <| if !(s.power.vchanged.contains k.val) then s
  else ((s.modPower fun w => { w with faults := sat32 (w.faults + 1) }).setFlag lnPw fPwRail).logEv "VSET_TIMEOUT" 5 0 0xFF
    [(4, k.val), (4, Tbl.get 750 s.power.vset k.val)]

/-- Scarab requests set-points (R1077, R1078, R42): within range, in steps of 5 mV, within 200 mV of the other
Tillers, and not below what the running clock needs. Others are not made. -/
def State.vsetRequest (s : State) (k v : Nat) : State :=
  let others := ((List.range 4).filter (· != k)).map fun j => Tbl.get 750 s.power.vset j
  if 4 ≤ k ∨ v < 600 ∨ 850 < v ∨ v % 5 ≠ 0 ∨ Tbl.get 750 s.power.vset k = v then s
  else if others.any (fun u => decide (u + 200 < v ∨ v + 200 < u)) || decide (v < Config.clockVoltage (s.island k).mhz) then s
  else (s.modPower fun w => { w with vset := Tbl.set w.vset k v, vchanged := natInsert w.vchanged k }).ibi 5

/-! ### Island limits (R40, R41, R48 to R55) -/

/-- The neighbouring islands (R41), lower number first. -/
def neighbours : List (Nat × Nat) :=
  [(0, 1), (0, 2), (0, 3), (1, 2), (1, 3), (2, 3), (0, 4), (1, 5), (2, 6), (3, 7), (0, 8), (1, 8), (2, 8), (3, 8),
   (0, 10), (0, 11), (1, 10), (1, 11), (2, 10), (2, 11), (3, 10), (3, 11), (0, 9), (1, 9), (2, 9), (3, 9)] ++
  [(4, 9), (5, 9), (6, 9), (7, 9), (8, 10), (8, 11), (8, 9), (10, 11), (9, 10), (9, 11), (9, 12)]

/-- The first limit that a pair exceeds, with the measured value (R1117): a ratio, a supply difference in mV, a
temperature difference in °C. -/
def pairBeyond (a b : Island) (ratio mv : Nat) (temp : Int) : Option (Nat × Nat) :=
  let hi := max a.mhz b.mhz
  let lo := min a.mhz b.mhz
  let dv := max a.mv b.mv - min a.mv b.mv
  let dt := max a.temp b.temp - min a.temp b.temp
  if hi > ratio * lo then some (0, hi * 100 / (max lo 1))
  else if dv > mv then some (1, dv)
  else if dt > temp then some (2, dt.toNat)
  else none

/-- The island of a pair that a limit acts on: the faster, then the one with the higher supply, then the
hotter (R48, R49). -/
def fasterOf (i j : Nat) (a b : Island) : Nat :=
  if a.mhz ≠ b.mhz then (if a.mhz > b.mhz then i else j)
  else if a.mv ≠ b.mv then (if a.mv > b.mv then i else j)
  else if b.temp > a.temp then j else i

/-- Log a clamp or a stop (R52, R1117). -/
def State.logPair (s : State) (name : String) (acted : Option Nat) (i j limit value : Nat) : State :=
  s.logEv name 9 (acted.getD i) 0xFF [(1, acted.getD 0xFF), (1, i), (1, j), (1, limit), (4, value)]

/-- A sample of one pair: a stop beyond the bridge margin (R51, R55), a clamp beyond the limits (R48, R54). -/
def State.pairSample (s : State) (i j : Nat) : State :=
  let a := s.island i
  let b := s.island j
  if !(a.up && b.up) then s
  else match pairBeyond a b 5 260 50 with
    | some (l, v) =>
      let f := fasterOf i j a b
      let other := if f = i then j else i
      let scarabOr := fun (x : Nat) => x == islScarab || x == islCricket
      let target := if !(scarabOr f) then some f else if !(scarabOr other) then some other else none
      let s := s.logPair "ISLAND_STOP" target i j l v
      match target with
      | some x => s.stopIsland x
      | none => s
    | none => match pairBeyond a b 4 200 40 with
      | none => s
      | some (l, v) =>
        if s.log.restarting || s.log.halted then s
        else
          let f := fasterOf i j a b
          let other := if f = i then j else i
          match (if varClock f then some f else if varClock other then some other else none) with
          | none => s.logPair "ISLAND_CLAMP" none i j l v
          | some x =>
            if (s.island x).clamped then s
            else (s.modIsland x fun k => { k with clamped := true, good := 0 }).logPair "ISLAND_CLAMP" (some x) i j l v

/-- One sample of a clamped island (R50, R53): released after ten good samples, lowered by 100 MHz otherwise, or
stopped where its floor would be passed. -/
def State.clampSample (s : State) (x : Nat) : State :=
  let k := s.island x
  if !(k.up && k.clamped) || s.log.restarting || s.log.halted then s
  else
    let bad := (neighbours.filter fun p => p.1 == x || p.2 == x).findSome? fun p =>
      let a := s.island p.1
      let b := s.island p.2
      if a.up && b.up then (pairBeyond a b 4 190 35).map fun l => (p, l) else none
    match bad with
    | none =>
      if k.good + 1 ≥ 10 then s.modIsland x fun k => { k with clamped := false, good := 0 }
      else s.modIsland x fun k => { k with good := k.good + 1 }
    | some (p, l) =>
      if k.mhz < floorClock x + 100 then (s.logPair "ISLAND_STOP" (some x) p.1 p.2 l.1 l.2).stopIsland x
      else s.modIsland x fun k => { k with good := 0, mhz := k.mhz - 100 }

/-- A sample of every island: its supply in mV, its hottest junction and its power (R48), with the set-points
that Scarab requests for it (R42, R1077). -/
def execIslandSample (samples : List (Nat × Int × Nat)) (requests : List (Nat × Nat)) (s : State) : Out :=
  .next <|
    let s := (samples.zipIdx.take 13).foldl (fun s x =>
      if (s.island x.2).up then s.modIsland x.2 fun k => { k with mv := x.1.1, temp := x.1.2.1, watts := x.1.2.2 } else s) s
    let s := neighbours.foldl (fun s p => s.pairSample p.1 p.2) s
    let s := s.forN 9 fun s i => if varClock i then s.clampSample i else s
    if s.log.restarting || s.log.halted then s else requests.foldl (fun s r => s.vsetRequest r.1 r.2) s

/-! ### Temperature (R1083 to R1088) -/

/-- Entry into throttling (R1084, R1069). -/
def State.throttle (s : State) (i : Nat) (temp : Int) : State :=
  if (s.island i).throttled then s
  else ((((s.modIsland i fun k => { k with throttled := true }).modPower fun w => { w with throttles := sat32 (w.throttles + 1) }).setFlag
    lnPw fPwThermal).ibi 3).logEv "THERMAL_THROTTLE" 9 i 0xFF [(1, i), (4, twos 4 temp)]

/-- A Tiller's clock may rise to `mhz`: its applied and its measured supply carry it (R1078). -/
def State.mayRaise (s : State) (i mhz : Nat) : Bool :=
  if i < 4 then decide (Config.clockVoltage mhz ≤ Tbl.get 750 s.power.vack i ∧
    Config.clockVoltage mhz ≤ (Tbl.get Rail.reset s.power.rails i).mv) else true

/-- A sample of a throttled island's hottest junction (R1084). -/
def State.varThermal (s : State) (i : Nat) (temp : Int) : State :=
  let k := s.island i
  if temp < 97 then
    let up := min k.setMhz (k.mhz + 100)
    let s := if k.clamped || decide (up ≤ k.mhz) || !(s.mayRaise i up) then s else s.modIsland i fun k => { k with mhz := up }
    if k.throttled && (s.island i).mhz == k.setMhz then (s.modIsland i fun k => { k with throttled := false }).setFlag lnPw fPwThermal else s
  else if temp < 100 then s
  else if temp < 105 then (s.throttle i temp).modIsland i fun k => { k with mhz := max (floorClock i) (k.mhz - 100) }
  else if temp < 110 ∨ (temp < 115 ∧ k.mhz > floorClock i) then
    ((s.throttle i temp).setFlag lnPw fPwThermal).modIsland i fun k => { k with mhz := min k.mhz (floorClock i) }
  else if temp < 115 then s.stopIsland i
  else s.thermTrip 9 i temp

/-- A sample of a fixed-clock island (R1085). -/
def State.fixedThermal (s : State) (i : Nat) (temp : Int) : State :=
  if 115 ≤ temp then s.thermTrip 9 i temp
  else if temp < 105 then s.modIsland i fun k => { k with warned := false }
  else if (s.island i).warned then s
  else ((s.modIsland i fun k => { k with warned := true }).setFlag lnPw fPwThermal).logEv "THERMAL_WARN" 9 i 0xFF [(1, i), (4, twos 4 temp)]

/-- A Tiller's share of the package's power in W (R35, R36). -/
def State.tillerShare (s : State) : Nat := if s.start.grade = 0 then 600 else 475

/-- A Tiller whose power exceeds its share runs slower, by how much is open, down to its floor (R36, R1082,
R1083). -/
def State.powerHold (s : State) (t : Nat) : State :=
  let k := s.island t
  if k.up && decide (s.tillerShare < k.watts) && decide (800 < k.mhz) then
    let r := s.fresh 16
    r.2.modIsland t fun x => { x with mhz := 800 + r.1.toNat % (k.mhz - 800) }
  else s

/-- A sample of every island's junctions, and the power limit of each Tiller. -/
def execThermalSample (temps : List Int) (s : State) : Out :=
  .next <| ((temps.zipIdx.take 13).foldl (fun s x =>
    if (s.island x.2).up then
      let s := s.modIsland x.2 fun k => { k with temp := x.1 }
      if varClock x.2 then s.varThermal x.2 x.1 else s.fixedThermal x.2 x.1
    else s) s).forN 4 fun s t => s.powerHold t

/-- A trip condition, at an island or a stack (R1086, R1087). -/
def execThermtrip (stack : Bool) (idx : Fin 13) (temp : Int) (s : State) : Out := .next (s.thermTrip (if stack then 0 else 9) idx temp)

/-- THERMTRIP_OUT_N is released (R1088). -/
def execThermtripRelease (s : State) : Out :=
  .next <| if s.power.trip && !s.power.pwrgd then s.modPower fun w => { w with trip := false } else s

/-! ### The management buses' addressing, and the test access port (R1065, R1071, R1072) -/

/-- The tray controller assigns a dynamic address. -/
def execI3cAddressAssign (addr : Fin 128) (s : State) : Out := .next <| s.modPower fun w => { w with dynAddr := some addr.val }

/-- The tray controller enables in-band interrupts. -/
def execI3cEnec (s : State) : Out := .next <| s.modPower fun w => { w with enec := true }

/-- Select a test instruction and shift its data register: what came out, and what went in. -/
def State.tapShift (s : State) (instr bits out data : Nat) : State :=
  (s.modPower fun w => { w with tapInstr := instr, tapData := data % 2 ^ bits }).emit (.tap bits (out % 2 ^ bits))

/-- BYPASS: one bit, captured as 0. -/
def State.tapBypass (s : State) (instr data : Nat) : State := s.tapShift instr 1 0 data

/-- Boundary scan is refused under a running job (R1072). -/
def State.scanRefused (s : State) : Bool := s.power.pwrgd && (List.range 8).any fun p => (s.part p).st == .running

/-- Boundary scan of the 30 named signals, whose levels and order the spec leaves open. -/
def State.boundaryScan (s : State) (instr data : Nat) : State :=
  if s.scanRefused then s.tapBypass instr data
  else
    let r := s.fresh 30
    r.2.tapShift instr 30 r.1.toNat data

def execExtest (data : Nat) (s : State) : Out := .next (s.boundaryScan 0x00 data)
def execSamplePreload (data : Nat) (s : State) : Out := .next (s.boundaryScan 0x01 data)
/-- IDCODE (R1071). -/
def execIdcode (data : Nat) (s : State) : Out := .next (s.tapShift 0xFE 32 0x10008A67 data)
/-- Any opcode without a row selects BYPASS. -/
def execBypass (opcode : Fin 256) (data : Nat) (s : State) : Out := .next (s.tapBypass opcode data)
/-- TRST_N low resets the test logic (R1062). -/
def execTrst (s : State) : Out := .next <| s.modPower fun w => { w with tapInstr := 0xFE, tapData := 0 }

end Sys2Proof.Machine
end

