-- ==== Sys2Proof/Machine/SunasTable.lean ====
section
/-!
DEFINITION. The Sunas commands as R938 lists them: opcode, the mailbox classes that may issue each, its request
fields and what they name; the checks of a command's header and payload (R929 to R934); and which command
is performed next (R936).
-/
namespace Sys2Proof.Machine

open Sys2Proof

/-! ### Request fields (R932) -/

/-- A request field: its bytes, its least and greatest value, and the number it is a multiple of. -/
structure CmdField where
  size : Nat
  lo : Nat
  hi : Nat
  step : Nat
deriving DecidableEq, Repr

def fl (size lo hi : Nat) : CmdField := ⟨size, lo, hi, 1⟩
/-- A field of any value. -/
def fa (size : Nat) : CmdField := ⟨size, 0, 2 ^ (8 * size) - 1, 1⟩
/-- An address or length in bytes, a multiple of `step`. -/
def fb (step : Nat) : CmdField := ⟨8, 0, 2 ^ 64 - 1, step⟩
/-- A counter number. -/
def fctr : CmdField := fl 4 0 131071
/-- A place. -/
def fplace : CmdField := fl 4 0 0xFFFFF
/-- A partition, a Tiller, a stack, a flag, a set of eight stacks. -/
def fpart : CmdField := fl 1 0 7
def ftiller : CmdField := fl 1 0 3
def fstack : CmdField := fl 1 0 7
def fbit : CmdField := fl 1 0 1
def fmask8 : CmdField := fl 1 0 0xFF

def CmdField.ok (f : CmdField) (v : Nat) : Bool := decide (f.lo ≤ v ∧ v ≤ f.hi) && v % f.step == 0

/-- The offsets of fields from `at_` on: each at the lowest multiple of its size. -/
def fieldOffsets : Nat → List CmdField → List Nat
  | _, [] => []
  | at_, f :: fs =>
    let p := (at_ + f.size - 1) / f.size * f.size
    p :: fieldOffsets (p + f.size) fs

/-- The end of the last field. -/
def fieldsEnd : Nat → List CmdField → Nat
  | at_, [] => at_
  | at_, f :: fs => fieldsEnd ((at_ + f.size - 1) / f.size * f.size + f.size) fs

/-- What follows the fields of a fixed size: nothing, data to the end of the payload, the data of a number of bits that a
field gives, or a number of pairs of 8-byte fields that a field gives. -/
inductive CmdTail where
  | none
  | rest
  | bits (field : Nat)
  | pairs (field : Nat)
deriving DecidableEq, Repr

/-- What a command's field names (R936). -/
inductive Named where
  | partition (n : Nat) | stack (n : Nat) | port (n : Nat) | module (n : Nat) | conn (n : Nat)
deriving DecidableEq, Repr

/-- The kinds of a naming field: one number, or a mask. -/
inductive NameKind where
  | partition | stack | stackMask | portMask | module | conn
deriving DecidableEq, Repr

/-- A command: its opcode; the classes that may issue it, bit 0 management, bit 1 partition, bit 2 debug; its fields; the
index of its PARTITION field; and the fields that name something. -/
structure CmdSpec where
  op : Nat
  classes : Nat
  fields : List CmdField
  tail : CmdTail
  part : Option Nat
  names : List (NameKind × Nat)
deriving DecidableEq, Repr

/-- A command of fixed length that names nothing. -/
def cmd (op classes : Nat) (fields : List CmdField) : CmdSpec := ⟨op, classes, fields, .none, .none, []⟩
/-- A command whose field i is PARTITION. -/
def CmdSpec.onPart (k : CmdSpec) (i : Nat) : CmdSpec := { k with part := some i, names := (.partition, i) :: k.names }
/-- A command whose field i names something else. -/
def CmdSpec.naming (k : CmdSpec) (kind : NameKind) (i : Nat) : CmdSpec := { k with names := (kind, i) :: k.names }

/-! ### The commands (R938) -/

def kStatus : CmdSpec := cmd 0x0000 7 []
def kNodeReady : CmdSpec := cmd 0x0001 1 []
def kRestart : CmdSpec := cmd 0x0002 1 []
def kCoreStart : CmdSpec := cmd 0x0003 1 [fl 1 0 63, fa 8, fa 8, fa 8]
def kJoin : CmdSpec := cmd 0x0004 1 []
def kPlaceSet : CmdSpec := cmd 0x0005 1 [fplace, fl 1 0 7]
def kNotifySet : CmdSpec := cmd 0x0006 1 [fb 64, fl 1 4 16, fctr]

def kPartSet : CmdSpec := (cmd 0x0100 1 [fpart, fa 2, fa 2, fa 8, fa 8, fa 8, fb 0x200000, fb 0x200000]).onPart 0
def kPartStart : CmdSpec := (cmd 0x0101 1 [fpart]).onPart 0
def kPartStop : CmdSpec := (cmd 0x0102 3 [fpart]).onPart 0
def kPartReset : CmdSpec := (cmd 0x0103 3 [fpart]).onPart 0
def kKeySet : CmdSpec := (cmd 0x0104 3 [fpart, fl 1 1 255, fl 1 0 15, fl 1 0 15, fl 1 0 15, fbit]).onPart 0
def kKeyGet : CmdSpec := (cmd 0x0105 7 [fpart]).onPart 0

def kMemInterleave : CmdSpec := cmd 0x0200 1 [fl 1 0 2]
def kMemRegulator : CmdSpec := ((cmd 0x0201 1 [fmask8, fpart, fl 2 0 256, fl 2 1 256, fl 1 12 24]).onPart 1).naming .stackMask 0
def kMemBlockMode : CmdSpec := (cmd 0x0202 1 [fpart, fbit]).onPart 0
def kMemUeLimit : CmdSpec := (cmd 0x0203 1 [fmask8, fl 2 8 1024]).naming .stackMask 0
def kMemScrub : CmdSpec := (cmd 0x0204 1 [fmask8, fbit, fl 1 1 168]).naming .stackMask 0
def kRowAck : CmdSpec := cmd 0x0205 1 [fa 8]
def kRetireRead : CmdSpec := (cmd 0x0206 5 [fstack, fl 2 0 4095, fl 1 0 251]).naming .stack 0

def kPortRoles : CmdSpec := cmd 0x0300 1 [fl 1 0 63]
def kLaneLimit : CmdSpec := (cmd 0x0301 1 [fl 4 0 0xFFFFFF, fl 2 16 4096]).naming .portMask 0
def kPortRetrain : CmdSpec := (cmd 0x0302 1 [fl 4 0 0xFFFFFF]).naming .portMask 0
def kLaserEvacuate : CmdSpec := (cmd 0x0303 1 [fl 1 0 5]).naming .module 0
def kTableSet : CmdSpec := cmd 0x0304 1 [fl 1 0 2, fa 1, fl 1 0 2, fl 1 0 7, fl 1 0 1, fl 1 0 80, fa 2, fplace]
def kExportSet : CmdSpec :=
  (cmd 0x0305 1 [fl 1 0 63, fbit, fpart, fa 2, fl 1 0 7, fb 0x200000, ⟨8, 0x200000, 2 ^ 39, 0x200000⟩, ⟨4, 0, 131071, 1024⟩,
    fl 1 0 128]).naming .partition 2
def kReplicaSet : CmdSpec :=
  (cmd 0x0306 1 [fl 1 0 63, fbit, fpart, fl 1 0 127, fb 0x200000, ⟨8, 0, 2 ^ 36, 0x200000⟩, fb 0x200000]).naming .partition 2
def kDomainTimeout : CmdSpec := cmd 0x0307 1 [fl 2 50 50000]
def kWindowSet : CmdSpec :=
  (cmd 0x0308 3 [fl 2 0 4095, fbit, fpart, fa 2, fl 1 0 7, fb 4096, ⟨8, 0, 2 ^ 39, 4096⟩, ⟨4, 0, 131071, 1024⟩, fl 1 0 128]).onPart 2
def kConnOpen : CmdSpec := (cmd 0x0309 3 [fpart, fplace, fl 2 0 10000]).onPart 0
def kConnClose : CmdSpec := (cmd 0x030A 3 [fa 2]).naming .conn 0
def kConnTimeout : CmdSpec := (cmd 0x030B 3 [fa 2, fl 2 1 10000]).naming .conn 0

def kViewSet : CmdSpec := cmd 0x0400 3 ([fa 1] ++ List.replicate 8 (fa 8))
def kViewCounts : CmdSpec := cmd 0x0401 3 [fa 1]

def kHuskConfig : CmdSpec :=
  { (cmd 0x0500 3 [fpart, fbit, fl 1 24 34, fbit, fl 1 1 16, fl 2 0 4095, fl 4 100 100000, fplace, fctr, fctr, fb 65536, fb 65536,
      fb 4096, fb 4096, fb 4096, fb 4096]).onPart 0 with tail := .pairs 4 }
def kHuskFreeze : CmdSpec := (cmd 0x0501 3 [fpart, fa 8]).onPart 0
def kHuskAbandon : CmdSpec := (cmd 0x0502 3 [fpart]).onPart 0
def kHuskCommit : CmdSpec := (cmd 0x0503 3 [fpart]).onPart 0
def kHuskRollback : CmdSpec := (cmd 0x0504 3 [fpart]).onPart 0
def kHuskRestore : CmdSpec := (cmd 0x0505 3 [fpart, fl 2 0 4095, fplace, fa 2, fa 2, fb 1, fb 1, fa 8]).onPart 0

def kRingSet : CmdSpec :=
  (cmd 0x0600 3 [ftiller, fl 2 0 8191, fbit, fpart, fl 1 0 3, fl 1 4 16, ⟨8, 0, 2 ^ 48 - 1, 64⟩, fl 1 4 16, ⟨8, 0, 2 ^ 48 - 1, 32⟩,
    fl 1 1 64, fbit, fctr, fl 1 0 2]).onPart 3
def kGroupSet : CmdSpec :=
  (cmd 0x0601 3 [ftiller, fl 2 1 65535, fpart, fl 4 1 1048576, fl 4 0 1048575, fb 4, fl 1 1 8, fl 1 16 24, fb 4096, ⟨4, 0, 131071, 1024⟩,
    fl 2 0 4095]).onPart 2
def kGroupReset : CmdSpec := cmd 0x0602 3 [ftiller, fl 2 1 65535, fbit]

def kSensors : CmdSpec := cmd 0x0700 5 []
def kTillerCap : CmdSpec := cmd 0x0701 1 [fl 1 0 15, fa 2]
def kTillerState : CmdSpec := cmd 0x0702 1 [ftiller, fbit]

def kFwInfo : CmdSpec := cmd 0x0800 5 []
def kFwWrite : CmdSpec := { cmd 0x0801 1 [fb 4096] with tail := .rest }
def kFwVerify : CmdSpec := cmd 0x0802 1 [fb 1]
def kFwActivate : CmdSpec := cmd 0x0803 1 [fbit]
def kFwCommit : CmdSpec := cmd 0x0804 1 []
def kUcodeApply : CmdSpec := cmd 0x0805 1 [fl 1 0 15]

def kLogInfo : CmdSpec := cmd 0x0900 7 []
def kLogRead : CmdSpec := cmd 0x0901 7 [fa 8, fl 1 0 31]

def kHbm1500 : CmdSpec := { (cmd 0x0A00 5 [fstack, fa 2, fl 2 0 8192]).naming .stack 0 with tail := .bits 2 }
def kHbmBist : CmdSpec := (cmd 0x0A01 5 [fstack, fl 1 0 15]).naming .stack 0
def kHbmModereg : CmdSpec := (cmd 0x0A02 5 [fstack, fl 1 0 31, fa 1, fbit, fa 4]).naming .stack 0
def kHbmRepair : CmdSpec := (cmd 0x0A03 5 [fstack, fl 1 0 63, fl 1 0 63, fbit, fl 2 0 16383]).naming .stack 0
def kArrayMap : CmdSpec := cmd 0x0A04 5 [ftiller, fl 1 0 3, fbit, fa 2, fa 2]
def kMaintStatus : CmdSpec := cmd 0x0A05 7 [fa 4]
def kMaintCancel : CmdSpec := cmd 0x0A06 1 [fa 4]

/-- Every command of R938. -/
def cmdTable : List CmdSpec :=
  [kStatus, kNodeReady, kRestart, kCoreStart, kJoin, kPlaceSet, kNotifySet, kPartSet, kPartStart, kPartStop, kPartReset, kKeySet,
   kKeyGet, kMemInterleave, kMemRegulator, kMemBlockMode, kMemUeLimit, kMemScrub, kRowAck, kRetireRead] ++
  [kPortRoles, kLaneLimit, kPortRetrain, kLaserEvacuate, kTableSet, kExportSet, kReplicaSet, kDomainTimeout, kWindowSet, kConnOpen,
   kConnClose, kConnTimeout, kViewSet, kViewCounts, kHuskConfig, kHuskFreeze, kHuskAbandon, kHuskCommit, kHuskRollback,
   kHuskRestore] ++
  [kRingSet, kGroupSet, kGroupReset, kSensors, kTillerCap, kTillerState, kFwInfo, kFwWrite, kFwVerify, kFwActivate, kFwCommit,
   kUcodeApply, kLogInfo, kLogRead, kHbm1500, kHbmBist, kHbmModereg, kHbmRepair, kArrayMap, kMaintStatus, kMaintCancel]

/-- The command of an opcode; none where it is unknown or reserved. -/
def cmdOf (op : Nat) : Option CmdSpec := cmdTable.find? fun k => k.op == op

/-! ### A command's values -/

/-- The value of a field at an offset of a payload; bytes beyond its end count as zero. -/
def payloadField (payload : List Byte) (at_ size : Nat) : Nat := leNat ((payload.drop at_).take size)

/-- The values of a command's fields. -/
def CmdSpec.values (k : CmdSpec) (payload : List Byte) : List Nat :=
  (k.fields.zip (fieldOffsets 0 k.fields)).map fun f => payloadField payload f.2 f.1.size

/-- The bytes after the fixed fields. -/
def CmdSpec.tailLen (k : CmdSpec) (values : List Nat) (len : Nat) : Nat :=
  match k.tail with
  | .none => 0
  | .rest => len - fieldsEnd 0 k.fields
  | .bits i => (values.getD i 0 + 7) / 8
  | .pairs i => 16 * values.getD i 0

/-- Where what follows the fixed fields begins: pairs are 8-byte fields. -/
def CmdSpec.tailAt (k : CmdSpec) : Nat :=
  match k.tail with
  | .pairs _ => (fieldsEnd 0 k.fields + 7) / 8 * 8
  | _ => fieldsEnd 0 k.fields

/-- A partition mailbox's partition is implied where the command has no PARTITION field (R938), and is named by it. -/
def impliedName (k : CmdSpec) (m : Nat) : List Named := if m < 56 && k.part.isNone then [.partition (m / 7)] else []

/-- What a command names (R936). -/
def CmdSpec.named (k : CmdSpec) (m : Nat) (values : List Nat) : List Named :=
  impliedName k m ++ k.names.flatMap fun n =>
    let v := values.getD n.2 0
    match n.1 with
    | .partition => [.partition v]
    | .stack => [.stack v]
    | .stackMask => ((List.range 8).filter (bitN v)).map .stack
    | .portMask => ((List.range 24).filter (bitN v)).map .port
    | .module => [.module v]
    | .conn => [.conn v]

/-! ### The order of performance (R936) -/

/-- What the command of mailbox m names. -/
def State.mboxNames (s : State) (m : Nat) : List Named :=
  match cmdOf (s.mbox m).opcode with
  | some k => k.named m (k.values (s.mbox m).payload)
  | none => []

/-- The mailboxes whose command waits for hardware. -/
def State.waitingMboxes (s : State) : List Nat :=
  s.sunas.mboxes.filterMap fun b => if b.2.st == 1 && b.2.wait != .none then some b.1 else none

/-- The command of mailbox m waits behind one that waits for hardware and names the same resource. -/
def State.mboxBlocked (s : State) (m : Nat) : Bool :=
  (s.waitingMboxes.flatMap s.mboxNames).any fun n => (s.mboxNames m).contains n

/-- The firmware serves mailboxes: Scarab does not restart (R995), and no hand-over is in progress (R951). -/
def State.fwRuns (s : State) : Bool := !s.log.restarting && !(s.sunas.handOver.isSome && s.sunas.runningSlot != s.sunas.activeSlot)

/-- The mailbox whose command is performed next: the first in order of arrival that is not blocked. -/
def State.nextMbox (s : State) : Option Nat :=
  if s.fwRuns then s.sunas.order.find? fun m => (s.mbox m).st == 1 && !(s.mboxBlocked m) else none

/-- A command leaves the order. -/
def State.takeMbox (s : State) (m : Nat) : State := s.modSunas fun u => { u with order := u.order.filter (· != m) }

/-- Commands with an unknown opcode whose turn has come return S_BADCMD (R934, R938). -/
def State.drainFuel : Nat → State → State
  | 0, s => s
  | n + 1, s => match s.nextMbox with
    | some m => if (cmdOf (s.mbox m).opcode).isNone then State.drainFuel n ((s.takeMbox m).respond m 1 0 []) else s
    | none => s

def State.drainBad (s : State) : State := State.drainFuel s.sunas.order.length s

end Sys2Proof.Machine
end

