-- ==== Sys2Proof/Machine/Start.lean ====
section
/-!
DEFINITION. The staged start (R888 to R918), Scarab restarts (R995 to R997) and live hand-overs (R951, R953).
-/
namespace Sys2Proof.Machine

open Sys2Proof

/-! ### Stage 1 -/

/-- An image slot (0 A, 1 B). -/
def Sunas.slotOf (u : Sunas) (i : Nat) : ImgSlot := if i = 0 then u.slotA else u.slotB

/-- An image is accepted (R896): its signature verifies, its security version is not below the fuses', its
stepping is the fuses'. -/
def State.imageOk (s : State) (i : Nat) (sig : Bool) : Bool :=
  let x := s.sunas.slotOf i
  x.present && sig && decide (s.sunas.fuseVersion ≤ x.secVersion) && x.stepping == s.start.stepping

/-- The image that starts (R896 to R898), and the events: the active slot's, else the other's. -/
def State.chooseImage (s : State) (sigA sigB : Bool) : Option Nat × State :=
  let a := s.sunas.activeSlot
  let sig := fun i => if i = 0 then sigA else sigB
  if s.imageOk a (sig a) then (some a, s)
  else
    let s := s.logEv "IMAGE_REJECTED" 5 0 0xFF []
    let b := 1 - a
    if s.imageOk b (sig b) then
      (some b, (s.logEv "IMAGE_FALLBACK" 5 0 0xFF []).modStart fun x => { x with fallback := true, extraMs := 300 })
    else (none, s.logEv "IMAGE_REJECTED" 5 0 0xFF [])

/-- Apply the factory repair maps to the arrays (R899). -/
def State.applyMaps (s : State) : State :=
  s.start.maps.foldl (fun s m =>
    s.modArr (m.1 / 4) (m.1 % 4) fun a =>
      if (Tbl.find a.repairMap m.2.1).isSome then a
      else { a with repairMap := Tbl.set a.repairMap m.2.1 m.2.2,
                    rowsFree := if m.2.1 < 128 then a.rowsFree - 1 else a.rowsFree,
                    colsFree := if m.2.1 < 128 then a.colsFree else a.colsFree - 1 }) s

/-- A pinned record as bytes: kind, unit and value (DESIGN CHOICE, log entry 17: its format is not stated). -/
def Pinned.bytes (p : Pinned) : List Byte := leBytes 1 p.kind ++ leBytes 1 p.unit ++ leBytes 8 p.value
def Pinned.ofBytes (b : List Byte) : Pinned := ⟨leNat (b.take 1), leNat ((b.drop 1).take 1), leNat ((b.drop 2).take 8)⟩

/-- The records in force at a start: those committed or about to be, and those the rack controller returned
(R1010, R1013). -/
def State.pinnedNow (s : State) : List Pinned := s.log.pinned ++ s.log.pinnedQueue ++ s.cricket.returned.map Pinned.ofBytes

/-- Apply the journal: the retirement table and soft repairs that the records give (R472, R474). -/
def State.applyJournal (s : State) : State :=
  let ps := s.pinnedNow
  let s := s.forN 8 fun s k => s.modStack k fun x =>
    { x with retired := (ps.filter fun p => p.kind == 0 && p.unit == k).map (·.value),
             journal := (ps.filter fun p => p.kind == 1 && p.unit == k).map (·.value) }
  if s.cricket.returnDone then s else s.logEv "PINNED_UNAVAILABLE" 5 0 0xFF []

/-- Stage 1 ends (R896 to R900): the images' signatures, whether the repair journal can be read, the logical
cores that fail their test, and the identification of each module present. -/
def execStage1ImageVerify (sigA sigB journalOk : Bool) (failedCores : List (Fin 64)) (modules : List (Fin 6 × Bool × Nat)) (s : State) : Out :=
  .next <| if !(s.atStage 1) then s
  else if s.start.fuseBad then s.stageFail 1 3
  else
    let (img, s) := s.chooseImage sigA sigB
    match img with
    | none => s.stageFail 1 2
    | some i =>
      if !journalOk then s.stageFail 1 3
      else
        let s := (s.modSunas fun u =>
          { u with runningSlot := i, byActivate := u.uncommitted && u.activeSlot == i }).modStart fun x => { x with slot := i }
        let s := (s.applyMaps.applyJournal).islandUp islCores
        let s := failedCores.foldl (fun s h => s.retireCore h.val) s
        let s := if (s.cores.core.any fun c => c.2.st == 2) then s
          else (List.range 64).foldl (fun s h => s.clearService 4 h) s
        let s := modules.foldl (fun s m => (s.modLaser m.1 fun x => { x with present := true }).moduleStart m.1 m.2.1 m.2.2) s
        s.stageDone 1

/-! ### Stage 2 -/

/-- Take a recorded soft repair over as a hard one, or apply it again (R469, R903). -/
def Stack.reapply (k : Stack) (r : Nat) : Stack :=
  let b := bankOfRow r
  if 0 < k.hppr b then { k with hpprFree := Tbl.set k.hpprFree b (k.hppr b - 1) }
  else { k with spprFree := Tbl.set k.spprFree b (k.sppr b - 1), journal := k.journal ++ [r] }

/-- Bring a stack up after training (R479): its vendor and repair resources, the journal, the fences. -/
def Stack.trained (k : Stack) (vendor sppr hppr : Nat) (banks : List (Nat × Nat × Nat)) : Stack :=
  let k := { k with vendor := vendor, spprAll := sppr, hpprAll := hppr, fenced := k.retired,
                    spprFree := banks.foldl (fun (t : Tbl Nat) (b : Nat × Nat × Nat) => Tbl.set t b.1 b.2.1) [],
                    hpprFree := banks.foldl (fun (t : Tbl Nat) (b : Nat × Nat × Nat) => Tbl.set t b.1 b.2.2) [] }
  k.journal.foldl Stack.reapply { k with journal := [] }

/-- HBM after stage 2: every sector zero and without an error mark (R479), nothing of the Scarab reserve left
(R1012). -/
def State.zeroHbm (s : State) : State :=
  { s with mem := s.mem.filter fun c => decide (2 ^ 39 ≤ c.1), bad := s.bad.filter fun g => decide (2 ^ 39 ≤ g),
           log := { s.log with pinnedHeld := [], spill := [] } }

/-- Stage 2 ends (R901 to R903, R479, R480). A stack of which nothing is given has failed its training. -/
def execStage2Hbm (up : List TrainedStack) (s : State) : Out :=
  .next <| if !(s.atStage 2) then s
  else
    let s := s.forN 4 fun s i => s.islandUp (4 + i)
    let s := { s with hbm := { s.hbm with mode := s.start.storedMode } }
    let s := up.foldl (fun s x =>
      let k : Nat := x.stack.val
      let s : State := s.modStack k fun y => y.trained x.vendor.val x.sppr.val x.hppr.val (x.banks.map fun b => (b.1.val, b.2.1.val, b.2.2.val))
      if (s.stack k).retired.length = 4096 then ((s.setStackSt k 2).setFlag (lnHc k) fHcRetireFull).raiseService 0 k
      else (s.setStackSt k 1).clearService 0 k) s
    let failed := (List.range 8).filter fun k => !((s.stack k).serves)
    let s := failed.foldl (fun s k => (((s.setStackSt k 3).logEv "HBM_STACK_LOST" 0 k 0xFF []).raiseService 0 k)) s.zeroHbm
    if 2 ≤ failed.length then s.stageFail 2 4 else s.stageDone 2

/-! ### Stage 3 -/

def State.coreInService (s : State) (h : Nat) : Bool := (s.core h).st != 2

/-- The boot block (R904). -/
def State.bootBlock (s : State) : List Byte :=
  let stackBits := ((List.range 8).map fun k => if (s.stack k).serves then 2 ^ k else 0).sum
  let cores := ((List.range 64).map fun h => if s.coreInService h then 2 ^ h else 0).sum
  let lost := (List.range 64).any fun h => !(s.coreInService h)
  leBytes 8 0x4B4F4F4238384E47 ++ leBytes 8 s.hbmEnd ++ leBytes 4 stackBits ++ leBytes 4 s.hbm.mode ++ leBytes 8 cores ++
  leBytes 4 (s.start.slot + (if s.start.fallback then 256 else 0)) ++
  leBytes 4 (b2n (s.stacksUp.length == 7) + 2 * b2n lost + 4 * b2n s.start.fallback)

/-- Stage 3 begins (R904): the boot image and the boot block are in HBM, and core 0 starts. -/
def execStage3Boot (image : List Byte) (s : State) : Out :=
  .next <| if !(s.atStage 3) then s
  else
    let at_ := (image.length + 4095) / 4096 * 4096
    let s := if (s.island islCores).up then s else s.islandUp islCores
    let s := s.store 0 image
    let s := s.store at_ (s.bootBlock ++ List.replicate (4096 - s.bootBlock.length) 0)
    let s := s.modStart fun x => { x with imageBytes := image.length }
    if !(s.coreInService 0) then s
    else s.modCore 0 fun c =>
      (({ Core.reset 0 with phys := c.phys, spart := c.spart, st := 0 }).setX 10 0).setX 11 (BitVec.ofNat 64 at_)

/-- Stage 3 completes and stage 4 begins (R905, R908): the Culm islands start, LSM_EN rises for the accepted
modules, and the ports start. -/
def State.stage4Begin (s : State) : State :=
  let s := ((s.stageDone 3).islandUp 10).islandUp 11
  let s := s.forN 6 fun s m =>
    let x := s.laser m
    if !x.present || x.st == 4 then s
    else if x.feed then (s.lsmEn m true).setModuleSt m 1
    else s.setModuleSt m 7
  s.forN 24 fun s k => s.portStart k

/-! ### Stage 4 -/

/-- Test a Tiller and bring it into service (R907): its failing scratchpad banks, and the defective entries of
each array. A Tiller that has microcode since the start keeps it (R952). -/
def State.tillerUp (s : State) (t : Nat) (banks : List Nat) (defects : List (Nat × List Nat)) : State :=
  let before := s
  let s := (s.islandUp t).scrambleAll [(spmBase t, 0x08000000), (acmKey t 0 0, 2 ^ 25)]
  let s := { s with bad := s.bad.filter fun g =>
    !(decide (spmBase t ≤ g ∧ g < spmBase t + 0x08000000) || decide (acmKey t 0 0 ≤ g ∧ g < acmKey t 0 0 + 2 ^ 25)) }
  let s := s.modTile t fun x => { x with inService := true, broughtUp := true }
  let s := banks.foldl (fun s b =>
    if (s.tile t).spareBanks = 0 then
      (s.modTile t fun x => { x with retiredBanks := x.retiredBanks + 1, bankMap := [] }).logEv "SPM_BANK_RETIRED" 3 t 0xFF []
    else s.bankSpare t b) s
  let s := defects.foldl (fun s d => if (s.arr t d.1).retired || !(s.tile t).inService then s else s.arrRepair t d.1 d.2) s
  let level := (s.sunas.slotOf s.sunas.runningSlot).mcode
  let s := (s.forN 4 fun s a => s.modArr t a fun x => { x with mcode := if x.mcode = 0 then level else x.mcode }).keysFrom before
  if !(s.tile t).inService then s
  else if s.workingArrays t < 2 ∨ 64 - (s.tile t).retiredBanks < 32 then s.tillerOffline t true
  else s.clearService 3 t

/-- A Tiller's bring-up at stage 4. -/
def execStage4TillerBringup (t : Fin 4) (banks : List (Fin 64)) (defects : List (Fin 4 × List (Fin 641))) (s : State) : Out :=
  .next <| if !(s.atStage 4) || (s.tile t).broughtUp then s
  else s.tillerUp t (banks.map (·.val)) (defects.map fun d => (d.1.val, d.2.map (·.val)))

/-- Every Tiller is in service or offline, and every port has settled (R909). -/
def State.stage4Settled (s : State) : Bool :=
  ((List.range 4).all fun t => (s.tile t).broughtUp) &&
  (List.range 24).all fun k => (s.port k).st != stOff && !(s.port k).training

/-- Stage 4 completes, or fails without a Tiller (R909, R910); the presses held until then take effect (R917). -/
def execStage4Complete (s : State) : Out :=
  .next <| if !(s.atStage 4 && s.stage4Settled) then s
  else if (List.range 4).all fun t => !(s.tile t).inService then s.stageFail 4 6
  else
    let s := s.stageDone 4
    let held := s.power.heldPresses
    held.foldl (fun s ms => s.pressDone ms) (s.modPower fun w => { w with heldPresses := [] })

/-! ### Stage 5 -/

/-- Set the own place (R805, R807): domain ports cabled to another slot are held out, and those cabled to it
serve their planes. -/
def State.setPlace (s : State) (place site : Nat) : State :=
  let s := { s with places := { s.places with valid := true, place := place % 2 ^ 20, site := site % 8 } }
  let own := place % 128
  s.forN 24 fun s k =>
    let p := s.port k
    if s.hallPort k || p.st != stActive then s
    else if p.partner = some own then
      if p.misplaced then (s.modPort k fun p => { p with misplaced := false }).planeBack (s.planeOfPort k) else s
    else if p.misplaced then s
    else
      let s := ((s.modPort k fun p => { p with misplaced := true }).setFlag lnPl 1).logEv "PLACE_MISMATCH" 1 k 0xFF
        [(1, k), (1, own), (1, p.partner.getD 0)]
      s.planeLost (s.planeOfPort k)

/-- Domain join completes (R911). -/
def execDomainJoin (s : State) : Out :=
  .next <| match s.start.placeGiven with
  | some (place, site) => if s.atStage 5 && s.start.joinAsked then (s.setPlace place site).stageDone 5 else s
  | none => s

/-- The stage in progress exceeds its budget (R905, R910, R913). -/
def execStageBudgetExpiry (s : State) : Out :=
  .next <|
    let k := s.start.stage + 1
    if s.startRuns && decide (k ≤ 4) then s.stageFail k (if k = 3 then 5 else 1) else s

/-! ### Scarab restarts and hand-overs -/

/-- A lockstep mismatch (R995, R997). -/
def execScarabLockstep (s : State) : Out :=
  .next <|
    let again := match s.log.lockstepAt with
      | some t => decide (s.timeNs < t + 3600000000000)
      | none => false
    if s.log.halted then s
    else if again then
      let s := s.modLog fun l => { l with halted := true, restarting := false }
      let s := s.forN 8 fun s p => s.partReset p
      (s.raiseService 5 1).logEv "SCARAB_HALT" 5 0 0xFF []
    else (s.modLog fun l => { l with lockstepAt := some s.timeNs, restarting := true }).logEv "SCARAB_LOCKSTEP" 5 0 0xFF []

/-- All ones: the DETAIL of a command that a restart ended (R996). -/
def restartDetail : Nat := 2 ^ 64 - 1

/-- Scarab's restart completes (R996). -/
def execScarabRestartDone (s : State) : Out :=
  .next <| if !s.log.restarting then s
  else
    let s := s.modLog fun l => { l with restarting := false }
    let s := (s.sunas.mboxes.filter fun m => m.2.st == 1).foldl (fun s m => s.respond m.1 0x0C restartDetail []) s
    let s := s.modSunas fun u => { u with order := [] }
    let s := (s.sunas.tickets.filter fun t => decide (t.2.st ≤ 1) && t.2.mbox != 64).foldl (fun s t => s.endTicket t.1 0x0C) s
    s.forN 8 fun s k => (s.stack k).reported.foldl (fun s q =>
      let rep := s.reportRow k q.1
      rep.2.modStack k fun x => { x with reported := x.reported.map fun y => if y.1 = q.1 then (q.1, rep.1) else y }) s

/-- The new firmware takes over after a live FW_ACTIVATE (R951): the doorbells held meanwhile are served. -/
def execLiveHandOver (s : State) : Out :=
  .next <| if s.sunas.handOver.isSome then (s.modSunas fun u => { u with runningSlot := u.activeSlot }).drainBad else s

/-- The new firmware has not answered STATUS within 2 s (R953). -/
def execFwReverted (s : State) : Out :=
  .next <| match s.sunas.handOver with
  | none => s
  | some (slot, uncommitted, byActivate, verified) =>
    ((s.modSunas fun u =>
      { u with activeSlot := slot, runningSlot := slot, uncommitted := uncommitted, byActivate := byActivate,
               verified := verified, handOver := none }).logEv "FW_REVERTED" 5 0 0xFF []).drainBad

end Sys2Proof.Machine
end

