-- ==== Sys2Proof/Machine/Flashlog.lean ====
section
/-!
DEFINITION. The flash device: programming the log and the pinned records, and its wear (R1008 to R1020).
-/
namespace Sys2Proof.Machine

open Sys2Proof

/-- Where a worn block lies. -/
inductive FlashRegion where
  | log | pinned | slotA | slotB
deriving DecidableEq, Repr

/-- A block wears out (R1008, R1009): a spare replaces it, or its region shrinks. -/
def State.blockWorn (s : State) (r : FlashRegion) : State :=
  let s := s.modLog fun l =>
    if 0 < l.spareBlocks then { l with spareBlocks := l.spareBlocks - 1 }
    else match r with
      | .log => { l with logBlocks := l.logBlocks - 1 }
      | .pinned => { l with pinnedBlocks := l.pinnedBlocks - 1, pinnedFree := l.pinnedFree - 1 }
      | .slotA => { l with slotABlocks := l.slotABlocks - 1 }
      | .slotB => { l with slotBBlocks := l.slotBBlocks - 1 }
  (s.setFlag lnFl fFlFlash).logEv "FLASH_BLOCK_RETIRED" 8 0 0xFF []

/-- Two lists of records merged in the order of their numbers. -/
def mergeRecs : Nat → List LogRec → List LogRec → List LogRec
  | 0, a, b => a ++ b
  | _ + 1, [], b => b
  | _ + 1, a, [] => a
  | n + 1, x :: a, y :: b => if x.number ≤ y.number then x :: mergeRecs n a (y :: b) else y :: mergeRecs n (x :: a) b

/-- The buffered records in the order of their numbers (R1018, R1019). -/
def Flash.buffered (l : Flash) : List LogRec :=
  let high := l.ring2.length + l.spill.length
  mergeRecs (l.ring.length + high) l.ring (mergeRecs high l.ring2 l.spill)

/-- Program up to `n` buffered records in the order of their numbers; a full region loses its oldest block (R1018 to
R1020). -/
def Flash.program (l : Flash) (n : Nat) : Flash :=
  let written := l.buffered.take n
  let last := ((written.getLast?).map fun r => r.number).getD 0
  let left := fun (r : LogRec) => decide (last < r.number)
  let all := l.programmed ++ written
  let excess := all.length - l.logBlocks * 4096
  let lost := (excess + 4095) / 4096 * 4096
  { l with ring := l.ring.filter left, ring2 := l.ring2.filter left, spill := l.spill.filter left,
           programmed := all.drop lost, overwritten := l.overwritten + min lost all.length }

/-- Report the records dropped once space has returned (R1018, R1019). -/
def State.reportDropped (s : State) : State :=
  let l := s.log
  if l.dropped = 0 && l.droppedHigh = 0 then s
  else
    let s := s.modLog fun l => { l with dropped := 0, droppedHigh := 0 }
    let s := if l.dropped = 0 then s else s.logEv "LOG_DROPPED" 8 0 0xFF [(4, l.dropped)]
    if l.droppedHigh = 0 then s else s.logEv "LOG_DROPPED" 8 0 0xFF [(4, l.droppedHigh)]

/-- A program of `n` log records completes, in blocks erased `erases` times at most; `worn` says that its block
wore out (R1008, R1018). -/
def execLogProgram (n erases : Nat) (worn : Bool) (s : State) : Out :=
  .next <|
    let s := s.modLog fun l => { l.program n with maxErase := max l.maxErase erases }
    let s := if worn then s.blockWorn .log else s
    s.reportDropped

/-- The record that a pinned record supersedes: the same retirement or journal record (R1010). -/
def Pinned.same (a b : Pinned) : Bool := a.kind == b.kind && a.unit == b.unit

/-- A pinned record without a free block (R1011): its effect stands, it is kept in the reserve and reported over
Cricket. -/
def State.pinPending (s : State) (r : Pinned) : State :=
  let c := s.cricket
  let s := { s with cricket := { c with pinned := c.pinned ++ [PinnedMsg.mk c.nextSeq r.bytes s.timeNs true], nextSeq := (c.nextSeq + 1) % 65536 } }
  let s := (s.modLog fun l => { l with pinnedHeld := l.pinnedHeld ++ [r] }).setFlag lnFl fFlFlash
  ((s.logEv "FLASH_EXHAUSTED" 8 0 0xFF []).logEv "PINNED_PENDING" 8 0 0xFF []).raiseService 5 0

/-- Commit a pinned record in a free block: a block stays in use for each record not superseded. -/
def Flash.commit (l : Flash) (r : Pinned) : Flash :=
  let old := l.pinned.any r.same
  { l with pinned := l.pinned ++ [r], pinnedFree := if old then l.pinnedFree else l.pinnedFree - 1 }

/-- The write of the next pinned record (R1010, R1011); with none queued, of the next one held in the reserve. -/
def execPinnedWrite (erases : Nat) (worn : Bool) (s : State) : Out :=
  .next <|
    let s := s.modLog fun l => { l with maxErase := max l.maxErase erases }
    let s := match s.log.pinnedQueue with
      | r :: rest =>
        let s := s.modLog fun l => { l with pinnedQueue := rest }
        if s.log.pinnedFree = 0 then s.pinPending r else s.modLog fun l => l.commit r
      | [] => match s.log.pinnedHeld with
        | r :: rest => if s.log.pinnedFree = 0 then s else s.modLog fun l => { l.commit r with pinnedHeld := rest }
        | [] => s
    let s := if worn then s.blockWorn .pinned else s
    if s.log.pinnedHeld.isEmpty then s.clearService 5 0 else s

end Sys2Proof.Machine
end

