-- ==== Sys2Proof/Machine/Mailbox.lean ====
section
/-!
DEFINITION. Ringing a mailbox's doorbell (R925, R926), and the bytes of log records (R1015).
-/
namespace Sys2Proof.Machine

open Sys2Proof

/-- The payload of a command header, as it stands in the request area or, with EXT, in HBM (R929, R930). -/
def State.cmdPayload (s : State) (m : Nat) (header : List Byte) : List Byte :=
  let w0 := headerWord header 0
  let len := field w0 56 32
  if bitN w0 17 then
    (if s.userHbmOk (headerWord header 2) len && decide (len ≤ 16781312) then s.peek (headerWord header 2) len else [])
  else s.peek (mbBase m + 0x60) (min len 1952)

/-- The doorbell of mailbox m is rung with `seq`: a command is accepted, or refused as an overrun. -/
def State.ringDoorbell (s : State) (m seq : Nat) : State :=
  if (s.mbox m).st = 1 then s.setFlag (lnMb m) fMbOverrun
  else
    let header := s.peek (mbBase m + 0x40) 32
    let payload := s.cmdPayload m header
    ((s.modMbox m fun b => { b with doorbell := seq % 65536, seq := seq % 65536, st := 1, header := header, payload := payload, wait := .none }).modSunas
      fun u => { u with order := u.order ++ [m] }).drainBad

/-- The characters of a name in ASCII, padded with zero bytes. -/
def asciiBytes (n : Nat) (name : String) : List Byte :=
  ((name.toList.map fun (c : Char) => BitVec.ofNat 8 c.toNat) ++ List.replicate n 0).take n

/-- The 64 bytes of a log record (R1015). -/
def LogRec.bytes (r : LogRec) : List Byte :=
  leBytes 8 r.number ++ leBytes 8 r.time ++ leBytes 1 r.severity ++ leBytes 1 r.source ++ leBytes 2 r.index ++
  leBytes 1 r.partition ++ leBytes 1 r.count ++ leBytes 2 0 ++ asciiBytes 24 r.name ++ r.detail

/-- Every record that the log still holds, by rising number (R1020). -/
def Flash.records (l : Flash) : List LogRec := l.programmed ++ l.ring ++ l.ring2 ++ l.spill

end Sys2Proof.Machine
end

