-- ==== Sys2Proof/Machine/Cricket.lean ====
section
/-!
DEFINITION. The Cricket management segment (R1025 to R1058).
-/
namespace Sys2Proof.Machine

open Sys2Proof

def State.modCk (s : State) (f : Cricket → Cricket) : State := { s with cricket := f s.cricket }

/-- Add to word `w` of `CK_DATA`. -/
def State.ckCount (s : State) (w n : Nat) : State :=
  s.modCk fun c => { c with counts := Tbl.upd 0 c.counts w fun x => sat32 (x + n) }

/-- An error counter rises, with its flag (R1057). -/
def State.ckErr (s : State) (w : Nat) : State := (s.ckCount w 1).setFlag lnCk 1

/-- Set the port's state (R1054), with the flag of a change. -/
def State.setCkSt (s : State) (st : Nat) : State :=
  if s.cricket.st = st then s else (s.modCk fun c => { c with st := st }).setFlag lnCk 0

/-- Count of a Tiller's arrays in service. -/
def State.arraysUp (s : State) : Nat :=
  ((List.range 4).map fun t => if (s.tile t).inService then s.workingArrays t else 0).sum

/-- A sum of powers of two: bit i where `f i` holds. -/
def bitsOf (n : Nat) (f : Nat → Bool) : Nat := ((List.range n).map fun i => if f i then 2 ^ i else 0).sum

/-- The health summary (R1021). -/
def State.healthSummary (s : State) : Nat :=
  (s.log.logMark % 65536) * 2 ^ 48 + ((List.range 24).filter fun k => (s.port k).st == stActive).length * 2 ^ 32 +
  s.arraysUp * 2 ^ 27 + bitsOf 6 (fun m => (s.laser m).st == 2) * 2 ^ 21 + bitsOf 8 (fun k => (s.stack k).serves) * 2 ^ 13 +
  bitsOf 4 (fun t => (s.tile t).inService) * 2 ^ 9 + b2n (s.power.islands.any fun i => i.2.throttled || i.2.clamped) * 256 +
  b2n (!s.log.service.isEmpty) * 128 + b2n s.log.failureSeen * 64 + b2n s.log.degradedSeen * 32 + b2n s.start.failed * 16 + s.start.stage

/-- A burst that did not arrive is sent again (R1043). -/
def State.ckRetry (s : State) : State :=
  match s.cricket.inFlight with
  | some b => (s.modCk fun c => { c with inFlight := none, retries := c.retries ++ [b] }).ckCount 5 1
  | none => s

/-- The transmitter is muted (R1049). -/
def State.ckMute (s : State) : State :=
  ((s.modCk fun c => { c with mutedAt := s.timeNs, agree := 0 }).setCkSt 3).ckErr 6

/-- The next state of a port that leaves MUTED (R1050), or starts to work: a member, or joining. -/
def Cricket.workSt (c : Cricket) : Nat := if c.member.isSome then 2 else 1

/-- Rack time at a beacon (R1052, R1053): the first calibration steps package time forward, later ones move it
by at most 100 ns. -/
def State.rackTime (s : State) (time : Nat) : State :=
  let est := time + s.cricket.delay
  if s.cricket.calibrated then { s with timeNs := s.timeNs + min 100 (est - s.timeNs) }
  else { s with timeNs := max s.timeNs est, cricket := { s.cricket with calibrated := true } }

/-- A beacon is received: its frame number, its TIME, its ECHO bits, and how far its arrival lies from the
prediction in ns (R1043, R1047 to R1053). -/
def execBeacon (frame time echo : Nat) (diff : Int) (s : State) : Out :=
  .next <| if s.cricket.st = 4 then s
  else
    let c := s.cricket
    let off := (c.offset.getD 0).natAbs
    let err : Int := if diff.natAbs ≥ off then diff else off
    let s := (s.ckCount 0 1).modCk fun c => { c with frame := frame % 2 ^ 64, missed := 0, offset := none, lastErr := err }
    let s := if c.inFlight.isSome && bitN echo c.sentSlot then s.modCk fun c => { c with inFlight := none } else s.ckRetry
    if c.st = 0 then
      let s := s.modCk fun c => { c with seen := c.seen + 1 }
      if 2 ≤ s.cricket.seen then (s.modCk fun c => { c with seen := 0 }).setCkSt 1 else s
    else if c.st = 3 then
      let agree := if diff.natAbs ≤ 50 then c.agree + 1 else 0
      let s := s.modCk fun c => { c with agree := agree }
      if 2 ≤ agree then s.setCkSt c.workSt else s
    else if 250 < err.natAbs then s.ckMute
    else
      let s := if c.assigned then (s.modCk fun c => { c with assigned := false }).setCkSt 2 else s
      if s.cricket.st = 2 then s.rackTime time else s

/-- An expected beacon does not arrive (R1043, R1049). -/
def execBeaconMiss (s : State) : Out :=
  .next <| if s.cricket.st = 4 then s
  else
    let s := ((s.ckCount 1 1).modCk fun c => { c with missed := c.missed + 1, seen := 0, agree := 0 }).ckRetry
    if 4 ≤ s.cricket.missed ∧ (s.cricket.st = 1 ∨ s.cricket.st = 2) then s.ckMute else s

/-- The port is silent while Scarab restarts or hands over (R1056). -/
def State.ckSilent (s : State) : Bool :=
  s.log.restarting || (s.sunas.handOver.isSome && s.sunas.runningSlot != s.sunas.activeSlot)

/-- A new message number (R1033). -/
def Cricket.bump (c : Cricket) : Cricket := { c with nextSeq := (c.nextSeq + 1) % 65536 }

/-- The burst that the member's slot carries, by the order of R1037: retries, mailbox responses, log records, a
request for held records, pinned records, else a health report. -/
def State.nextBurst (s : State) : Burst × State :=
  let c := s.cricket
  match c.retries, c.mailbox, s.log.toReport with
  | b :: rest, _, _ => (b, s.modCk fun c => { c with retries := rest })
  | [], b :: rest, _ => (b, s.modCk fun c => { c with mailbox := rest })
  | [], [], r :: rest =>
    (⟨0x02, c.nextSeq, 0, 1, r.bytes⟩, (s.modLog fun l => { l with toReport := rest }).modCk Cricket.bump)
  | [], [], [] =>
    if c.askPinned then (⟨0x04, c.nextSeq, 0, 1, []⟩, s.modCk fun c => { c.bump with askPinned := false })
    else match c.pinned.find? fun p => p.due with
      | some p => (⟨0x04, p.seq, 0, 1, p.body⟩, s.modCk fun c =>
          { c with pinned := c.pinned.map fun q => if q.seq = p.seq then { q with due := false, sentAt := s.timeNs } else q })
      | none => (⟨0x01, c.nextSeq, 0, 1, []⟩, s.modCk Cricket.bump)

/-- The member's own slot: one burst, with the current health summary first (R1033, R1036, R1037). -/
def execMemberSlot (s : State) : Out :=
  .next <| match s.cricket.member with
  | some m => if s.cricket.st ≠ 2 ∨ s.ckSilent then s
    else
      let r := s.nextBurst
      (r.2.modCk fun c => { c with inFlight := some r.1, sentSlot := m }).emit (.burst r.1.kind m (leBytes 8 s.healthSummary ++ r.1.body))
  | none => s

/-- A join slot while JOINING (R1040, R1042). -/
def execJoinSlot (s : State) : Out :=
  .next <|
    let c := s.cricket
    let now := match c.joinFrame with
      | some f => decide (f ≤ c.frame)
      | none => true
    if c.st = 1 && !c.assigned && c.joinSent.isNone && now && !s.ckSilent then
      (s.modCk fun c => { c with joinSent := some c.frame, joinFrame := none }).emit (.burst 0x05 0 (leBytes 8 s.start.serial.toNat))
    else s

/-- No ASSIGN has answered a JOIN: it is repeated in one of the next 1 to 16 frames, drawn at random (R1042). -/
def execJoinRetry (s : State) : Out :=
  .next <| if s.cricket.st = 1 ∧ s.cricket.joinSent.isSome then
    { s.modCk fun c => { c with joinSent := none, joinFrame := some (c.frame + 1 + Config.randomDraw s.freeCtr % 16) } with freeCtr := s.freeCtr + 1 }
  else s

/-- ASSIGN for a serial number (R1040, R1041). -/
def execAssign (serial : W64) (member : Fin 128) (delay advance : Nat) (s : State) : Out :=
  .next <| if s.cricket.st = 1 ∧ serial = s.start.serial then
    s.modCk fun c => { c with member := some member.val, delay := delay % 2 ^ 32, advance := advance % 2 ^ 32, assigned := true,
                              joinSent := none, joinFrame := none }
  else s

/-- PLACE (R911, R1035). -/
def execPlace (place : Fin 1048576) (site : Fin 8) (s : State) : Out :=
  .next <| if s.cricket.member.isSome then s.modStart fun x => { x with placeGiven := some (place.val, site.val) } else s

/-- Discard a partly received command (R1038). -/
def State.dropMail (s : State) : State :=
  match s.cricket.mailIn with
  | some (_, _, next, _) => (s.modCk fun c => { c with mailIn := none }).ckCount 7 next
  | none => s

/-- A complete MB57 command (R1038, R925). -/
def State.mailDone (s : State) (seq : Nat) (bs : List Byte) : State :=
  let s := s.modCk fun c => { c with mailIn := none }
  if (s.mbox 57).st = 1 then s.setFlag (lnMb 57) fMbOverrun
  else (s.poke (mbBase 57 + 0x40) (bs.take 1984)).ringDoorbell 57 seq

/-- A fragment of an MB57 command: in order, or discarding what was received (R1038). -/
def execMailbox (seq : Fin 65536) (frag frags : Fin 5) (data : List Byte) (s : State) : Out :=
  .next <| if s.cricket.member.isNone ∨ frags.val = 0 ∨ frags.val ≤ frag.val ∨ 672 < data.length then s
  else
    let inOrder := match s.cricket.mailIn with
      | some (q, n, next, _) => decide (q = seq.val ∧ n = frags.val ∧ next = frag.val)
      | none => frag.val == 0
    let s := if inOrder then s else s.dropMail
    let have_ := match s.cricket.mailIn with
      | some (_, _, _, bs) => bs
      | none => []
    if !inOrder && frag.val != 0 then s.ckCount 7 1
    else if frag.val + 1 = frags.val then s.mailDone seq.val (have_ ++ data)
    else s.modCk fun c => { c with mailIn := some (seq.val, frags.val, frag.val + 1, have_ ++ data) }

/-- A fragment of a held pinned record; an empty one ends the set (R1013, R1035). -/
def execPinnedReturn (frag frags : Fin 5) (data : List Byte) (s : State) : Out :=
  .next <| if s.cricket.member.isNone then s
  else if data = [] then s.modCk fun c => { c with returnDone := true, pinnedIn := [] }
  else s.modCk fun c =>
    let bs := (if frag.val = 0 then [] else c.pinnedIn) ++ data
    if frag.val + 1 = frags.val then { c with returned := c.returned ++ [bs], pinnedIn := [] } else { c with pinnedIn := bs }

/-- OFFSET: later bursts start that much earlier, and it counts in the next timing error (R1047, R1048). -/
def execOffset (ns : Int) (s : State) : Out :=
  .next <| if s.cricket.member.isNone then s
  else s.modCk fun c =>
    { c with shift := c.shift - ns, offset := some (match c.offset with
      | some o => if o.natAbs ≥ ns.natAbs then o else ns
      | none => ns) }

/-- Leave membership and join again (R1051). -/
def State.ckRejoin (s : State) : State :=
  (s.modCk fun c => { c with member := none, assigned := false, joinSent := none, joinFrame := none }).setCkSt 1

/-- RELEASE (R1051). -/
def execRelease (s : State) : Out := .next <| if s.cricket.st = 2 ∨ s.cricket.st = 3 then s.ckRejoin else s

/-- PINNED_ACK (R1039). -/
def execPinnedAck (seq : Fin 65536) (s : State) : Out :=
  .next <| s.modCk fun c => { c with pinned := c.pinned.filter fun p => p.seq != seq.val }

/-- One second has passed: every pinned record sent and not acknowledged is sent again (R1039). -/
def execPinnedResend (s : State) : Out :=
  .next <| s.modCk fun c => { c with pinned := c.pinned.map fun p => { p with due := true } }

/-- More than 60 s in MUTED (R1051). -/
def execMuteTimeout (s : State) : Out := .next <| if s.cricket.st = 3 then s.ckRejoin else s

/-- The Cricket fibre-detect is lost: the next beacon does not arrive (R1027, R1043, R1055). -/
def execCricketFibreOut (s : State) : Out :=
  .next <|
    let s := if s.optics.cricketFibre then { s with optics := { s.optics with cricketFibre := false } }.setFlag lnLs 1 else s
    (s.ckRetry.modCk fun c => { c with member := none, assigned := false, joinSent := none, joinFrame := none, seen := 0, missed := 0,
                                       mailIn := none, pinnedIn := [] }).setCkSt 4

/-- The Cricket fibre-detect has been present for 100 ms (R1055, R798). -/
def execCricketFibreIn (s : State) : Out :=
  .next <|
    let s := if s.optics.cricketFibre then s
      else ({ s with optics := { s.optics with cricketFibre := true } }.mated 30).setFlag lnLs 1
    if s.cricket.st = 4 then (s.modCk fun c => { c with seen := 0, missed := 0 }).setCkSt 0 else s

/-- Any other burst on the star (R1034, R1044, R1045): `ok` says that its CRC passes, its KIND is listed and its
reserved fields are zero; `second` that another preamble came during it, at least 6 dB stronger or not. -/
def execCricketBurst (ok : Bool) (second : Option Bool) (s : State) : Out :=
  .next <| if s.cricket.st = 4 then s
  else match second with
    | some true => s.ckErr 3
    | some false => if ok then s else s.ckErr 4
    | none => if ok then s else s.ckErr 2

end Sys2Proof.Machine
end

