-- ==== Sys2Proof/Machine/Mmio.lean ====
section
/-!
DEFINITION. The MMIO map (R971) and what each register reads (R18 to R23, R955 to R987).
-/
namespace Sys2Proof.Machine

open Sys2Proof

/-! ### The map -/

/-- The register blocks. -/
inductive Blk where
  | array (t a : Nat)
  | ve (t : Nat)
  | sq (t : Nat)
  | hc (k : Nat)
  | wv (t : Nat)
  | ct (t : Nat)
  | db (t : Nat)
  | rp (t : Nat)
  | ac | dm | pl | rk | hk | xp | st | fl | pw
  | op (k : Nat)
  | ls | ck
  | mb (m : Nat)
  | id | ic
deriving DecidableEq, Repr

def mmioBase : Nat := 0x030000000000
def tillerBase (t : Nat) : Nat := mmioBase + t * 0x1000000
def arrayBase (t a : Nat) : Nat := tillerBase t + 0x100000 + a * 0x1000
def veBase (t : Nat) : Nat := tillerBase t + 0x140000
def sqBase (t : Nat) : Nat := tillerBase t + 0x180000
def hcBase (k : Nat) : Nat := tillerBase (k / 2) + 0x200000 + k % 2 * 0x10000
def wvBase (t : Nat) : Nat := tillerBase t + 0x220000
def ctBase (t : Nat) : Nat := tillerBase t + 0x240000
def dbBase (t : Nat) : Nat := tillerBase t + 0x300000
def rpBase (t : Nat) : Nat := tillerBase t + 0x310000
def acBase : Nat := mmioBase + 0x4000000
def dmBase : Nat := mmioBase + 0x4800000
def plBase : Nat := mmioBase + 0x4840000
def rkBase : Nat := mmioBase + 0x4880000
def hkBase : Nat := mmioBase + 0x48C0000
def xpBase : Nat := mmioBase + 0x4900000
def stBase : Nat := mmioBase + 0x4940000
def flBase : Nat := mmioBase + 0x4980000
def pwBase : Nat := mmioBase + 0x49C0000
def opBase (k : Nat) : Nat := mmioBase + 0x5000000 + k * 0x1000
def lsBase : Nat := mmioBase + 0x5020000
def ckBase : Nat := mmioBase + 0x5040000
def idBase : Nat := mmioBase + 0x7000000
def icBase : Nat := mmioBase + 0x7010000

/-- The block at an offset of a Tiller. -/
def tillerBlock (t o : Nat) : Option (Blk × Nat) :=
  if 0x100000 ≤ o ∧ o < 0x104000 then some (.array t ((o - 0x100000) / 0x1000), o % 0x1000)
  else if 0x140000 ≤ o ∧ o < 0x141000 then some (.ve t, o % 0x1000)
  else if 0x180000 ≤ o ∧ o < 0x181000 then some (.sq t, o % 0x1000)
  else if 0x200000 ≤ o ∧ o < 0x220000 then some (.hc (2 * t + (o - 0x200000) / 0x10000), o % 0x10000)
  else if 0x220000 ≤ o ∧ o < 0x221000 then some (.wv t, o % 0x1000)
  else if 0x240000 ≤ o ∧ o < 0x250000 then some (.ct t, o % 0x10000)
  else if 0x300000 ≤ o ∧ o < 0x310000 then some (.db t, o % 0x10000)
  else if 0x310000 ≤ o ∧ o < 0x310400 then some (.rp t, o % 0x1000)
  else none

/-- The 4 KiB blocks of the package that stand alone, by offset from the start of the map. -/
def singleBlocks : List (Nat × Blk) :=
  [(0x4800000, .dm), (0x4840000, .pl), (0x4880000, .rk), (0x48C0000, .hk), (0x4900000, .xp), (0x4940000, .st),
   (0x4980000, .fl), (0x49C0000, .pw), (0x5020000, .ls), (0x5040000, .ck), (0x7000000, .id)]

/-- The block of an address, and the offset in it; none in a hole (R960, R971). -/
def blockAt (a : Nat) : Option (Blk × Nat) :=
  if a < mmioBase ∨ 0x040000000000 ≤ a then none
  else
    let r := a - mmioBase
    if r < 0x4000000 then tillerBlock (r / 0x1000000) (r % 0x1000000)
    else if r < 0x4010000 then some (.ac, r - 0x4000000)
    else if 0x5000000 ≤ r ∧ r < 0x5018000 then some (.op ((r - 0x5000000) / 0x1000), r % 0x1000)
    else if 0x6000000 ≤ r ∧ r < 0x6040000 then some (.mb ((r - 0x6000000) / 0x1000), r % 0x1000)
    else if 0x7010000 ≤ r ∧ r < 0x7012000 then some (.ic, r - 0x7010000)
    else (singleBlocks.find? fun b => decide (b.1 ≤ r ∧ r < b.1 + 0x1000)).map fun b => (b.2, r - b.1)

/-! ### What the blocks have in common: control, flags and index registers -/

/-- The interrupt line of a block (R974); the interrupt block shares the identification block's, and the
doorbells the pending words'. -/
def Blk.line : Blk → Nat
  | .array t a => lnArray t a | .ve t => lnVe t | .sq t => lnSq t | .hc k => lnHc k | .wv t => lnWv t | .ct t => lnCt t
  | .db t => lnRpend t | .rp t => lnRpend t | .ac => lnAc | .dm => lnDm | .pl => lnPl | .rk => lnRk | .hk => lnHk
  | .xp => lnXp | .st => lnSt | .fl => lnFl | .pw => lnPw | .op k => lnOp k | .ls => lnLs | .ck => lnCk | .mb m => lnMb m
  | .id => lnId | .ic => lnId

/-- The control and the flag register's offsets and the number of enable bits. -/
def Blk.common : Blk → Option (Nat × Nat × Nat)
  | .array _ _ => some (4, 0xC, 6) | .ve _ => some (4, 0xC, 7) | .sq _ => some (4, 0xC, 3) | .hc _ => some (4, 0xC, 6)
  | .wv _ => some (0, 4, 5) | .ct _ => some (0, 4, 3) | .db _ => none | .rp _ => none | .ac => some (4, 0xC, 4)
  | .dm => some (0, 8, 4) | .pl => some (4, 8, 3) | .rk => some (0, 4, 2) | .hk => some (0, 4, 3) | .xp => some (0, 4, 3)
  | .st => some (0, 8, 3) | .fl => some (0, 4, 4) | .pw => some (0, 8, 5) | .op _ => some (4, 0xC, 5) | .ls => some (0, 8, 3)
  | .ck => some (0, 8, 3) | .mb _ => some (0xC, 8, 3) | .id => some (0x18, 0x1C, 3) | .ic => none

/-- The bit CFG_ERR of a block's flags; the doorbells report in the sequencer block (R983). -/
def Blk.cfgBit : Blk → Nat
  | .array _ _ => fMaCfg | .ve _ => 31 | .sq _ => fSqCfg | .hc _ => fHcCfg | .wv _ => 4 | .ct _ => fCtCfg | .db _ => 31
  | .rp _ => 31 | .ac => 3 | .dm => fDmCfg | .pl => 2 | .rk => 1 | .hk => fHkCfg | .xp => fXpCfg | .st => fStCfg
  | .fl => fFlCfg | .pw => fPwCfg | .op _ => 4 | .ls => 2 | .ck => 2 | .mb _ => fMbCfg | .id => fIdCfg | .ic => fIdCfg

def State.cfgErr (s : State) (b : Blk) : State := s.setFlag b.line b.cfgBit

/-- An index register: its offset, that of its DATA register, its number in the block, the bits of its
field, and whether the field is a byte offset. -/
structure IndexReg where
  off : Nat
  data : Nat
  key : Nat
  bits : Nat
  byOffset : Bool

/-- The index registers of a block (R969). -/
def Blk.indexes : Blk → List IndexReg
  | .array _ _ => [⟨0x40, 0x50, 0, 10, false⟩]
  | .sq _ => [⟨0x18, 0x1C, 0, 18, true⟩, ⟨0x20, 0x24, 1, 11, true⟩]
  | .hc _ => [⟨0x28, 0x2C, 0, 8, true⟩, ⟨0x40, 0x44, 1, 12, false⟩]
  | .wv _ => [⟨8, 0xC, 0, 13, true⟩]
  | .ac => [⟨0x10, 0x14, 0, 13, false⟩, ⟨0x18, 0x1C, 1, 6, false⟩]
  | .dm => [⟨0x18, 0x1C, 0, 10, true⟩]
  | .xp => [⟨0x10, 0x14, 0, 20, true⟩]
  | .op _ => [⟨0x28, 0x2C, 0, 9, true⟩]
  | .ls => [⟨0x10, 0x14, 0, 9, true⟩]
  | .pl => [⟨0xC, 0x10, 0, 9, false⟩]
  | .rk => [⟨8, 0xC, 0, 6, true⟩]
  | .hk => [⟨8, 0xC, 0, 8, true⟩]
  | .st => [⟨0xC, 0x10, 0, 5, true⟩]
  | .fl => [⟨0x18, 0x1C, 0, 6, true⟩]
  | .ck => [⟨0xC, 0x10, 0, 6, true⟩]
  | .pw => [⟨0xC, 0x10, 0, 6, true⟩]
  | .ic => [⟨0, 4, 0, 11, true⟩]
  | .ve _ => [] | .ct _ => [] | .db _ => [] | .rp _ => [] | .mb _ => [] | .id => []

def State.index (s : State) (b : Blk) (key : Nat) : Nat := (Tbl.get 0 s.regs.index (2 * b.line + key)).toNat
def State.setIndex (s : State) (b : Blk) (key v : Nat) : State :=
  { s with regs := { s.regs with index := Tbl.set s.regs.index (2 * b.line + key) (BitVec.ofNat 32 v) } }

/-- The field of an index register. -/
def State.idx (s : State) (b : Blk) (i : IndexReg) : Nat := s.index b i.key % 2 ^ i.bits

/-- After an access to DATA: with AUTOINC the field advances by 4 or by 1 and wraps to 0 (R969). -/
def State.autoInc (s : State) (b : Blk) (i : IndexReg) : State :=
  let v := s.index b i.key
  if bitN v 31 then s.setIndex b i.key (2 ^ 31 + (s.idx b i + (if i.byOffset then 4 else 1)) % 2 ^ i.bits) else s

/-- A write to an index register: a byte offset that is not a multiple of 4 leaves it and sets CFG_ERR. -/
def State.writeIndex (s : State) (b : Blk) (i : IndexReg) (v : Nat) : State :=
  if i.byOffset && v % 4 != 0 then s.cfgErr b
  else s.setIndex b i.key ((if bitN v 31 then 2 ^ 31 else 0) + v % 2 ^ i.bits)

def State.ctrlOf (s : State) (ln : Nat) : W32 := Tbl.get 0 s.regs.ctrl ln

/-- A write to an RWM control register (R18, R964). -/
def State.writeCtrl (s : State) (b : Blk) (bits v : Nat) : State :=
  let old := (s.ctrlOf b.line).toNat
  let new := ((List.range bits).map fun i => if bitN (if bitN v (16 + i) then v else old) i then 2 ^ i else 0).sum
  { s with regs := { s.regs with ctrl := Tbl.set s.regs.ctrl b.line (BitVec.ofNat 32 new) } }

/-- A read of a flag register returns it and clears the bits it returned (R961). -/
def State.readFlags (s : State) (b : Blk) : W32 × State := (s.flagsOf b.line, s.setFlags b.line 0)

/-- Latch a HI half under a key. -/
def State.latch (s : State) (key v : Nat) : State :=
  { s with regs := { s.regs with latch := Tbl.set s.regs.latch key (BitVec.ofNat 32 v) } }

/-- A HI half: as latched, or the current one where no LO half has been read (R966). -/
def State.latched (s : State) (key now : Nat) : Nat :=
  match Tbl.find s.regs.latch key with
  | some v => v.toNat
  | none => now

/-! ### Interrupt lines (R970, R974 to R980) -/

/-- The flags that enable bit i of a block's control register enables, given the line. -/
def enabledFlags (ln i : Nat) : List Nat :=
  if ln < 16 then [[0, 2], [1], [3], [4], [6], [5]].getD i []
  else if 28 ≤ ln ∧ ln < 36 then [[0], [1], [2, 3], [4], [5], [6]].getD i []
  else if 36 ≤ ln ∧ ln < 40 then [[0], [1], [2], [4], [3]].getD i []
  else [i]

/-- A line is active (R970, R986). -/
def State.lineActive (s : State) (ln : Nat) : Bool :=
  if 24 ≤ ln ∧ ln < 28 then (s.tile (ln - 24)).rpend.any fun w => w.2 != 0
  else (List.range 7).any fun i => bitN (s.ctrlOf ln).toNat i && (enabledFlags ln i).any fun f => bitN (s.flagsOf ln).toNat f

def State.routeOf (s : State) (ln : Nat) : Nat := (Tbl.get 0 s.regs.route ln).toNat

/-- The claim of a core at a level (0 machine, 1 supervisor): the lowest line that is active, enabled and routed
there; 0x100 for none, and for a core held or lost (R975, R980). -/
def State.claim (s : State) (h level : Nat) : Nat :=
  if (s.core h).st ≠ 0 then 0x100
  else ((List.range 144).find? fun ln =>
    let r := s.routeOf ln
    bitN r 0 && field r 1 1 == level && field r 13 8 == h && s.lineActive ln).getD 0x100

/-! ### Plain registers, by block and offset: their current value -/

/-- A signed 16-bit field. -/
def s16 (i : Int) : Nat := ofSigned 16 i

def bit (b : Bool) (i : Nat) : Nat := if b then 2 ^ i else 0

/-- Entries of queue q of Tiller t. -/
def State.queueLen (s : State) (t q : Nat) : Nat := (s.queue t q).waiting.length + (s.queue t q).active.length

/-- An array's BUSY (R172). -/
def State.arrBusy (s : State) (t a : Nat) : Bool := decide (0 < s.queueLen t a)

def State.arrayReg (s : State) (t a off : Nat) : Nat :=
  let x := s.arr t a
  let q := s.queue t a
  let loading := q.active.any fun e => opc e.word == 0x40
  if off = 0 then x.mcode % 256 * 2 ^ 24 + t * 16 + a
  else if off = 8 then
    bit x.retired 31 + bit x.repairing 30 + x.active.fmt % 16 * 16 + bit loading 3 +
    bit (loading && (q.waiting.head?.map fun e => opc e.word == 0x41 && (fmtM e.word).swap == 1) == some true) 2 +
    bit (q.active.any fun e => opc e.word != 0x40) 1 + bit (s.arrBusy t a) 0
  else if off = 0x10 then x.pchkMismatch
  else if off = 0x14 then x.pchkRetryOk
  else if off = 0x18 then x.remapEvents
  else if off = 0x1C then x.rowsFree % 8 * 2 ^ 16 + x.colsFree % 16
  else if off = 0x20 then x.acmCe
  else if off = 0x24 then x.acmUe
  else 0

def State.veReg (s : State) (t off : Nat) : Nat :=
  if off = 0 then s.mcodeOf t % 256 * 2 ^ 24 + t * 16
  else if off = 8 then (s.queue t 4).waiting.length % 128 * 2 ^ 16 + bit (decide (0 < s.queueLen t 4)) 0
  else if off = 0x10 then (s.tile t).veDone
  else if off = 0x14 then (s.tile t).veFailed
  else 0

/-- Contexts of a Tiller in use, from number `lo` on, 64 of them. -/
def State.ctxsUsed (s : State) (t lo : Nat) : Nat :=
  ((List.range 64).filter fun c => (s.ctx t (lo + c)).st != .free).length

def State.sqReg (s : State) (t off : Nat) : Nat :=
  if off = 0 then 0x01000000 + t * 16
  else if off = 8 then satTo 65535 (s.tile t).collFifo.length * 2 ^ 16 + s.ctxsUsed t 64 * 2 ^ 8 + s.ctxsUsed t 0
  else if off = 0x10 then (s.tile t).entriesDone
  else if off = 0x14 then (s.tile t).entriesFailed
  else 0

def State.hcReg (s : State) (k off : Nat) : Nat :=
  let x := s.stack k
  if off = 0 then x.vendor % 256 * 2 ^ 24 + 16 * 2 ^ 8 + k / 2 * 16 + k
  else if off = 8 then
    x.st % 8 * 2 ^ 29 + bit (x.repairing && x.scrubEnable) 28 + bit x.repairing 27 + bit x.doubled 24 + bit x.throttled 23 +
    x.temp % 256
  else if off = 0x10 then x.ce
  else if off = 0x14 then x.ue
  else if off = 0x18 then x.retired.length
  else if off = 0x1C then x.lastUe % 2 ^ 32
  else if off = 0x20 then s.latched (lnHc k) (x.lastUe / 2 ^ 32 % 16)
  else if off = 0x24 then x.passes % 64 * 2 ^ 26 + x.rowsDone % 2 ^ 26
  else if off = 0x30 ∨ off = 0x34 ∨ off = 0x38 ∨ off = 0x3C then bit x.scrubEnable 8 + x.scrubPeriod % 256
  else 0

def State.acReg (s : State) (off : Nat) : Nat :=
  if off = 0 then 0x01000000 + 68
  else if off = 8 then
    ((List.range 64).filter fun h => (s.core h).st != 2).length * 2 ^ 16 + s.cores.spares.length % 8
  else if 0x1000 ≤ off ∧ off < 0x1100 then b2n (s.core ((off - 0x1000) / 4)).msip
  else if 0x2000 ≤ off ∧ off < 0x2200 then
    let v := (s.core ((off - 0x2000) / 8)).mtimecmp.toNat
    if off % 8 = 0 then v % 2 ^ 32 else v / 2 ^ 32
  else if off = 0x3000 then s.timeNs % 2 ^ 32
  else if off = 0x3004 then s.latched lnAc (s.timeNs / 2 ^ 32 % 2 ^ 32)
  else 0

def State.dmReg (s : State) (off : Nat) : Nat :=
  if off = 4 then s.planesUp.toNat * 2 ^ 16 + ((List.range 128).filter fun k => (s.slot k).st == 1).length
  else if off = 0xC then s.net.unconfirmed
  else if off = 0x10 then s.net.timeouts
  else if off = 0x14 then s.net.respreads
  else 0

def State.xpReg (s : State) (off : Nat) : Nat :=
  if off = 8 then s.net.retransmits else if off = 0xC then s.net.connFailed else 0

def State.plPlace (s : State) : Nat := bit s.places.valid 31 + s.places.site % 8 * 2 ^ 20 + s.places.place % 2 ^ 20

/-- `ST_STATUS` (R919). -/
def State.stStatus (s : State) : Nat :=
  let x := s.start
  x.stage % 16 * 2 ^ 28 + bit x.failed 27 + x.reason % 16 * 2 ^ 23 + bit x.fallback 22 + x.slot % 2 * 2 ^ 21 +
  bit (s.cricket.st == 2) 20 + bit (s.power.pwrgd && !s.power.latchClosed && x.stage == 0) 19

/-- A service request of a kind is raised for a unit. -/
def State.asked (s : State) (kind idx : Nat) : Bool := s.log.service.contains (kind, idx)

def State.flReg (s : State) (off : Nat) : Nat :=
  if off = 8 then
    bit (s.asked 5 1) 20 + bit (s.asked 5 0) 19 + bit (s.log.service.any fun x => x.1 == 4) 18 + bitsOf 6 (s.asked 2) * 2 ^ 12 +
    bitsOf 4 (s.asked 3) * 2 ^ 8 + bitsOf 8 (s.asked 0)
  else if off = 0xC then bitsOf 24 (s.asked 1)
  else if off = 0x10 then (s.log.nextNumber - 1) % 2 ^ 32
  else if off = 0x14 then s.latched lnFl ((s.log.nextNumber - 1) / 2 ^ 32 % 2 ^ 32)
  else 0

/-- The blue indicator (R1093). -/
def State.blue (s : State) : Nat × Nat :=
  match (List.range 6).find? fun m => (s.laser m).st == 6 with
  | some m => (2, m)
  | none =>
    if (List.range 6).any (fun m => (s.laser m).st == 5) || (s.power.pkgEvac && !s.power.pkgSafe) then (1, 0)
    else if s.power.pkgSafe then (3, 0) else (0, 0)

/-- The amber indicator (R1093). -/
def State.amber (s : State) : Nat :=
  if s.start.failed || s.power.trip || s.power.railFault || s.power.refclkLost || s.log.halted then 2
  else if s.log.service.isEmpty then 0 else 1

/-- `PW_STATUS` (R1103). -/
def State.pwStatus (s : State) : Nat :=
  let hot := ((s.power.islands.filter fun i => i.2.up).map fun i => i.2.temp).foldl max 0
  bit s.power.latchClosed 31 + bit s.power.btnDown 30 + bit s.power.pkgEvac 29 + bit s.power.pkgSafe 28 + s.blue.1 * 2 ^ 25 +
  s.amber * 2 ^ 23 + s.blue.2 * 2 ^ 20 + bit s.power.trip 19 + bitsOf 4 (fun t => (s.island t).throttled) * 2 ^ 8 +
  bit (s.island islCores).throttled 12 + hot.toNat % 256

def State.opReg (s : State) (k off : Nat) : Nat :=
  let p := s.port k
  if off = 0 then k / 12 * 256 + k
  else if off = 8 then
    p.st % 16 * 2 ^ 28 + bit (s.hallPort k) 27 + s.planeOfPort k % 16 * 2 ^ 23 + p.version % 4 * 2 ^ 21 + bit p.srcB 20 +
    bit p.srcA 19 + bit p.fibre 18 + bit p.spareTx 17 + bit p.spareRx 16 + min 3 p.fails * 2 ^ 14 + p.rtt % 1024
  else if off = 0x10 then p.crcErr
  else if off = 0x14 then p.frameErr
  else if off = 0x18 then p.fecUncorr
  else if off = 0x1C then p.replays
  else if off = 0x20 then p.naks
  else if off = 0x24 then p.trainFail
  else 0

def State.lsReg (s : State) (off : Nat) : Nat :=
  if off = 4 then ((List.range 6).map fun m => (s.laser m).st % 16 * 16 ^ m).sum
  else if off = 0xC then bit s.optics.cricketFibre 30 + bitsOf 6 (fun m => (s.laser m).feed) * 2 ^ 24 + bitsOf 24 fun k => (s.port k).fibre
  else 0

def State.ckStatus (s : State) : Nat :=
  s.cricket.st % 8 * 2 ^ 29 + bit s.cricket.member.isSome 23 + s.cricket.member.getD 0 % 128 * 2 ^ 16

def State.idReg (s : State) (off : Nat) : Nat :=
  if off = 0 then 0x00080000 + s.start.stepping % 256 * 256 + s.start.grade % 16
  else if off = 4 then s.start.tillerMhz % 65536 * 65536 + 3200
  else if off = 8 then s.oneLevel s.tillersUp % 256 * 2 ^ 24 + 0x010101
  else if off = 0xC then
    bitsOf 4 (fun t => (s.tile t).inService) * 2 ^ 24 + bitsOf 8 (fun k => (s.stack k).st == 1 || (s.stack k).st == 2) * 2 ^ 16 +
    bitsOf 16 (fun n => (s.tile (n / 4)).inService && !(s.arr (n / 4) (n % 4)).retired)
  else if off = 0x10 then s.start.serial.toNat % 2 ^ 32
  else if off = 0x14 then s.latched lnId (s.start.serial.toNat / 2 ^ 32)
  else 0

/-! ### DATA words -/

/-- The code of a context's state (R422). -/
def CtxState.code : CtxState → Nat
  | .free => 0 | .ready => 1 | .running => 2 | .waitCounter => 3 | .waitQueue => 4 | .waitFence => 5 | .ending => 6

def State.ringWord (s : State) (t e : Nat) : Nat :=
  let x := s.ring t (e / 32)
  [x.head.toNat, x.tail.toNat, x.ctail.toNat, x.chead.toNat, x.inProgress, x.failed, bit x.enable 0 + bit x.refusedTail 1, 0].getD
    (e / 4 % 8) 0

def State.ctxWord (s : State) (t e : Nat) : Nat :=
  let c := e / 16
  let x := s.ctx t c
  [x.st.code + c % 64 / 8 * 256, (x.pc.toNat + 2 ^ 64 - x.prog) % 2 ^ 32, x.ring % 8192 * 2 ^ 16 + x.index % 65536, s.outstanding t c].getD
    (e / 4 % 4) 0

def State.regWord (s : State) (k e : Nat) : Nat :=
  let x := s.stack k
  let r := x.reg (e / 32)
  [r.cap % 512 * 2 ^ 16 + r.guar % 512, bit r.blockMode 8 + r.burstLog2 % 32, r.level s.timeNs x.throttled % 2 ^ 32,
   r.charged % 2 ^ 32, r.charged / 2 ^ 32 % 2 ^ 32, r.waits, 0, 0].getD (e / 4 % 8) 0

def State.bankWord (s : State) (k e : Nat) : Nat :=
  let x := s.stack k
  satTo 255 (x.retired.filter fun r => r / 16384 == e).length * 2 ^ 16 + Tbl.get x.hpprAll x.hpprFree e % 16 * 2 ^ 8 +
  Tbl.get x.spprAll x.spprFree e % 16 * 16

def State.viewWord (s : State) (t e : Nat) : Nat :=
  let v := e / 32
  let c := Tbl.get ViewCounts.zero (s.tile t).viewCounts v
  let d := s.view v
  [c.sat, c.nan, c.uf, c.wovf, c.wnan, c.srcBytes / 256 % 2 ^ 32,
   bit (viewOn d) 0 + bit (bitN (vwOf d 0) 24) 1 + bit (bitN (vwOf d 0) 20) 2 + bit (bitN (vwOf d 0) 21) 3 + field (vwOf d 0) 7 4 * 16 +
   field (vwOf d 0) 3 0 * 256 + viewOwner d * 2 ^ 12, 0].getD (e / 4 % 8) 0
where
  vwOf (d : List W64) (i : Nat) : Nat := (d.getD i 0).toNat

def State.coreWord (s : State) (h : Nat) : Nat :=
  let c := s.core h
  c.st % 4 * 2 ^ 30 + c.phys % 128 * 2 ^ 16 + c.spart % 8 * 2 ^ 8 + s.cores.retired.length % 256

def State.slotWord (s : State) (e : Nat) : Nat :=
  let x := s.slot (e / 8)
  if e / 4 % 2 = 0 then x.st % 4 * 2 ^ 30 + x.place % 2 ^ 20 else x.mask.toNat

def State.connWord (s : State) (e : Nat) : Nat :=
  let x := s.conn (e / 16)
  [x.st % 4 * 2 ^ 30 + x.partition % 8 * 2 ^ 24 + x.place % 2 ^ 20, x.unacked.length % 2 ^ 23, x.srttUs % 2 ^ 32, x.port % 32].getD
    (e / 4 % 4) 0

def State.laneWord (s : State) (k e : Nat) : Nat :=
  let l := e / 16
  let x := Tbl.get Lane.reset (s.port k).lanes l
  if 18 ≤ l then 0
  else [x.st % 4 + x.logical % 16 * 16, if l < 9 then 0 else x.corrected, s16 x.power, 0].getD (e / 4 % 4) 0

def State.lsWord (s : State) (e : Nat) : Nat :=
  let u := e / 64
  let w := e / 4 % 16
  if u < 6 then
    let m := s.laser u
    if w = 0 then m.vendor % 65536
    else if w ≤ 8 then s16 (m.powers.getD (w - 1) 0)
    else if w = 9 then s16 m.temp10
    else if w = 10 then m.insertions
    else 0
  else if u = 6 then Tbl.get 0 s.optics.matings (2 * w) + (if w = 15 then 0 else Tbl.get 0 s.optics.matings (2 * w + 1)) * 65536
  else 0

def State.tblWord (s : State) (e : Nat) : Nat :=
  if e < 32 then
    let x := Tbl.get Hall.reset s.places.halls e
    x.st % 4 * 2 ^ 30 + x.gen % 4 * 2 ^ 28 + x.fibreKm % 128 * 2 ^ 8 + x.site % 8
  else if e < 288 then Tbl.get 0 s.places.domains (e - 32) % 4 * 2 ^ 30
  else 0

/-- Bytes of reserve that a partition's Husk uses. -/
def Husk.used (h : Husk) : Nat :=
  (h.parts.map fun p => match p.2 with
    | .saved bs _ => bs.length
    | .drained => 0).sum

def State.huskWord (s : State) (e : Nat) : Nat :=
  let h := s.husk (e / 32)
  let mode := match h.cfg with
    | some c => c.mode
    | none => 0
  [h.st % 8 + mode % 2 * 16 + h.snapId % 2 * 32, h.snapId % 2 ^ 32, h.drainedCount, h.badShards, (h.used + 65535) / 65536,
   h.longestWaitUs, h.copied, 0].getD (e / 4 % 8) 0

def State.startWord (s : State) (e : Nat) : Nat :=
  let w := e / 4 % 8
  if w < 6 then (Tbl.get 0xFFFFFFFF s.start.doneAt w) % 2 ^ 32 else if w = 6 then s.start.starts else 0

def State.faultWord (s : State) (e : Nat) : Nat :=
  let w := e / 4 % 16
  if w < 4 then (64 - (s.tile w).retiredBanks) + (s.tile w).spareBanks % 4 * 256
  else [s.log.spareBlocks, s.log.logBlocks, s.log.pinnedFree, s.log.maxErase, s.log.pinnedHeld.length, sat32 s.log.overwritten].getD (w - 4) 0

def State.cricketWord (s : State) (e : Nat) : Nat :=
  let w := e / 4 % 16
  if w < 8 then Tbl.get 0 s.cricket.counts w
  else [s.cricket.frame % 2 ^ 32, s.cricket.delay, s.cricket.advance, ofSigned 32 s.cricket.lastErr].getD (w - 8) 0

def State.powerWord (s : State) (e : Nat) : Nat :=
  let w := e / 4 % 16
  if w < 11 then
    let r := Tbl.get Rail.reset s.power.rails w
    r.mv % 65536 * 65536 + r.amps10 % 65536
  else [s.power.packageWatts, s.power.presses, s.power.throttles, s.power.faults, 0].getD (w - 11) 0

/-- `IC_LINE_DATA` (R975, R979). -/
def State.lineWord (s : State) (e : Nat) : Nat :=
  let ln := e / 8
  if 144 ≤ ln then 0
  else if e / 4 % 2 = 0 then s.routeOf ln
  else
    let a := s.lineActive ln
    b2n a + b2n (a && bitN (s.routeOf ln) 0) * 2

/-! ### Mailboxes (R922 to R924) -/

/-- A master that reaches mailbox m through the MMIO map; Scarab there stands for the test access port. -/
def State.ownsMbox (s : State) (m : Master) (mb : Nat) : Bool :=
  match m with
  | .scarab => mb == 63
  | .core h =>
    if mb < 56 then (s.core h).spart == mb / 7
    else if mb < 58 then false
    else (s.core h).mode == .machine

/-- A word of a mailbox (R924). -/
def State.mboxWord (s : State) (mb off : Nat) : Nat :=
  let b := s.mbox mb
  if off = 0 then b.doorbell
  else if off = 4 then b.seq % 65536 * 65536 + b.st
  else if 0x40 ≤ off ∧ off < 0x1000 then s.peekN (mbBase mb + off) 4
  else 0

/-- A write to a mailbox by a master that reaches it: the doorbell, or a word of the request area. The response
area is Scarab's: a write to it is ignored (DESIGN CHOICE, log entry 21). -/
def State.mboxWrite (s : State) (mb off v : Nat) : State :=
  if off = 0 then s.ringDoorbell mb (v % 65536)
  else if off = 0xC then s.writeCtrl (.mb mb) 3 v
  else if 0x40 ≤ off ∧ off < 0x800 then s.poke (mbBase mb + off) (leBytes 4 v)
  else s

/-! ### Counter ports (R653 to R657) -/

/-- The core and the register of a counter port at an offset. -/
def portAt (off : Nat) : Option (Nat × Nat) :=
  if 0x1000 ≤ off ∧ off < 0x1800 then some ((off - 0x1000) / 32, (off - 0x1000) % 32) else none

def State.ctPort (s : State) (t h : Nat) : CtPort := Tbl.get CtPort.reset (s.tile t).ctPorts h
def State.modCtPort (s : State) (t h : Nat) (f : CtPort → CtPort) : State :=
  s.modTile t fun x => { x with ctPorts := Tbl.upd CtPort.reset x.ctPorts h f }

/-- A read of a port by its own core; RES_LO latches the high half (R656). -/
def State.ctPortRead (s : State) (t h r : Nat) : Nat × State :=
  let p := s.ctPort t h
  if r = 0 then (p.num, s)
  else if r = 4 then (p.op, s)
  else if r = 8 then (p.opnd.toNat % 2 ^ 32, s)
  else if r = 0xC then (p.opnd.toNat / 2 ^ 32, s)
  else if r = 0x10 then (p.cmp.toNat % 2 ^ 32, s)
  else if r = 0x14 then (p.cmp.toNat / 2 ^ 32, s)
  else if r = 0x18 then (p.res.toNat % 2 ^ 32, s.modCtPort t h fun p => { p with resHiLatch := BitVec.ofNat 32 (p.res.toNat / 2 ^ 32), latched := true })
  else (if p.latched then p.resHiLatch.toNat else p.res.toNat / 2 ^ 32, s)

/-- Perform the operation of a port on counter n (R653, R656, R657). -/
def State.ctPortOp (s : State) (t h op n : Nat) : State :=
  let p := s.ctPort t h
  let old := s.ctr n
  let s := s.modCtPort t h fun p => { p with res := old }
  match op with
  | 1 => s.ctrAdd n p.opnd
  | 2 => s.ctrSet n p.opnd
  | 3 => if old = p.cmp then s.ctrSet n p.opnd else s
  | 4 =>
    let s := s.modTile t fun x => { x with ctArmed := Tbl.set x.ctArmed h (n, p.opnd) }
    if p.opnd ≤ old then s.ctFire t h else s
  | 5 => s.modTile t fun x => { x with ctArmed := Tbl.erase x.ctArmed h }
  | _ => s

/-- A write to `CT_P_OP` (R653, R655). -/
def State.ctPortStart (s : State) (t h v : Nat) : State :=
  let op := v % 16
  if 6 ≤ op then s.cfgErr (.ct t)
  else
    let s := s.modCtPort t h fun p => { p with op := op }
    let n := t * 32768 + (s.ctPort t h).num
    if s.ownsCtr (s.core h).spart n then s.ctPortOp t h op n
    else (s.modCtPort t h fun p => { p with res := 0 }).setFlag (lnCt t) fCtPort

/-- A half of a 64-bit register written (R967). -/
def setHalf (x : W64) (hi : Bool) (v : Nat) : W64 :=
  if hi then BitVec.ofNat 64 (x.toNat % 2 ^ 32 + v % 2 ^ 32 * 2 ^ 32) else BitVec.ofNat 64 (x.toNat / 2 ^ 32 * 2 ^ 32 + v % 2 ^ 32)

def State.ctPortWrite (s : State) (t h r v : Nat) : State :=
  if r = 0 then s.modCtPort t h fun p => { p with num := v % 32768 }
  else if r = 4 then s.ctPortStart t h v
  else if r = 8 ∨ r = 0xC then s.modCtPort t h fun p => { p with opnd := setHalf p.opnd (r == 0xC) v }
  else if r = 0x10 ∨ r = 0x14 then s.modCtPort t h fun p => { p with cmp := setHalf p.cmp (r == 0x14) v }
  else s

/-! ### Doorbells and pending words (R981 to R987) -/

/-- A master that a ring's doorbell answers (R984). -/
def State.ownsRing (s : State) (m : Master) (t r : Nat) : Bool :=
  match m with
  | .scarab => true
  | .core h => (s.core h).spart == (s.ring t r).partition

/-- A write to `DB_TAIL` (R982, R362) or `DB_CHEAD` (R983). -/
def State.ringWrite (s : State) (m : Master) (t r : Nat) (chead : Bool) (v : W32) : State :=
  if !(s.ownsRing m t r) then s
  else
    let x := s.ring t r
    if chead then
      if decide ((x.ctail - x.chead).toNat < (v - x.chead).toNat) then s.setFlag (lnSq t) fSqCfg
      else s.modRing t r fun x => { x with chead := v }
    else if x.dbctrEn then (s.modRing t r fun x => { x with refusedTail := true }).setFlag (lnSq t) fSqRing
    else s.offerTail t r v

/-- A read of a pending word: the bits of the reader's rings, which it clears (R987). -/
def State.pendRead (s : State) (m : Master) (t w : Nat) : Nat × State :=
  let now := (Tbl.get 0 (s.tile t).rpend w).toNat
  let mine := bitsOf 32 fun i => bitN now i && s.ownsRing m t (32 * w + i)
  (mine, s.modTile t fun x => { x with rpend := Tbl.set x.rpend w (BitVec.ofNat 32 (now - mine)) })

end Sys2Proof.Machine
end

