-- ==== Sys2Proof/Machine/RegAccess.lean ====
section
/-!
DEFINITION. Reading and writing a register of the MMIO map by a master (R18 to R23, R955 to R987).
-/
namespace Sys2Proof.Machine

open Sys2Proof

/-- The blocks that refuse accesses under R47: those of a Tiller core island that is offline (R971), and the counters and
doorbells of a Tiller whose memory island has stopped (R37, R629). -/
def State.blockRefuses (s : State) : Blk → Bool
  | .array t _ => !(s.tile t).inService
  | .ve t => !(s.tile t).inService
  | .sq t => !(s.tile t).inService
  | .ct t => s.hcStopped t
  | .db t => s.hcStopped t
  | .rp t => s.hcStopped t
  | _ => false

/-- A read of a DATA register: the word, with what the read does beside advancing the index. -/
def State.readData (s : State) (b : Blk) (key e : Nat) : Nat × State :=
  match b with
  | .array t a => if 641 ≤ e then (0, s.cfgErr b) else ((s.arr t a).phys e, s)
  | .sq t =>
    if key = 0 then
      (s.ringWord t e, if e / 4 % 8 = 6 then s.modRing t (e / 32) fun x => { x with refusedTail := false } else s)
    else (s.ctxWord t e, s)
  | .hc k => (if key = 0 then s.regWord k e else s.bankWord k e, s)
  | .wv t => (s.viewWord t e, s)
  | .ac => (if key = 0 then (Tbl.get 0 s.cores.coh e).toNat else s.coreWord e, s)
  | .dm => (s.slotWord e, s)
  | .xp => (s.connWord e, s)
  | .op k => if 18 ≤ e / 16 then (0, s.cfgErr b) else (s.laneWord k e, s)
  | .ls => if e / 64 = 7 then (0, s.cfgErr b) else (s.lsWord e, s)
  | .pl => if 288 ≤ e then (0, s.cfgErr b) else (s.tblWord e, s)
  | .rk =>
    let key := s.reproKey (e / 8)
    if e / 4 % 2 = 0 then (key % 2 ^ 32, s.latch (1000 + e / 8) (key / 2 ^ 32)) else (s.latched (1000 + e / 8) (key / 2 ^ 32), s)
  | .hk => (s.huskWord e, s)
  | .st => (s.startWord e, s)
  | .fl => (s.faultWord e, s)
  | .ck => (s.cricketWord e, s)
  | .pw => (s.powerWord e, s)
  | .ic => (s.lineWord e, s)
  | .ve _ => (0, s)
  | .ct _ => (0, s)
  | .db _ => (0, s)
  | .rp _ => (0, s)
  | .mb _ => (0, s)
  | .id => (0, s)

/-- A register of a block that is neither control, flags, index nor DATA. -/
def State.readPlain (s : State) (m : Master) (b : Blk) (off : Nat) : Nat × State :=
  match b with
  | .array t a => (s.arrayReg t a off, s)
  | .ve t => (s.veReg t off, s)
  | .sq t => (s.sqReg t off, s)
  | .hc k => (s.hcReg k off, if off = 0x1C then s.latch (lnHc k) ((s.stack k).lastUe / 2 ^ 32 % 16) else s)
  | .wv _ => (0, s)
  | .ct t =>
    if off = 8 then ((s.tile t).ctHit.toNat % 2 ^ 32, s.modTile t fun x => { x with ctHit := BitVec.ofNat 64 (x.ctHit.toNat / 2 ^ 32 * 2 ^ 32) })
    else if off = 0xC then ((s.tile t).ctHit.toNat / 2 ^ 32, s.modTile t fun x => { x with ctHit := BitVec.ofNat 64 (x.ctHit.toNat % 2 ^ 32) })
    else match portAt off with
      | some (h, r) => if m == .core (Fin.ofNat 64 h) then s.ctPortRead t h r else (0, s)
      | none => (0, s)
  | .db t =>
    let r := off / 8
    if s.ownsRing m t r then ((if off % 8 = 0 then (s.ring t r).tail else (s.ring t r).chead).toNat, s) else (0, s)
  | .rp t => s.pendRead m t (off / 4)
  | .ac => (s.acReg off, if off = 0x3000 then s.latch lnAc (s.timeNs / 2 ^ 32 % 2 ^ 32) else s)
  | .dm => (s.dmReg off, s)
  | .xp => (s.xpReg off, s)
  | .pl => (if off = 0 then s.plPlace else 0, s)
  | .st => (if off = 4 then s.stStatus else 0, s)
  | .fl => (s.flReg off, if off = 0x10 then s.latch lnFl ((s.log.nextNumber - 1) / 2 ^ 32 % 2 ^ 32) else s)
  | .pw => (if off = 4 then s.pwStatus else 0, s)
  | .op k => (s.opReg k off, s)
  | .ls => (s.lsReg off, s)
  | .ck => (if off = 4 then s.ckStatus else 0, s)
  | .mb mb => (s.mboxWord mb off, s)
  | .id => (s.idReg off, if off = 0x10 then s.latch lnId (s.start.serial.toNat / 2 ^ 32) else s)
  | .ic => (if 0x1000 ≤ off ∧ off < 0x1200 then s.claim ((off - 0x1000) / 8) (if off % 8 = 0 then 0 else 1) else 0, s)
  | .rk => (0, s)
  | .hk => (0, s)

/-- The offset of a register: an alias of `MA_REPAIR_DATA` reads as its base (R18). -/
def Blk.baseOff (b : Blk) (off : Nat) : Nat :=
  match b with
  | .array _ _ => if 0x50 ≤ off ∧ off < 0x60 then 0x50 else off
  | _ => off

/-- A read of a register of a block that accepts it. -/
def State.readBlock (s : State) (m : Master) (b : Blk) (off : Nat) : Nat × State :=
  let off := b.baseOff off
  match b.indexes.find? fun i => i.off == off || i.data == off with
  | some i =>
    if i.off = off then (s.index b i.key, s)
    else
      let r := s.readData b i.key (s.idx b i)
      (r.1, r.2.autoInc b i)
  | none => match b.common with
    | some (c, f, _) =>
      if off = c then ((s.ctrlOf b.line).toNat, s)
      else if off = f then
        let r := s.readFlags b
        (r.1.toNat, r.2)
      else s.readPlain m b off
    | none => s.readPlain m b off

/-- A read of an aligned word of the MMIO map: its value, or the reason of its refusal: a hole (R960), an
island (R47). A mailbox that does not answer the master reads 0 (R923). -/
def State.regRead (s : State) (m : Master) (a : Nat) : Except Nat W32 × State :=
  match blockAt a with
  | none => (.error reasonHole, s.setFlag lnId fIdHole)
  | some (b, off) =>
    if s.blockRefuses b then (.error reasonIsland, s)
    else
      let blocked := match b with
        | .mb mb => !(s.ownsMbox m mb)
        | _ => false
      if blocked then (.ok 0, s)
      else
        let r := s.readBlock m b off
        (.ok (BitVec.ofNat 32 r.1), r.2)

/-! ### Writes -/

/-- A master that may write ALIAS registers (R958). -/
def State.privileged (s : State) (m : Master) : Bool :=
  match m with
  | .scarab => true
  | .core h => (s.core h).mode == .machine

/-- The new value of an ALIAS register of `bits` bits: base 0, SET 1, CLR 2, TGL 3 (R18). -/
def aliasValue (bits old kind v : Nat) : Nat :=
  match kind with
  | 0 => v % 2 ^ bits
  | 1 => Nat.lor old (v % 2 ^ bits)
  | 2 => old - Nat.land old (v % 2 ^ bits)
  | _ => Nat.xor old (v % 2 ^ bits)

/-- Set entry e of an array's repair map, unless the physical line does not exist or carries another entry, or the array is
busy (R174). -/
def State.mapWrite (s : State) (t a e p : Nat) : State :=
  let x := s.arr t a
  let row := decide (e < 128)
  let used := (List.range 641).any fun j => j != e && decide (j < 128) == row && x.phys j == p
  if decide ((if row then 131 else 527) < p) || used || s.arrBusy t a then s.cfgErr (.array t a)
  else s.modArr t a fun x => { x with repairMap := Tbl.set x.repairMap e p }

/-- A write to `MA_REPAIR_DATA` (R174, R175, R958, R965). -/
def State.repairWrite (s : State) (m : Master) (t a kind v : Nat) : State :=
  let e := s.index (.array t a) 0 % 1024
  if !(s.privileged m) then s.setFlag lnId fIdPriv
  else if 641 ≤ e then s.cfgErr (.array t a)
  else s.mapWrite t a e (aliasValue 10 ((s.arr t a).phys e) kind v)

/-- A write to `HC_SCRUB_CFG` (R958, R965): a reserved period keeps the old one and sets CFG_ERR. -/
def State.scrubWrite (s : State) (m : Master) (k kind v : Nat) : State :=
  if !(s.privileged m) then s.setFlag lnId fIdPriv
  else
    let x := s.stack k
    let n := aliasValue 9 (bit x.scrubEnable 8 + x.scrubPeriod % 256) kind v
    let p := n % 256
    let s := s.modStack k fun x => { x with scrubEnable := bitN n 8 }
    if p = 0 ∨ 168 < p then s.cfgErr (.hc k) else s.modStack k fun x => { x with scrubPeriod := p }

/-- A write to `AC_COH_DATA`: bits of regions beyond the end of HBM keep their value (R592). The flush that a change
to TILLER starts writes back bytes that memory already holds (R555, R556). -/
def State.cohWrite (s : State) (v : Nat) : State :=
  let w := s.index .ac 0 % 8192
  let old := (Tbl.get 0 s.cores.coh w).toNat
  let inside := fun i => decide ((32 * w + i) * 0x200000 < s.hbmEnd)
  let new := bitsOf 32 fun i => if inside i then bitN v i else bitN old i
  let s := { s with cores := { s.cores with coh := Tbl.set s.cores.coh w (BitVec.ofNat 32 new) } }
  if (List.range 32).all inside then s else s.cfgErr .ac

/-- A write to `IC_LINE_DATA` (R975, R979). -/
def State.lineWrite (s : State) (v : Nat) : State :=
  let e := s.index .ic 0 % 2048
  let ln := e / 8
  if 144 ≤ ln then s.cfgErr .ic
  else if e / 4 % 2 = 1 then s
  else if v % 4 + field v 13 8 * 256 ≠ v then s.cfgErr .ic
  else { s with regs := { s.regs with route := Tbl.set s.regs.route ln (BitVec.ofNat 32 v) } }

/-- A write to a register of a block that accepts it. -/
def State.writeBlock (s : State) (m : Master) (b : Blk) (off v : Nat) : State :=
  let i := b.indexes.find? fun i => i.off == off
  let c := match b.common with
    | some (c, _, n) => if off = c then some n else none
    | none => none
  match i, c with
  | some i, _ => s.writeIndex b i v
  | none, some n => s.writeCtrl b n v
  | none, none =>
    match b with
    | .array t a =>
      if 0x50 ≤ off ∧ off < 0x60 then (s.repairWrite m t a ((off - 0x50) / 4) v).autoInc b ⟨0x40, 0x50, 0, 10, false⟩ else s
    | .hc k => if 0x30 ≤ off ∧ off < 0x40 then s.scrubWrite m k ((off - 0x30) / 4) v else s
    | .ct t => match portAt off with
      | some (h, r) => if m == .core (Fin.ofNat 64 h) then s.ctPortWrite t h r v else s
      | none => s
    | .db t => s.ringWrite m t (off / 8) (off % 8 != 0) (BitVec.ofNat 32 v)
    | .ac =>
      if off = 0x14 then (s.cohWrite v).autoInc .ac ⟨0x10, 0x14, 0, 13, false⟩
      else if 0x1000 ≤ off ∧ off < 0x1100 then s.modCore ((off - 0x1000) / 4) fun c => { c with msip := bitN v 0 }
      else if 0x2000 ≤ off ∧ off < 0x2200 then
        s.modCore ((off - 0x2000) / 8) fun c => { c with mtimecmp := setHalf c.mtimecmp (off % 8 != 0) v }
      else s
    | .ic => if off = 4 then (s.lineWrite v).autoInc .ic ⟨0, 4, 0, 11, true⟩ else s
    | .mb mb => s.mboxWrite mb off v
    | _ => s

/-- A write of an aligned word of the MMIO map: none where a block takes it, else the reason of its refusal. A
mailbox that does not answer the master ignores it (R923). -/
def State.regWrite (s : State) (m : Master) (a : Nat) (v : W32) : Option Nat × State :=
  match blockAt a with
  | none => (some reasonHole, s.setFlag lnId fIdHole)
  | some (b, off) =>
    if s.blockRefuses b then (some reasonIsland, s)
    else
      let blocked := match b with
        | .mb mb => !(s.ownsMbox m mb)
        | _ => false
      if blocked then (none, s) else (none, s.writeBlock m b off v.toNat)

/-- A refused access: a core takes the access fault (R558, R960); another master only sees the refusal. -/
def State.regRefuse (s : State) (m : Master) (store : Bool) (a reason : Nat) : State :=
  match m with
  | .scarab => s.emit (.regRefused a)
  | .core h => s.accessFault h store a a reason

/-- A master that can make an access now: Scarab, or a core that executes. -/
def State.masterRuns (s : State) (m : Master) : Bool :=
  match m with
  | .scarab => true
  | .core h => (s.core h).runs

/-- A read of a register by a master, as a command of its own. -/
def State.readRow (s : State) (m : Master) (a : Nat) : State :=
  if !(s.masterRuns m) then s
  else match s.regRead m a with
    | (.ok v, s) => s.emit (.regRead a v)
    | (.error r, s) => s.regRefuse m false a r

/-- A write of a register by a master, as a command of its own. -/
def State.writeRow (s : State) (m : Master) (a : Nat) (v : W32) : State :=
  if !(s.masterRuns m) then s
  else match s.regWrite m a v with
    | (none, s) => s
    | (some r, s) => s.regRefuse m true a r

end Sys2Proof.Machine
end

