-- ==== Sys2Proof/Machine/Remote.lean ====
section
/-!
DEFINITION. The remote operations of the copy queues and the events of domain and transport traffic
(R400 to R403, R594 to R690).
-/
namespace Sys2Proof.Machine

open Sys2Proof

/-! ### Issue -/

/-- A copy queue's head, where it is a remote operation that may issue (R356). -/
def State.popRemote (s : State) (t q : Nat) (op : Nat → Bool) : Option (QEntry × State) :=
  if (s.queue t (8 + q)).active.any fun e => opc e.word / 16 == 2 then none else s.popHead t (8 + q) op

/-- Check an aperture range (R1112). -/
def apertureCheck (a n : Nat) : Check :=
  failIf (!(decide (0x400000000000 ≤ a ∧ a ≤ 0x7FFFFFFFFFFF ∧ a + n ≤ 0x800000000000))) F_BOUNDS a

/-- The replicas of partition p that a range touches (R635 to R637). -/
def State.replicasAt (s : State) (p a n : Nat) : List Replica :=
  (s.net.replicas.map (·.2)).filter fun r => r.valid && r.partition == p && r.slot == apSlot a && rangesMeet (apAddr a) n r.remoteBase r.len

/-- The route and bounds checks of a domain operation (R598, R603, R604, R636, R637). -/
def State.domainChecks (s : State) (p right a n : Nat) (add : Option Nat) : List Check :=
  let k := apSlot a
  let reps := s.replicasAt p a n
  let whole := right == rightR && reps.any fun r => decide (r.remoteBase ≤ apAddr a ∧ apAddr a + n ≤ r.remoteBase + r.len)
  let cached := s.cachedOf p k
  [failIf (!(s.apertureUp k)) F_NO_ROUTE a,
   failIf (reps != [] && !whole) F_REMOTE_BOUNDS a,
   failIf (!whole && !(cached.any fun e => e.grants right (apAddr a) n)) F_REMOTE_BOUNDS a,
   match add with
   | some c => failIf (!(cached.any fun e => e.opens c)) F_REMOTE_BOUNDS c
   | none => none]

/-- The addition at the target that an entry names (R403). -/
def FmtR.add (f : FmtR) (e : QEntry) : Option (Nat × Nat) := if f.rri = 0 then none else some (f.rctr, (greg e.g f.rri).toNat)

/-- A new operation of a queue entry. -/
def State.mkOp (s : State) (t q : Nat) (e : QEntry) (kind : RKind) (addr : Nat) (add : Option (Nat × Nat)) : RemOp :=
  { id := s.net.nextOp, kind := kind, src := .queue t q e.id, partition := s.partOf t e, target := apSlot addr, conn := 65536,
    window := 0, addr := addr, len := 0, local_ := 0, data := [], atop := 0, w64 := false, cmp := 0, pieces := [],
    addTo := add, addSt := if add.isSome then .held else .done, addPsn := 0, after := [], broken := false, code := 0,
    ordered := false }

/-- Operations of copy queue q to a package that a flagged store or RTADD waits for (R620, R622). -/
def State.holdFor (s : State) (t q slot : Nat) (f : RKind → Bool) : List Nat :=
  (s.net.ops.filter fun o => o.src.sameQueue (.queue t q 0) && !o.good && (f o.kind || o.addTo.isSome) &&
    (if o.domain then apSlot o.addr == slot else o.target == (s.slot slot).place)).map (·.id)

def heldPieces (a n : Nat) : List Piece := (splitPieces a n).map fun p => ⟨p.1, p.2, 0, .held, 0⟩

/-- Issue a store or flagged store (R607, R620, R622). -/
def State.issueStore (s : State) (t q : Nat) (mf : MemFaults) (op : Nat) : State :=
  match s.popRemote t q (· == op) with
  | none => s
  | some (e, s) =>
    let f := fmtR e.word
    let p := s.partOf t e
    let a := gaddr e.g f.rb
    let l := gaddr e.g f.ra
    let add := f.add e
    match firstCheck ([failIf (f.rsvd != 0 || f.w64 != 0 || f.atop != 0 || f.rc != 0 || f.rd != 0) F_RSVD 0,
        s.localCheck t p false l f.len, apertureCheck a f.len, s.incCheck p f.ctr f.ri] ++
        s.domainChecks p rightW a f.len (add.map (·.1))) with
    | some (code, info) => (s.noteRefusal t (code, info)).failEntry t (8 + q) e code 0 info false
    | none => match s.localRead mf t p l f.len with
      | (some c, _, s) => s.failEntry t (8 + q) e c 0 (s.slot (apSlot a)).place false
      | (none, bs, s) =>
        let after := if op = 0x31 then s.holdFor t q (apSlot a) fun k => k == .store || k == .flagged || k == .atomic || k == .tadd else []
        let o := { s.mkOp t q e (if op = 0x31 then RKind.flagged else .store) a add with
                   len := f.len, data := bs, pieces := heldPieces a f.len, after := after }
        let s := (s.activate t (8 + q) e).newOp o
        if after = [] then s.sendPieces mf o.id else s

/-- RSTORE (R400, R607). -/
def execRstore (t : Fin 4) (q : Fin 8) (mf : MemFaults) (s : State) : Out := .next (s.issueStore t q mf 0x30)

/-- RFSTORE (R620). -/
def execRfstore (t : Fin 4) (q : Fin 8) (mf : MemFaults) (s : State) : Out := .next (s.issueStore t q mf 0x31)

/-- RLOAD (R611, R635). -/
def execRload (t : Fin 4) (q : Fin 8) (mf : MemFaults) (s : State) : Out :=
  .next <| match s.popRemote t q (· == 0x32) with
  | none => s
  | some (e, s) =>
    let f := fmtR e.word
    let p := s.partOf t e
    let a := gaddr e.g f.rb
    let l := gaddr e.g f.ra
    match firstCheck ([failIf (f.rsvd != 0 || f.w64 != 0 || f.atop != 0 || f.rc != 0 || f.rd != 0 || f.rri != 0) F_RSVD 0,
        s.localCheck t p true l f.len, apertureCheck a f.len, s.incCheck p f.ctr f.ri] ++ s.domainChecks p rightR a f.len none) with
    | some (code, info) => (s.noteRefusal t (code, info)).failEntry t (8 + q) e code 0 info false
    | none =>
      let o := { s.mkOp t q e .load a none with len := f.len, local_ := l, pieces := heldPieces a f.len }
      let s := (s.activate t (8 + q) e).newOp o
      match (s.replicasAt p a f.len).head? with
      | some r =>
        match s.localRead mf t p (r.localBase + (apAddr a - r.remoteBase)) f.len with
        | (some c, _, s) => (s.modOp o.id fun x => x.fail c).opSettle o.id
        | (none, bs, s) => match s.localWrite mf t p l bs with
          | (some c, _, s) => (s.modOp o.id fun x => x.fail c).opSettle o.id
          | (none, _, s) => (s.modOp o.id fun x => { x with pieces := x.pieces.map fun y => { y with st := .done } }).opSettle o.id
      | none => s.sendPieces mf o.id

/-- RATOM (R609). -/
def execRatom (t : Fin 4) (q : Fin 8) (mf : MemFaults) (s : State) : Out :=
  .next <| match s.popRemote t q (· == 0x33) with
  | none => s
  | some (e, s) =>
    let f := fmtR e.word
    let p := s.partOf t e
    let a := gaddr e.g f.rb
    let l := gaddr e.g f.ra
    let n := if f.w64 = 1 then 8 else 4
    match firstCheck ([failIf (f.rsvd != 0 || f.rri != 0 || f.len != 0 || decide (10 ≤ f.atop)) F_RSVD 0,
        failIf (decide (l % n ≠ 0)) F_ALIGN l, failIf (decide (a % n ≠ 0)) F_ALIGN a,
        s.localCheck t p true l 8, apertureCheck a n, s.incCheck p f.ctr f.ri] ++ s.domainChecks p rightA a n none) with
    | some (code, info) => (s.noteRefusal t (code, info)).failEntry t (8 + q) e code 0 info false
    | none =>
      let o := { s.mkOp t q e .atomic a none with
                 len := n, local_ := l, data := leBytes 8 (greg e.g f.rc).toNat, cmp := (greg e.g f.rd).toNat, atop := f.atop,
                 w64 := f.w64 == 1, pieces := [⟨0, n, 0, .held, 0⟩] }
      ((s.activate t (8 + q) e).newOp o).sendPieces mf o.id

/-- The place and window of a register (R378, R1112). -/
def placeOf (x : Nat) : Nat := field x 51 32
def windowOf (x : Nat) : Nat := x % 4096
def placeRsvd (x : Nat) : Bool := decide (x / 2 ^ 52 ≠ 0) || field x 31 12 != 0

/-- A descriptor in a connection's cache (R661); this package's own windows for its own place. -/
def State.cachedWindow (s : State) (c place w : Nat) : Option Window :=
  if s.isOwnPlace place then some (s.window w)
  else ((s.conn c).cache.find? fun x => x.1 == w).map (·.2)

/-- A used descriptor becomes the most recently used. -/
def Conn.touch (x : Conn) (w : Nat) : Conn :=
  { x with cache := (x.cache.filter fun y => y.1 == w) ++ x.cache.filter fun y => y.1 != w }

/-- Issue the put or get at the head of a copy queue (R661, R662, R666, R670, R820): it stays at its queue
while the descriptor of its window is fetched. -/
def State.issueXfer (s : State) (t q : Nat) (mf : MemFaults) (op : Nat) : State :=
  match s.popRemote t q (· == op) with
  | none => s
  | some (e, s1) =>
    let f := fmtR e.word
    let p := s.partOf t e
    let l := gaddr e.g f.ra
    let pw := gaddr e.g f.rb
    let off := gaddr e.g f.rc
    let add := if op = 0x34 then f.add e else none
    let put := op == 0x34
    let job := s.jobOf p
    let early := firstCheck [failIf (f.rsvd != 0 || f.w64 != 0 || f.atop != 0 || f.rd != 0 || (!put && f.rri != 0) || placeRsvd pw) F_RSVD pw,
        s.localCheck t p (!put) l f.len, s.incCheck p f.ctr f.ri, failIf (s.connTo p (placeOf pw)).isNone F_NO_ROUTE pw]
    match early with
    | some (code, info) => (s1.noteRefusal t (code, info)).failEntry t (8 + q) e code 0 info false
    | none =>
      let c := (s.connTo p (placeOf pw)).getD 0
      if s.connVersion (placeOf pw) = 1 ∧ 1024 ≤ windowOf pw then s1.failEntry t (8 + q) e F_WINDOW 0 pw false
      else match s.cachedWindow c (placeOf pw) (windowOf pw) with
      | none => s.emit (.xpWindow c (windowOf pw))
      | some w =>
        let addBad := match add with
          | some a => !(w.opens a.1)
          | none => false
        match w.check job none (if put then rightP else rightG) off f.len with
        | some code => s1.failEntry t (8 + q) e code 0 (if code = F_WINDOW then pw else off) false
        | none =>
          if addBad then s1.failEntry t (8 + q) e F_REMOTE_BOUNDS 0 f.rctr false
          else
            let read := if put then s1.localRead mf t p l f.len else (none, [], s1)
            match read with
            | (some c, _, s) => s.failEntry t (8 + q) e c 0 (placeOf pw) false
            | (none, bs, s) =>
              let o := { s.mkOp t q e (if put then RKind.put else .get) off add with
                         target := placeOf pw, conn := c, window := windowOf pw, len := f.len, local_ := l, data := bs,
                         pieces := heldPieces off f.len }
              (((s.modConn c fun x => x.touch (windowOf pw)).activate t (8 + q) e).newOp o).enterNext mf o.id

/-- RPUT (R668, R674). -/
def execRput (t : Fin 4) (q : Fin 8) (mf : MemFaults) (s : State) : Out := .next (s.issueXfer t q mf 0x34)

/-- RGET (R668, R671). -/
def execRget (t : Fin 4) (q : Fin 8) (mf : MemFaults) (s : State) : Out := .next (s.issueXfer t q mf 0x35)

/-- RTADD (R604, R622, R669): toward a place of the package's own domain it is a domain counter addition,
held as R622 states; beyond it, it enters the connection to its place. -/
def execRtadd (t : Fin 4) (q : Fin 8) (_mf : MemFaults) (s : State) : Out :=
  .next <| match s.popRemote t q (· == 0x36) with
  | none => s
  | some (e, s) =>
    let f := fmtR e.word
    let p := s.partOf t e
    let pw := gaddr e.g f.rb
    let place := placeOf pw
    let inDomain := s.places.valid && place / 128 == s.places.place / 128
    let slot := place % 128
    let add := f.add e
    match firstCheck [failIf (f.rsvd != 0 || f.w64 != 0 || f.atop != 0 || f.ra != 0 || f.rc != 0 || f.rd != 0 || f.len != 0 ||
          placeRsvd pw || windowOf pw != 0) F_RSVD pw, s.incCheck p f.ctr f.ri,
        failIf (if inDomain then !(s.slotUp slot) else (s.connTo p place).isNone) F_NO_ROUTE pw,
        match add with
        | some a => failIf (inDomain && !((s.cachedOf p slot).any fun x => x.opens a.1)) F_REMOTE_BOUNDS a.1
        | none => none] with
    | some (code, info) => s.failEntry t (8 + q) e code 0 info false
    | none =>
      if inDomain then
        let o := { s.mkOp t q e .tadd (apertureBase + slot * 2 ^ 39) add with after := s.holdFor t q slot fun _ => true }
        let s := (s.activate t (8 + q) e).newOp o
        if o.after = [] then s.sendAdd o.id else s
      else
        let o := { s.mkOp t q e .tadd 0 add with target := place, conn := (s.connTo p place).getD 0 }
        ((s.activate t (8 + q) e).newOp o).enterNext MemFaults.none o.id

/-- A closing connection with no operation outstanding closes (CONN_CLOSE). -/
def State.connSettle (s : State) (c : Nat) : State :=
  if (s.conn c).closing && !(s.net.ops.any fun o => o.conn == c) && (s.conn c).st == 1 then
    (s.modConn c fun _ => Conn.reset).respondWaiting (.connClose c) 0 0 []
  else s

/-- A remote operation is acknowledged or has landed: its INC is added and its entry completes (R402,
R675). -/
def execRemoteOpDone (op : Nat) (s : State) : Out :=
  .next <| match s.op op with
  | none => s
  | some o =>
    if !o.good then s
    else match o.src with
      | .queue t q entry =>
        let s := s.forgetOp op false
        let s := match (s.queue t (8 + q)).active.find? fun e => e.id == entry with
          | some e => (s.retire t (8 + q) entry).addInc e
          | none => s
        s.connSettle o.conn
      | .core _ => s.forgetOp op false
      | .husk _ => s.forgetOp op false

/-- A held flagged store is sent once nothing it waited for is outstanding; after a failure of one it fails
with F_REMOTE_LOST (R620, R621). -/
def execFlaggedStoreRelease (op : Nat) (mf : MemFaults) (s : State) : Out :=
  .next <| match s.op op with
  | none => s
  | some o =>
    if o.kind != .flagged || o.after != [] then s
    else if o.broken then (s.modOp op fun o => o.fail F_REMOTE_LOST).opSettle op
    else s.sendPieces mf op

/-- A counter addition of a domain operation is sent (R622). -/
def execCounterAdditionSend (op : Nat) (s : State) : Out := .next (s.sendAdd op)

/-- A held piece of a block that changed plane issues (R643), or an AMO with rl once every earlier store of its
core is acknowledged or has failed (R610). -/
def execPlaneHoldRelease (op : Nat) (mf : MemFaults) (s : State) : Out :=
  .next <| match s.op op with
  | none => s
  | some o => if o.domain && o.after == [] && (!o.broken || o.ordered) then s.sendPieces mf op else s

/-! ### The target of domain traffic -/

/-- A store piece arrives (R600, R608, R646). -/
def execDomainStorePiece (slot : Fin 128) (piece job addr : Nat) (data : List Byte) (mf : MemFaults) (s : State) : Out :=
  .next <| match s.targetStore mf job addr data with
  | (none, s) => s.emit (.domAck slot piece)
  | (some c, s) => s.emit (.domRefused slot piece c)

/-- A load piece arrives (R600, R608). -/
def execDomainLoadRequest (slot : Fin 128) (piece job addr len : Nat) (mf : MemFaults) (s : State) : Out :=
  .next <| match s.targetLoad mf job addr len with
  | (.ok bs, s) => s.emit (.domData slot piece bs)
  | (.error c, s) => s.emit (.domRefused slot piece c)

/-- An atomic arrives (R609). -/
def execDomainAtomicPiece (slot : Fin 128) (piece job addr : Nat) (atop : Fin 10) (w64 : Bool) (x cmp : Nat) (mf : MemFaults) (s : State) : Out :=
  .next <| match s.targetAtomic mf job atop w64 addr x cmp with
  | (.ok old, s) => s.emit (.domResult slot piece (BitVec.ofNat 64 old))
  | (.error c, s) => s.emit (.domRefused slot piece c)

/-- A domain counter addition arrives (R604, R646). -/
def execDomainCounterAddition (slot : Fin 128) (piece job ctr : Nat) (x : W64) (s : State) : Out :=
  .next <| match s.targetAdd job ctr x with
  | (none, s) => s.emit (.domAck slot piece)
  | (some c, s) => s.emit (.domRefused slot piece c)

/-! ### The source of domain traffic -/

/-- Part i of an operation is outstanding. -/
def RemOp.isSent (o : RemOp) (i : Nat) : Bool :=
  if i = o.pieces.length then o.addSt == .sent else (o.pieces[i]?).any fun p => p.st == .sent

/-- An acknowledgement of a store piece or counter addition (R608). -/
def execDomainAck (op piece : Nat) (s : State) : Out :=
  .next <| match s.op op with
  | none => s
  | some o =>
    if !(o.domain && o.isSent piece) then s
    else if piece = o.pieces.length then (s.modOp op fun o => { o with addSt := .done }).opSettle op
    else (s.pieceDone op piece).sendPieces ⟨[], []⟩ op

/-- Load data arrives and lands (R611). -/
def execDomainLoadData (op piece : Nat) (data : List Byte) (mf : MemFaults) (s : State) : Out :=
  .next <| match s.op op with
  | none => s
  | some o => if o.domain && o.kind == .load && o.isSent piece then (s.land mf o piece data).sendPieces mf op else s

/-- An atomic's prior value arrives and is written, zero-extended, to its local address (R609). -/
def execDomainAtomicResult (op : Nat) (prior : W64) (mf : MemFaults) (s : State) : Out :=
  .next <| match s.op op with
  | none => s
  | some o =>
    if o.domain && o.kind == .atomic && o.isSent 0 then
      let s := s.modOp op fun x => { x with data := [] }
      (s.land mf { o with pieces := o.pieces.map fun q => { q with len := 8 } } 0 (leBytes 8 prior.toNat)).opSettle op
    else s

/-- A refusal of a piece or addition (R646, R647). -/
def execDomainRefusal (op piece code : Nat) (s : State) : Out :=
  .next <| match s.op op with
  | none => s
  | some o =>
    if !(o.domain && o.isSent piece) then s
    else if piece = o.pieces.length then (s.modOp op fun o => RemOp.fail { o with addSt := .refused code } code).opSettle op
    else (s.pieceFail op piece (.refused code) code).opSettle op

/-- A piece or addition was not acknowledged within the domain access timeout (R641). -/
def execDomainAccessTimeout (op piece : Nat) (s : State) : Out :=
  .next <| match s.op op with
  | none => s
  | some o =>
    if !(o.domain && o.isSent piece) then s
    else
      let s := s.modNet fun n => { n with timeouts := sat32 (n.timeouts + 1) }
      if piece = o.pieces.length then (s.modOp op fun o => RemOp.fail { o with addSt := .lost } F_REMOTE_LOST).opSettle op
      else (s.pieceFail op piece .lost F_REMOTE_LOST).opSettle op

/-! ### Transport: the receiver (R673, R677 to R681) -/

/-- What a receiver does with a packet's number: accept, ahead, or a duplicate (R677). -/
inductive PsnFate where
  | accept | ahead | duplicate
deriving DecidableEq, Repr

def psnFate (expected psn : Nat) : PsnFate :=
  let d := (psn + 2 ^ 24 - expected % 2 ^ 24) % 2 ^ 24
  if d = 0 then .accept else if 2 ^ 24 - (2 ^ 22 - 1) ≤ d then .duplicate else .ahead

/-- Receive a packet: a NAK where it is ahead, the cumulative acknowledgement again where it is a duplicate,
and otherwise its effect. -/
def State.receive (s : State) (c psn : Nat) (dup : State → State) (body : State → State) : State :=
  if (s.conn c).st ≠ 1 then s
  else match psnFate (s.conn c).rxPsn psn with
    | .ahead => s.emit (.xpNak c (s.conn c).rxPsn)
    | .duplicate => dup s
    | .accept => body (s.modConn c fun x => { x with rxPsn := (x.rxPsn + 1) % 2 ^ 24 })

def State.reAck (c : Nat) (s : State) : State := s.emit (.xpAck c (((s.conn c).rxPsn + 2 ^ 24 - 1) % 2 ^ 24))

/-- The generation a target checks: none on a version 1 connection (R820). -/
def State.genOf (s : State) (c gen : Nat) : Option Nat := if s.connVersion (s.conn c).place = 1 then none else some gen

/-- A put piece arrives (R673, R663, R681). -/
def execPutPiece (c psn w gen off : Nat) (data : List Byte) (mf : MemFaults) (s : State) : Out :=
  .next <| s.receive c psn (State.reAck c) fun s =>
    match s.targetPut mf (s.jobOf (s.conn c).partition) w (s.genOf c gen) off data with
    | (none, s) => s.emit (.xpAck c psn)
    | (some code, s) => (s.emit (.xpRefused c psn code)).emit (.xpAck c psn)

/-- A get request arrives (R673). -/
def execGetRequest (c psn w gen off len : Nat) (mf : MemFaults) (s : State) : Out :=
  .next <| s.receive c psn (State.reAck c) fun s =>
    match s.targetGet mf (s.jobOf (s.conn c).partition) w (s.genOf c gen) off len with
    | (.ok bs, s) => (splitPieces off len).foldl (fun s p => s.emit (.xpData c psn p.1 ((bs.drop p.1).take p.2))) (s.emit (.xpAck c psn))
    | (.error code, s) => (s.emit (.xpRefused c psn code)).emit (.xpAck c psn)

/-- A counter addition arrives: made once, and answered from the result cache as a duplicate (R674, R679,
R680). -/
def execTransportCounterAddition (c psn : Nat) (w : Option Nat) (ctr : Nat) (x : W64) (s : State) : Out :=
  .next <| s.receive c psn
    (fun s => match (s.conn c).results.find? fun r => r.1 == psn with
      | some r => if r.2 = 0 then State.reAck c s else (s.emit (.xpRefused c psn r.2)).emit (.xpAck c psn)
      | none => s.emit (.xpRefused c psn F_REMOTE_LOST))
    fun s =>
      let (r, s) := s.targetWinAdd (s.jobOf (s.conn c).partition) w ctr x
      let s := s.modConn c fun y => { y with results := ((psn, r.getD 0) :: y.results).take 4096 }
      match r with
      | none => s.emit (.xpAck c psn)
      | some code => (s.emit (.xpRefused c psn code)).emit (.xpAck c psn)

/-! ### Transport: the transmitter -/

/-- Get data arrives and lands (R675). -/
def execGetResponse (op piece : Nat) (data : List Byte) (mf : MemFaults) (s : State) : Out :=
  .next <| match s.op op with
  | none => s
  | some o => if !o.domain && o.kind == .get && o.isSent piece then ((s.land mf o piece data).opSettle op).connSettle o.conn else s

/-- A packet is acknowledged: a put's piece or an addition is performed; an invalidation is answered (R663,
R675). -/
def State.packetAcked (s : State) (c : Nat) (k : Packet) : State :=
  if 2 ^ 48 ≤ k.op then s.revokeGoes c (· == k.op - 2 ^ 48)
  else if 2 ^ 32 ≤ k.part then s
  else (s.modOp k.op fun o =>
    if k.part = o.pieces.length then (if o.addSt == .sent then { o with addSt := .done } else o)
    else o.setPiece k.part fun p => if p.st == .sent then { p with st := .done } else p).opSettle k.op

/-- A cumulative acknowledgement (R676). `srttUs` is the smoothed round trip as now measured. -/
def execTransportAck (c psn srttUs : Nat) (s : State) : Out :=
  .next <|
    let x := s.conn c
    match x.unacked.findIdx? fun k => k.psn == psn with
    | none => s
    | some i =>
      let acked := x.unacked.take (i + 1)
      let s := s.modConn c fun x => { x with unacked := x.unacked.drop (i + 1), srttUs := srttUs, rtoUs := 2 * srttUs + 20 }
      ((acked.foldl (fun s k => s.packetAcked c k) s).connPump c).connSettle c

/-- A NAK: retransmission from the first packet not acknowledged (R678). -/
def execTransportNak (c : Nat) (s : State) : Out := .next (if (s.conn c).st = 1 then s.retransmit c else s)

/-- A refusal report (R681, R647, R680). -/
def execTransportRefusal (c psn code : Nat) (s : State) : Out :=
  .next <| match (s.conn c).unacked.find? fun k => k.psn == psn with
  | none => s
  | some k =>
    let st : PieceState := if code = F_REMOTE_LOST then .lost else .refused code
    let s := s.setFlagIf (code != F_REMOTE_LOST) lnXp fXpRefused
    let s := s.modOp k.op fun o =>
      let o := if 2 ^ 32 ≤ k.part then
          let r := ((o.pieces[k.part - 2 ^ 32]?).map fun p => p.off / 65536).getD 0
          { o with pieces := o.pieces.map fun p => if p.off / 65536 = r ∧ p.st = .sent then { p with st := st } else p }
        else if k.part = o.pieces.length then { o with addSt := st }
        else o.setSt k.part st
      { o with code := if o.code = 0 then code else o.code }
    (s.opSettle k.op).connSettle c

/-- The retransmission timeout expires: it doubles (R678). -/
def execRetransmissionTimeout (c : Nat) (s : State) : Out :=
  .next <| if (s.conn c).st = 1 ∧ (s.conn c).unacked ≠ [] then (s.modConn c fun x => { x with rtoUs := 2 * x.rtoUs }).retransmit c else s

/-- A connection makes no progress for CONN_TIMEOUT (R683). -/
def execConnectionFailure (c : Nat) (s : State) : Out := .next (s.connFail c)

/-- A window descriptor is asked for: the connection caches it from now on (R661, R663). -/
def execWindowFetch (c w : Nat) (s : State) : Out :=
  .next <| if (s.conn c).st ≠ 1 then s
  else (s.modConn c fun x => { x with peerCaches := natInsert x.peerCaches w }).emit (.xpWindow c w)

/-- A fetched descriptor arrives: cached, and the operations held for it issue (R661, R662). A descriptor of
an unregistered window is used once. -/
def execWindowDescriptor (c w : Nat) (valid : Bool) (job rights len cntBase cntCount gen : Nat) (mf : MemFaults) (s : State) : Out :=
  .next <| if (s.conn c).st ≠ 1 then s
  else
    let d : Window := ⟨valid, false, 0, job, rights, 0, len, cntBase, cntCount, gen⟩
    let s := s.modConn c fun x => { x with cache := ((w, d) :: x.cache.filter fun y => y.1 != w).take 8 }
    let s := s.forN 32 fun s i =>
      match (s.queue (i / 8) (8 + i % 8)).waiting with
      | e :: _ =>
        let pw := gaddr e.g (fmtR e.word).rb
        let o := opc e.word
        if (o = 0x34 ∨ o = 0x35) ∧ windowOf pw = w ∧ s.connTo (s.partOf (i / 8) e) (placeOf pw) = some c then s.issueXfer (i / 8) (i % 8) mf o else s
      | [] => s
    if valid then s else s.modConn c fun x => { x with cache := x.cache.filter fun y => y.1 != w }

/-- An invalidation arrives: the descriptor leaves the cache and the invalidation is acknowledged (R663). -/
def execWindowInvalidation (c w : Nat) (s : State) : Out :=
  .next <| (s.modConn c fun x => { x with cache := x.cache.filter fun y => y.1 != w }).emit (.xpInvalidated c w)

end Sys2Proof.Machine
end

