-- ==== Sys2Proof/Machine/CoreMem.lean ====
section
/-!
DEFINITION. The memory accesses of an application core: translation and protection, the attributes of each
region, loads, stores, and what goes to the domain (R529 to R567, R594 to R643). Sv48 and PMP follow the
RISC-V architecture that R529 names (PRESUMED, log entry 9).
-/
namespace Sys2Proof.Machine

open Sys2Proof

/-- Why an access of a core is not performed. -/
inductive XFault where
  | page
  | misaligned
  /-- An access fault with its reason (R561). -/
  | access (reason : Nat)
  /-- An access fault whose reason R561 does not list: a PMP refusal, an uncorrectable scratchpad word. -/
  | unlisted
deriving DecidableEq, Repr

/-- The exception that a fault raises (R558, R561). -/
def State.coreFault (s : State) (h : Nat) (store : Bool) (va pa : Nat) (f : XFault) : State :=
  match f with
  | .page => s.coreTrap h (if store then 15 else 13) (BitVec.ofNat 64 va)
  | .misaligned => s.coreTrap h (if store then 6 else 4) (BitVec.ofNat 64 va)
  | .access r => s.accessFault h store va pa r
  | .unlisted =>
    let r := s.fresh 4
    r.2.accessFault h store va pa r.1.toNat

/-! ### Protection and translation -/

/-- The mode that loads and stores of a core act in: MPP while MPRV is set. -/
def Core.accessMode (c : Core) : Mode :=
  let st := (c.csrAt 0x300).toNat
  if bitN st 17 then (match field st 12 11 with
    | 0 => .user
    | 1 => .supervisor
    | _ => .machine)
  else c.mode

def trailingOnes : Nat → Nat → Nat
  | 0, _ => 0
  | k + 1, x => if x % 2 = 1 then 1 + trailingOnes k (x / 2) else 0

/-- The configuration byte of a PMP entry. -/
def Core.pmpCfg (c : Core) (i : Nat) : Nat := (c.csrAt (0x3A0 + i / 8 * 2)).toNat / 256 ^ (i % 8) % 256

/-- The range of a PMP entry, at a granularity of 4 KiB (R533). -/
def Core.pmpRange (c : Core) (i : Nat) : Nat × Nat :=
  let at_ := fun j => (c.csrAt (0x3B0 + j)).toNat % 2 ^ 54
  match field (c.pmpCfg i) 4 3 with
  | 1 => ((if i = 0 then 0 else at_ (i - 1) / 1024 * 4096), at_ i / 1024 * 4096)
  | 3 =>
    let y := at_ i / 512 * 512 + 511
    let k := trailingOnes 54 y
    ((y - (2 ^ k - 1)) * 4, (y - (2 ^ k - 1)) * 4 + 2 ^ (k + 3))
  | _ => (0, 0)

/-- PMP lets a mode access a range: by the lowest-numbered entry that it touches. -/
def Core.pmpOk (c : Core) (mode : Mode) (store : Bool) (pa n : Nat) : Bool :=
  match (List.range 16).find? fun i => decide (pa < (c.pmpRange i).2 ∧ (c.pmpRange i).1 < pa + n) with
  | some i =>
    let r := c.pmpRange i
    decide (r.1 ≤ pa ∧ pa + n ≤ r.2) &&
      ((mode == .machine && !(bitN (c.pmpCfg i) 7)) || bitN (c.pmpCfg i) (if store then 1 else 0))
  | none => mode == .machine

/-- The fault of a read that met an error in a granule (R559). -/
def State.readFault (s : State) (g : Nat) : XFault :=
  if granule g = 32 then (if (s.fencedIn g 32).isEmpty then .access reasonUe else .access reasonFenced) else .unlisted

/-- A page-table entry gives no access: the kind of access is not permitted, or A or D is clear. -/
def pteRefuses (st : Nat) (mode : Mode) (store : Bool) (pte : Nat) : Bool :=
  (mode == .user && !(bitN pte 4)) || (mode == .supervisor && bitN pte 4 && !(bitN st 18)) ||
  (if store then !(bitN pte 2) else !(bitN pte 1 || (bitN st 19 && bitN pte 3))) || !(bitN pte 6) || (store && !(bitN pte 7))

/-- The Sv48 walk, from the table at an address, over the levels that are left: the address, or the fault with the
physical address that it met. -/
def State.walk (s : State) (mf : MemFaults) (c : Core) (mode : Mode) (store : Bool) (va : Nat) : Nat → Nat → Except (XFault × Nat) Nat × State
  | 0, _ => (.error (.page, 0), s)
  | k + 1, table =>
    let a := table + va / 2 ^ (12 + 9 * k) % 512 * 8
    if !(c.pmpOk .supervisor false a 8) then (.error (.unlisted, a), s)
    else if !(s.userHbmOk a 8) then (.error (.access reasonHole, a), s)
    else match s.load mf a 8 with
      | (.error g, s) => (.error (s.readFault g, a), s)
      | (.ok bs, s) =>
        let pte := leNat bs
        let next := field pte 53 10 * 4096
        if !(bitN pte 0) || (!(bitN pte 1) && bitN pte 2) || field pte 63 54 != 0 then (.error (.page, 0), s)
        else if bitN pte 1 || bitN pte 3 then
          if pteRefuses (c.csrAt 0x300).toNat mode store pte || next % 2 ^ (12 + 9 * k) != 0 then (.error (.page, 0), s)
          else (.ok (next + va % 2 ^ (12 + 9 * k)), s)
        else s.walk mf c mode store va k next

/-- The physical address of a range within one page, or the fault with the physical address that it met (R558). -/
def State.translate (s : State) (mf : MemFaults) (h : Nat) (store : Bool) (va n : Nat) : Except (XFault × Nat) Nat × State :=
  let c := s.core h
  let mode := c.accessMode
  let satp := (c.csrAt 0x180).toNat
  let r := if mode == .machine || satp / 2 ^ 60 == 0 then (.ok va, s)
    else if va / 2 ^ 47 ≠ 0 ∧ va / 2 ^ 47 ≠ 2 ^ 17 - 1 then (.error (.page, 0), s)
    else s.walk mf c mode store va 4 (satp % 2 ^ 44 * 4096)
  match r with
  | (.ok pa, s) => if c.pmpOk mode store pa n then (.ok pa, s) else (.error (.unlisted, pa), s)
  | (.error f, s) => (.error f, s)

/-- The parts of an access at page boundaries: address and length. -/
def coreSegs (va n : Nat) : List (Nat × Nat) :=
  let k := 4096 - va % 4096
  if n ≤ k then [(va, n)] else [(va, k), ((va + k) % 2 ^ 64, n - k)]

/-- Translate every part: (virtual address, physical address, length) of each, or the first fault with its
addresses. -/
def State.xlate (s : State) (mf : MemFaults) (h : Nat) (store : Bool) : List (Nat × Nat) → Except (XFault × Nat × Nat) (List (Nat × Nat × Nat)) × State
  | [] => (.ok [], s)
  | (va, n) :: rest => match s.translate mf h store va n with
    | (.error (f, pa), s) => (.error (f, va, pa), s)
    | (.ok pa, s) => match State.xlate s mf h store rest with
      | (.ok ps, s) => (.ok ((va, pa, n) :: ps), s)
      | (.error e, s) => (.error e, s)

/-! ### Regions -/

/-- The coherence attribute of an HBM address: 1 TILLER (R547 to R557). -/
def State.tillerRegion (s : State) (pa : Nat) : Bool :=
  bitN (Tbl.get 0 s.cores.coh (pa / 0x200000 / 32)).toNat (pa / 0x200000 % 32)

/-- An address that no region holds, or that its region refuses (R31, R438, R558). -/
def State.regionFault (s : State) (pa n : Nat) : Option XFault :=
  match regionOf pa with
  | .hbm => if s.userHbmOk pa n then none else some (.access reasonHole)
  | .spm t off =>
    if !(s.tile t).inService then some (.access reasonIsland)
    else if off + n ≤ s.spmBytes t then none else some (.access reasonHole)
  | .hole => some (.access reasonHole)
  | .view _ _ => none
  | .mmio => none
  | .aperture _ _ => none

def isHbm (pa : Nat) : Bool := regionOf pa == .hbm

/-- Charge an uncached access of a core to its partition (R549, R567). -/
def State.coreCharge (s : State) (h : Nat) (write : Bool) (pa n : Nat) : State :=
  if isHbm pa && s.tillerRegion pa then s.chargeHbm (s.core h).spart write pa n else s

/-- Read a local range of one region for a core. -/
def State.coreRead (s : State) (mf : MemFaults) (h pa n : Nat) : Except XFault (List Byte) × State :=
  match s.regionFault pa n with
  | some f => (.error f, s)
  | none => match regionOf pa with
    | .view v off =>
      if !(s.viewReadOk (s.core h).spart v off n) then (.error (.access reasonView), s.viewRefused 0)
      else match s.viewRead mf v off n with
        | (none, bs, s) => (.ok bs, s)
        | (some g, _, s) => (.error (s.readFault g), s)
    | .mmio =>
      if n ≠ 4 then (.error (.access reasonMmio), s)
      else match s.regRead (.core (Fin.ofNat 64 h)) pa with
        | (.ok v, s) => (.ok (leBytes 4 v.toNat), s)
        | (.error r, s) => (.error (.access r), s)
    | _ => match s.load mf pa n with
      | (.ok bs, s) => (.ok bs, s.coreCharge h false pa n)
      | (.error g, s) => (.error (s.readFault g), s)

/-- Read the parts of an access, in order. -/
def State.coreReadAll (s : State) (mf : MemFaults) (h : Nat) : List (Nat × Nat × Nat) → Except (XFault × Nat × Nat) (List Byte) × State
  | [] => (.ok [], s)
  | (va, pa, n) :: rest => match s.coreRead mf h pa n with
    | (.error f, s) => (.error (f, va, pa), s)
    | (.ok bs, s) => match State.coreReadAll s mf h rest with
      | (.ok cs, s) => (.ok (bs ++ cs), s)
      | (.error e, s) => (.error e, s)

/-- The fault of an access that is not aligned and touches more than HBM (R538). -/
def misalignedFault (ps : List (Nat × Nat × Nat)) : Option XFault :=
  if ps.all fun p => isHbm p.2.1 then none
  else if ps.any fun p => regionOf p.2.1 == .hole then some (.access reasonHole) else some .misaligned

/-! ### The domain aperture -/

/-- A new operation of a core (R617). -/
def State.coreOp (s : State) (h : Nat) (kind : RKind) (addr n : Nat) (data : List Byte) (pieces : List (Nat × Nat)) : RemOp :=
  { id := s.net.nextOp, kind := kind, src := .core h, partition := (s.core h).spart, target := apSlot addr, conn := 65536,
    window := 0, addr := addr, len := n, local_ := 0, data := data, atop := 0, w64 := false, cmp := 0,
    pieces := pieces.map fun p => ⟨p.1, p.2, 0, .held, 0⟩, addTo := none, addSt := .done, addPsn := 0, after := [],
    broken := false, code := 0, ordered := false }

/-- The route and export checks of a core's access (R598, R603, R636, R637). -/
def State.coreDomainOk (s : State) (h right pa n : Nat) : Bool :=
  (firstCheck (s.domainChecks (s.core h).spart right pa n none)).isNone

/-- The replica that serves a load wholly (R635): its address. -/
def State.replicaOf (s : State) (h pa n : Nat) : Option Nat :=
  ((s.replicasAt (s.core h).spart pa n).find? fun r => decide (r.remoteBase ≤ apAddr pa ∧ apAddr pa + n ≤ r.remoteBase + r.len)).map
    fun r => r.localBase + (apAddr pa - r.remoteBase)

/-- Where a load is performed: a replica's address for an aperture range that a valid entry covers, as long as its
slot answers; the address itself otherwise. -/
def State.loadAddr (s : State) (h pa n : Nat) : Nat :=
  match regionOf pa with
  | .aperture k _ => if s.apertureUp k then (s.replicaOf h pa n).getD pa else pa
  | _ => pa

def isAperture (pa : Nat) : Bool :=
  match regionOf pa with
  | .aperture _ _ => true
  | _ => false

/-! ### Loads and stores -/

/-- A load of n bytes for a register (R538, R558 to R560). `aligned` is the instruction's own alignment, 1 for
none; a masked load has its mask. -/
def State.coreLoad (s : State) (mf : MemFaults) (h va n : Nat) (signed : Bool) (unit rd mask : Nat) : State :=
  match s.xlate mf h false (coreSegs va n) with
  | (.error (f, at_, pa), s) => s.coreFault h false at_ pa f
  | (.ok ps, s) =>
    let ps := ps.map fun p => (p.1, s.loadAddr h p.2.1 p.2.2, p.2.2)
    let pa := (ps.head?.map fun p => p.2.1).getD 0
    match (if va % n = 0 then none else misalignedFault ps) with
    | some f => s.coreFault h false va pa f
    | none =>
      if isAperture pa then
        if !(s.coreDomainOk h rightR pa n) then s.accessFault h false va pa reasonRemote
        else
          let o := s.coreOp h .load pa n [] [(0, n)]
          ((s.modCore h fun c => { c with wait := .load o.id va pa n signed unit rd mask }).newOp o).sendPieces mf o.id
      else match s.coreReadAll mf h ps with
        | (.ok bs, s) => s.modCore h fun c => (c.landLoad n signed unit rd mask (leNat bs)).nextPc
        | (.error (f, va, pa), s) => s.coreFault h false va pa f

/-- What keeps a store to a local range from being performed (R461, R493, R512, R514). -/
def State.storeFault (s : State) (mf : MemFaults) (h pa n : Nat) : Option XFault :=
  match s.regionFault pa n with
  | some f => some f
  | none => match regionOf pa with
    | .view v off =>
      let e := (vTgt (s.view v)).bits / 8
      if !(s.viewWriteOk (s.core h).spart v off n) || off % e != 0 || n % e != 0 then some (.access reasonView) else none
    | .mmio => if n ≠ 4 then some (.access reasonMmio) else none
    | _ => (s.writeErr mf pa n).map s.readFault

/-- A refused store shows in the view block where R493 or R512 refuses it, and an error it finds is counted. -/
def State.storeRefused (s : State) (mf : MemFaults) (h pa n : Nat) : State :=
  match regionOf pa with
  | .view v off => if s.viewWriteOk (s.core h).spart v off n then s else s.viewRefused 0
  | .mmio => s
  | _ => (s.mergeErr mf pa n).2

/-- Write bytes to a local range that `storeFault` lets through. -/
def State.coreWrite (s : State) (mf : MemFaults) (h pa : Nat) (bs : List Byte) : Option XFault × State :=
  match regionOf pa with
  | .view v off => match s.viewWrite mf v off bs with
    | (none, _, s) => (none, s)
    | (some g, _, s) => (some (s.readFault g), s)
  | .mmio => match s.regWrite (.core (Fin.ofNat 64 h)) pa (BitVec.ofNat 32 (leNat bs)) with
    | (none, s) => (none, s)
    | (some r, s) => (some (.access r), s)
  | _ => (none, (s.store pa bs).coreCharge h true pa bs.length)

/-- Write several ranges, in order. -/
def State.coreWriteAll (s : State) (mf : MemFaults) (h : Nat) : List (Nat × List Byte) → Option XFault × State
  | [] => (none, s)
  | (pa, bs) :: rest => match s.coreWrite mf h pa bs with
    | (some f, s) => (some f, s)
    | (none, s) => State.coreWriteAll s mf h rest

/-- The bytes of runs (offset in the access, bytes) that fall in a part of it: (physical address, bytes). -/
def runsIn (off pa n : Nat) (runs : List (Nat × List Byte)) : List (Nat × List Byte) :=
  runs.filterMap fun r =>
    let lo := max off r.1
    let hi := min (off + n) (r.1 + r.2.length)
    if lo < hi then some (pa + (lo - off), (r.2.drop (lo - r.1)).take (hi - lo)) else none

/-- A store of runs of bytes within an access of n bytes (R538, R558, R580, R583): every part is translated and
checked before any byte is written. A store to the aperture is posted (R562). -/
def State.coreStore (s : State) (mf : MemFaults) (h va n : Nat) (runs : List (Nat × List Byte)) : State :=
  match s.xlate mf h true (coreSegs va n) with
  | (.error (f, at_, pa), s) => s.coreFault h true at_ pa f
  | (.ok ps, s) =>
    let pa := (ps.head?.map fun p => p.2.1).getD 0
    let first := (ps.head?.map fun p => p.2.2).getD 0
    match (if va % n = 0 then none else misalignedFault ps) with
    | some f => s.coreFault h true va pa f
    | none =>
      if isAperture pa then
        if !(s.coreDomainOk h rightW pa n) then s.accessFault h true va pa reasonRemote
        else
          let o := s.coreOp h .store pa n ((List.range n).map fun i =>
            ((runs.find? fun r => decide (r.1 ≤ i ∧ i < r.1 + r.2.length)).map fun r => r.2.getD (i - r.1) 0).getD 0)
            (runs.map fun r => (r.1, r.2.length))
          ((s.modCore h Core.nextPc).newOp o).sendPieces mf o.id
      else
        let ws := ps.zipIdx.flatMap fun p => (runsIn (if p.2 = 0 then 0 else first) p.1.2.1 p.1.2.2 runs).map fun w => (p.1.1, w)
        match ws.find? fun w => (s.storeFault mf h w.2.1 w.2.2.length).isSome with
        | some w => (s.storeRefused mf h w.2.1 w.2.2.length).coreFault h true w.1 w.2.1 ((s.storeFault mf h w.2.1 w.2.2.length).getD .page)
        | none => match s.coreWriteAll mf h (ws.map (·.2)) with
          | (none, s) => s.modCore h Core.nextPc
          | (some f, t) => ({ t with mem := s.mem }).coreFault h true va pa f

/-! ### Interrupts -/

/-- Bits of `mip` that the state stores: SSIP, STIP, SEIP and the remote store failure bit 16 (R562). -/
def mipStored : Nat := 0x10222

/-- A bit number's value where a condition holds. -/
def bitIf (c : Bool) (i : Nat) : Nat := if c then 2 ^ i else 0

/-- A machine timer interrupt is pending for core h (R590). -/
def State.timerPending (s : State) (h : Nat) : Bool := decide ((s.core h).mtimecmp.toNat ≤ s.timeNs % 2 ^ 64)

/-- `mip`: the stored bits, the software and timer bits of the core complex, and the external interrupts that the
package-wide interrupt block holds for the core (R537, R590, R975). -/
def State.mipOf (s : State) (h : Nat) : Nat :=
  let c := s.core h
  (Nat.land (c.csrAt 0x344).toNat mipStored).lor
    ((bitIf c.msip 3).lor ((bitIf (s.timerPending h) 7).lor
      ((bitIf (s.claim h 1 != 0x100) 9).lor (bitIf (s.claim h 0 != 0x100) 11))))

/-- The interrupt that core h takes now, by its cause: for M mode first, then for S mode; in each the external,
software and timer ones in this order, then cause 16 (PRESUMED, log entry 9). -/
def State.pendingIntr (s : State) (h : Nat) : Option Nat :=
  let c := s.core h
  let mie := (c.csrAt 0x304).toNat
  if mie = 0 then none
  else
    let st := (c.csrAt 0x300).toNat
    let up := (s.mipOf h).land mie
    let deleg := (c.csrAt 0x303).toNat
    let order := [11, 3, 7, 9, 1, 5, 16]
    let mOn := c.mode != .machine || bitN st 3
    let sOn := c.mode == .user || (c.mode == .supervisor && bitN st 1)
    match (if mOn then order.find? fun i => bitN up i && !(bitN deleg i) else none) with
    | some i => some i
    | none => if sOn then order.find? fun i => bitN up i && bitN deleg i else none

/-- Core h takes its pending interrupt, if it has one and executes instructions. -/
def State.takeIntr (s : State) (h : Nat) : State :=
  if (s.core h).runs then
    match s.pendingIntr h with
    | some i => s.modCore h fun c => c.trap true i 0
    | none => s
  else s

/-- Run an instruction of core h, of a given length, where the core executes; an interrupt that is pending and
enabled is taken in its place. -/
def State.coreRun (s : State) (h len : Nat) (body : Core → State → State) : State :=
  if (s.core h).runs && (s.pendingIntr h).isNone then
    let s := s.modCore h fun c => { c with ilen := len }
    body (s.core h) s
  else s.takeIntr h

end Sys2Proof.Machine
end

