-- ==== Sys2Proof/Machine/VecReg.lean ====
section
/-!
DEFINITION. What the SVX and LVX instructions share: elements, predicates, fixed-point and floating-point
rounding, the exception flags, and the checks of VXS and of the encodings left undefined (R565 to R578).
-/
namespace Sys2Proof.Machine

open Sys2Proof

/-! ### Elements -/

/-- Element i of b bytes of a register value (R568, R575). -/
def elemAt (v b i : Nat) : Nat := v / 2 ^ (8 * b * i) % 2 ^ (8 * b)

/-- A register value from its elements of b bytes, element 0 lowest. -/
def ofElems (b : Nat) : List Nat → Nat
  | [] => 0
  | x :: xs => x % 2 ^ (8 * b) + 2 ^ (8 * b) * ofElems b xs

/-- Element i is active under a predicate (R569). -/
def activeAt (p : BitVec 8) (b i : Nat) : Bool := bitN p.toNat (i * b)

/-- Apply a function to the active elements of two w registers; the others keep the old value (R569). Each result
comes with whether it saturated. -/
def svMap (b : Nat) (p : BitVec 8) (old x y : W64) (f : Nat → Nat → Nat × Bool) : W64 × Bool :=
  let rs := (List.range (8 / b)).map fun i =>
    if activeAt p b i then f (elemAt x.toNat b i) (elemAt y.toNat b i) else (elemAt old.toNat b i, false)
  (BitVec.ofNat 64 (ofElems b (rs.map (·.1))), rs.any (·.2))

/-- The predicate of a comparison: every bit of an active element that compares true (R571). -/
def svCompare (b : Nat) (p : BitVec 8) (x y : W64) (f : Nat → Nat → Bool) : BitVec 8 :=
  BitVec.ofNat 8 (((List.range 8).map fun k =>
    if activeAt p b (k / b) && f (elemAt x.toNat b (k / b)) (elemAt y.toNat b (k / b)) then 2 ^ k else 0).sum)

/-- Saturation to n signed bits, and to n unsigned bits (R572). -/
def satSigned (n : Nat) (v : Int) : Nat × Bool :=
  if v < -(2 ^ (n - 1)) then (2 ^ (n - 1), true) else if 2 ^ (n - 1) ≤ v then (2 ^ (n - 1) - 1, true) else (ofSigned n v, false)
def satUnsigned (n : Nat) (v : Int) : Nat × Bool :=
  if v < 0 then (0, true) else if 2 ^ n ≤ v then (2 ^ n - 1, true) else (v.toNat, false)

/-- round(v / 2^s) under `fxrm`: 0 RNU, 1 RNE, 2 RDN, 3 RTZ (R565). -/
def fxRound (mode : Nat) (v : Int) (s : Nat) : Int :=
  let q := v / 2 ^ s
  let r := v % 2 ^ s
  match mode with
  | 0 => if 2 ^ s ≤ 2 * r then q + 1 else q
  | 1 => if 2 * r > 2 ^ s ∨ (2 * r = 2 ^ s ∧ q % 2 = 1) then q + 1 else q
  | 2 => q
  | _ => if v < 0 ∧ r ≠ 0 then q + 1 else q

/-! ### Floating point -/

/-- The layouts that sz selects: BF16, FP16, FP32, FP64 (R568, R575). -/
def szLayout (sz : Nat) : FLayout := [bf16, fp16, fp32].getD sz fp64

/-- The rounding modes of the F extension (R576). -/
def fRounding (code : Nat) : Option RMode :=
  match code with
  | 0 => some .rne
  | 1 => some .rtz
  | 2 => some .rdn
  | 3 => some .rup
  | 4 => some .rmm
  | _ => none

def Core.frm (c : Core) : Option RMode := fRounding (c.csrAt 2).toNat

/-- The mode that the field rm of an LVX instruction names (R576). -/
def Core.rounding (c : Core) (rm : Nat) : Option RMode := if rm = 7 then c.frm else fRounding rm

/-- An exception record as `fflags`: NX, UF, OF, DZ, NV from bit 0. -/
def FFlags.fflags (f : FFlags) : Nat := b2n f.nx + 2 * b2n f.uf + 4 * b2n f.of + 8 * b2n f.dz + 16 * b2n f.nv

/-- Accumulate exceptions in `fflags`, which makes FS dirty (R571, R578). -/
def Core.raise (c : Core) (f : FFlags) : Core :=
  if f.fflags = 0 then c
  else (c.setCsr 1 (c.csrAt 1 ||| BitVec.ofNat 64 f.fflags)).setCsr 0x300 (c.csrAt 0x300 ||| 0x6000)

def flagsOr (fs : List FFlags) : FFlags := fs.foldl FFlags.or FFlags.none

/-! ### Running an instruction -/

/-- The instruction raises the illegal-instruction exception where VXS is Off or its encoding is undefined, and else
has its effect on the core and completes (R530, R566). -/
def State.vecRun (s : State) (h : Nat) (undefined_ : Core → Bool) (f : Core → Core) : State :=
  s.coreRun h 4 fun c s =>
    if c.vxs = 0 || undefined_ c then s.illegal h else s.modCore h fun c => (f c).nextPc

/-- As `vecRun`, for an instruction that accesses memory. -/
def State.vecMem (s : State) (h : Nat) (undefined_ : Core → Bool) (body : Core → State → State) : State :=
  s.coreRun h 4 fun c s => if c.vxs = 0 || undefined_ c then s.illegal h else body c s

/-- An address in rs1 plus rs2 (R574, R579). -/
def Core.sumAddr (c : Core) (rs1 rs2 : Nat) : Nat := (c.xr rs1 + c.xr rs2).toNat

end Sys2Proof.Machine
end

