-- ==== Sys2Proof/Machine/CoreCsr.lean ====
section
/-!
DEFINITION. The CSRs of an application core: the Ranbel CSRs of R565, and those that the RISC-V architecture named
by R529 gives them (R531 to R537; layout and legal values of the latter PRESUMED, log entry 9).
-/
namespace Sys2Proof.Machine

open Sys2Proof

/-- The bits of one number that a mask selects, the others from another number. -/
def blend (mask new old : Nat) : Nat := (Nat.land new mask).lor (old - Nat.land old mask)

/-- The field XS of mstatus reads VXS, and SD accounts for it (R566); UXL and SXL read 2. -/
def Core.mstatus (c : Core) : Nat :=
  let st := (c.csrAt 0x300).toNat
  st + c.vxs * 2 ^ 15 + 2 * 2 ^ 32 + 2 * 2 ^ 34 + bitIf (field st 14 13 == 3 || c.vxs == 3) 63

/-- Bits of mstatus that software writes, and those that sstatus shows. -/
def mstatusMask : Nat := 0x7E79AA
def sstatusWrite : Nat := 0xC6122
def sstatusRead : Nat := 0x80000003000DE762

/-- Bits of mie; delegable interrupts and exceptions. -/
def mieMask : Nat := 0x10AAA
def midelegMask : Nat := 0x10222
def medelegMask : Nat := 0xB3FF

/-- Interrupt bits that the S-mode views show: the delegated ones, and bit 16 in `sip` (R562). -/
def Core.sipMask (c : Core) : Nat := ((c.csrAt 0x303).toNat).lor 0x10000

/-- What `misa` reads: MXL 2 and A, C, D, F, I, M, S, U, X (R531). -/
def misaValue : Nat := 2 * 2 ^ 62 + 2 ^ 0 + 2 ^ 2 + 2 ^ 3 + 2 ^ 5 + 2 ^ 8 + 2 ^ 12 + 2 ^ 18 + 2 ^ 20 + 2 ^ 23

/-- The privilege a CSR number asks for, against a mode. -/
def modeRank : Mode → Nat
  | .user => 0
  | .supervisor => 1
  | .machine => 3

/-- The counters that a mode may read. -/
def Core.counterOk (c : Core) (i : Nat) : Bool :=
  match c.mode with
  | .machine => true
  | .supervisor => bitN (c.csrAt 0x306).toNat i
  | .user => bitN (c.csrAt 0x306).toNat i && bitN (c.csrAt 0x106).toNat i

/-- The field FS of mstatus is not Off. -/
def Core.fpOn (c : Core) : Bool := field (c.csrAt 0x300).toNat 14 13 != 0

/-- The CSRs that hold what is written to them, with the bits that they keep. -/
def plainCsr (n : Nat) : Option Nat :=
  match n with
  | 0x105 => some (2 ^ 64 - 3)
  | 0x305 => some (2 ^ 64 - 3)
  | 0x106 => some (2 ^ 32 - 1)
  | 0x306 => some (2 ^ 32 - 1)
  | 0x10A => some 1
  | 0x30A => some 1
  | 0x140 => some (2 ^ 64 - 1)
  | 0x340 => some (2 ^ 64 - 1)
  | 0x141 => some (2 ^ 64 - 2)
  | 0x341 => some (2 ^ 64 - 2)
  | 0x142 => some (2 ^ 64 - 1)
  | 0x342 => some (2 ^ 64 - 1)
  | 0x143 => some (2 ^ 64 - 1)
  | 0x343 => some (2 ^ 64 - 1)
  | 0x302 => some medelegMask
  | 0x303 => some midelegMask
  | 0x304 => some mieMask
  | 0x320 => some 5
  | _ => none

/-- An access to a CSR is legal in the state of the core: it exists, the mode is high enough, a read-only one is not
written, and the unit it belongs to is not Off (R566). -/
def Core.csrLegal (c : Core) (n : Nat) (write : Bool) : Bool :=
  decide (field n 9 8 ≤ modeRank c.mode) && !(write && field n 11 10 == 3) &&
  (if n = 1 ∨ n = 2 ∨ n = 3 then c.fpOn
   else if 0x800 ≤ n ∧ n ≤ 0x802 then c.vxs != 0
   else if 0xC00 ≤ n ∧ n ≤ 0xC1F then c.counterOk (n - 0xC00)
   else if n = 0x180 then !(c.mode == .supervisor && bitN (c.csrAt 0x300).toNat 20)
   else (plainCsr n).isSome || [0x100, 0x104, 0x144, 0x300, 0x301, 0x344, 0x3A0, 0x3A2, 0xB00, 0xB02].contains n ||
     decide (0x5C0 ≤ n ∧ n ≤ 0x5C4) || n == 0xDC0 || n == 0xFC0 || decide (0x323 ≤ n ∧ n ≤ 0x33F) ||
     decide (0x3B0 ≤ n ∧ n ≤ 0x3BF) || decide (0xB03 ≤ n ∧ n ≤ 0xB1F) || decide (0xF11 ≤ n ∧ n ≤ 0xF15))

/-- The value of a PMP address register: the bits below the 4 KiB grain read 1 or 0 as the entry's mode says (R533). -/
def Core.pmpAddr (c : Core) (i : Nat) : Nat :=
  let v := (c.csrAt (0x3B0 + i)).toNat % 2 ^ 54
  if field (c.pmpCfg i) 4 3 = 3 then v / 512 * 512 + 511 else v / 1024 * 1024

/-- What a CSR of core h reads. The counters of clocks and of retired instructions give a free value. -/
def State.csrRead (s : State) (h n : Nat) : Nat × State :=
  let c := s.core h
  let stored := fun k => (c.csrAt k).toNat
  if n = 0xC00 ∨ n = 0xC02 ∨ n = 0xB00 ∨ n = 0xB02 then
    let r := s.fresh 64
    (r.1.toNat, r.2)
  else
  (if n = 1 then stored 1
   else if n = 2 then stored 2
   else if n = 3 then stored 2 * 32 + stored 1
   else if n = 0x800 then c.fxrm
   else if n = 0x801 then b2n c.fxsat
   else if n = 0x802 then c.lvffc
   else if n = 0x5C0 then c.vxs
   else if n = 0x5C1 then c.saerr
   else if n = 0x5C2 then c.saepa
   else if n = 0x5C3 then c.srsfcnt
   else if n = 0x5C4 then c.srsfaddr.toNat
   else if n = 0xDC0 then c.spart
   else if n = 0xFC0 then c.phys
   else if n = 0x100 then Nat.land c.mstatus sstatusRead
   else if n = 0x300 then c.mstatus
   else if n = 0x301 then misaValue
   else if n = 0x104 then Nat.land (stored 0x304) (stored 0x303)
   else if n = 0x144 then Nat.land (s.mipOf h) c.sipMask
   else if n = 0x344 then s.mipOf h
   else if n = 0x180 then stored 0x180
   else if n = 0x3A0 ∨ n = 0x3A2 then stored n
   else if 0x3B0 ≤ n ∧ n ≤ 0x3BF then c.pmpAddr (n - 0x3B0)
   else if n = 0xC01 then s.timeNs % 2 ^ 64
   else if n = 0xF14 then h
   else if 0xF11 ≤ n ∧ n ≤ 0xF15 then (Config.csrConst n).toNat
   else if (plainCsr n).isSome then stored n
   else 0, s)

/-- One configuration byte of a PMP entry as a write leaves it: a locked entry keeps it, NA4 is not to be had at this
grain, and W needs R. -/
def pmpByte (new old : Nat) : Nat :=
  if bitN old 7 then old
  else
    let a := if field new 4 3 = 2 then field old 4 3 else field new 4 3
    bitIf (bitN new 0) 0 + bitIf (bitN new 1 && bitN new 0) 1 + bitIf (bitN new 2) 2 + a * 8 + bitIf (bitN new 7) 7

/-- A PMP entry's address is locked: by itself, or by a locked TOR entry after it. -/
def Core.pmpLocked (c : Core) (i : Nat) : Bool :=
  bitN (c.pmpCfg i) 7 || (decide (i < 15) && bitN (c.pmpCfg (i + 1)) 7 && field (c.pmpCfg (i + 1)) 4 3 == 1)

/-- mstatus after a write: MPP keeps its mode where the reserved code is written. -/
def mstatusWrite (mask v old : Nat) : Nat :=
  let r := blend mask v old
  if field r 12 11 = 2 then blend 0x1800 old r else r

/-- Write a CSR of a core. -/
def Core.csrWrite (c : Core) (n v : Nat) : Core :=
  let put := fun (k x : Nat) => c.setCsr k (BitVec.ofNat 64 x)
  let fp := fun (c : Core) => c.setCsr 0x300 (c.csrAt 0x300 ||| 0x6000)
  if n = 1 then fp (put 1 (v % 32))
  else if n = 2 then fp (put 2 (v % 8))
  else if n = 3 then fp ((put 1 (v % 32)).setCsr 2 (BitVec.ofNat 64 (v / 32 % 8)))
  else if n = 0x800 then { c with fxrm := v % 4, vxs := 3 }
  else if n = 0x801 then { c with fxsat := bitN v 0, vxs := 3 }
  else if n = 0x802 then { c with lvffc := v % 32, vxs := 3 }
  else if n = 0x5C0 then { c with vxs := v % 4 }
  else if n = 0x5C1 then { c with saerr := v % 16 }
  else if n = 0x5C2 then { c with saepa := v % 2 ^ 48 }
  else if n = 0x5C3 then { c with srsfcnt := v % 2 ^ 32 }
  else if n = 0x5C4 then { c with srsfaddr := BitVec.ofNat 64 (Nat.land v (2 ^ 63 + (2 ^ 48 - 1))) }
  else if n = 0x100 then put 0x300 (mstatusWrite sstatusWrite v (c.csrAt 0x300).toNat)
  else if n = 0x300 then put 0x300 (mstatusWrite mstatusMask v (c.csrAt 0x300).toNat)
  else if n = 0x104 then put 0x304 (blend (c.csrAt 0x303).toNat v (c.csrAt 0x304).toNat)
  else if n = 0x144 then put 0x344 (blend ((Nat.land (c.csrAt 0x303).toNat 2).lor 0x10000) v (c.csrAt 0x344).toNat)
  else if n = 0x344 then put 0x344 (blend mipStored v (c.csrAt 0x344).toNat)
  else if n = 0x180 then (if v / 2 ^ 60 = 0 ∨ v / 2 ^ 60 = 9 then put 0x180 v else c)
  else if n = 0x3A0 ∨ n = 0x3A2 then
    put n (leNat ((List.range 8).map fun i => BitVec.ofNat 8 (pmpByte (v / 256 ^ i % 256) (c.pmpCfg ((n - 0x3A0) * 4 + i)))))
  else if 0x3B0 ≤ n ∧ n ≤ 0x3BF then (if c.pmpLocked (n - 0x3B0) then c else put n (v % 2 ^ 54))
  else match plainCsr n with
    | some m => put n (Nat.land v m)
    | none => c

/-- What a CSR instruction modifies: as it reads, but for the external bit of `mip` and `sip` its stored bit. -/
def State.csrOld (s : State) (h n read : Nat) : Nat :=
  if n = 0x344 then (s.core h).csrAt 0x344 |>.toNat
  else if n = 0x144 then Nat.land ((s.core h).csrAt 0x344).toNat (s.core h).sipMask
  else read

/-- A CSR instruction (R565, R566): kind 0 writes, 1 sets bits, 2 clears bits; the two latter write nothing with x0
or zero as source. An access that is not legal raises the illegal-instruction exception. -/
def State.csrAccess (s : State) (h n kind : Nat) (imm : Bool) (rd src : Nat) : State :=
  s.coreRun h 4 fun c s =>
    let write := kind == 0 || src != 0
    if !(c.csrLegal n write) then s.illegal h
    else
      let operand := if imm then src else (c.xr src).toNat
      let (v, s) := s.csrRead h n
      let old := s.csrOld h n v
      let new := match kind with
        | 0 => operand
        | 1 => Nat.lor old operand
        | _ => old - Nat.land old operand
      s.modCore h fun c =>
        (((if write then c.csrWrite n new else c).setX rd (BitVec.ofNat 64 v))).nextPc

end Sys2Proof.Machine
end

