-- ==== Sys2Proof/Machine/Cores.lean ====
section
/-!
DEFINITION. The commands of the application cores: loads and stores, atomics, fences, CSR accesses, cache errors
and exceptions (R529 to R567, R585 to R590, R606 to R610).
-/
namespace Sys2Proof.Machine

open Sys2Proof

/-- An address in a base register plus an offset. -/
def Core.baseAddr (c : Core) (rs1 : Nat) (imm : Int) : Nat := (c.xr rs1 + BitVec.ofInt 64 imm).toNat

/-- Bytes of an instruction. -/
def instrLen (short : Bool) : Nat := if short then 2 else 4

/-- CORE_LOAD: 2^w bytes for an x or an f register (R529, R538, R558). -/
def execCoreLoad (h : Fin 64) (w : Fin 4) (signed fp short : Bool) (rd rs1 : Fin 32) (imm : Int) (mf : MemFaults) (s : State) : Out :=
  .next <| s.coreRun h (instrLen short) fun c s =>
    if fp && (!c.fpOn || decide (w.val < 2)) then s.illegal h
    else s.coreLoad mf h (c.baseAddr rs1 imm) (2 ^ w.val) signed (b2n fp) rd 0

/-- CORE_STORE: 2^w bytes of an x or an f register (R529, R538, R558, R562). -/
def execCoreStore (h : Fin 64) (w : Fin 4) (fp short : Bool) (rs2 rs1 : Fin 32) (imm : Int) (mf : MemFaults) (s : State) : Out :=
  .next <| s.coreRun h (instrLen short) fun c s =>
    if fp && (!c.fpOn || decide (w.val < 2)) then s.illegal h
    else
      let v := if fp then c.fr rs2 else c.xr rs2
      s.coreStore mf h (c.baseAddr rs1 imm) (2 ^ w.val) [(0, leBytes (2 ^ w.val) v.toNat)]

/-! ### Atomics -/

/-- The domain atomic of an AMO, by its code (R609, R610): AMOADD, AMOSWAP, AMOAND, AMOOR, AMOXOR, AMOMAX, AMOMIN,
AMOMAXU, AMOMINU. -/
def amoCode (op : Nat) : Nat := [0, 1, 3, 4, 5, 6, 7, 8, 9].getD op 0

/-- An address for an AMO or for LR and SC: aligned and translated, or the exception that it raises (R540). -/
def State.atomicAddr (s : State) (mf : MemFaults) (h : Nat) (store : Bool) (va n : Nat) : Option Nat × State :=
  if va % n ≠ 0 then (none, s.coreFault h store va 0 .misaligned)
  else match s.translate mf h store va n with
    | (.error (f, pa), s) => (none, s.coreFault h store va pa f)
    | (.ok pa, s) => (some pa, s)

/-- The fault of an atomic in a region that does not support it. -/
def atomicRefused (pa : Nat) : XFault := if regionOf pa = .hole then .access reasonHole else .access reasonAtomic

/-- Aperture stores of core h that are not acknowledged and have not failed. -/
def State.storesOut (s : State) (h : Fin 64) : List Nat :=
  (s.net.ops.filter fun o => o.src == .core h && o.kind == .store).map (·.id)

/-- An AMO on HBM: one read-modify-write of the sector (R439, R538). -/
def State.amoLocal (s : State) (mf : MemFaults) (h va pa n op rd x : Nat) : State :=
  match s.coreRead mf h pa n with
  | (.error f, s) => s.coreFault h true va pa f
  | (.ok bs, s) => match s.storeFault mf h pa n with
    | some f => s.coreFault h true va pa f
    | none =>
      let old := leNat bs
      let (_, s) := s.coreWrite mf h pa (leBytes n (atomicFn op n old (x % 2 ^ (8 * n)) 0))
      s.modCore h fun c => (c.setX rd (extendN n true old)).nextPc

/-- An AMO on the aperture: a domain atomic, issued with rl set only after the core's earlier aperture stores (R610). -/
def State.amoDomain (s : State) (mf : MemFaults) (h : Fin 64) (va pa n op rd x : Nat) (rl : Bool) : State :=
  if !(s.coreDomainOk h rightA pa n) then s.accessFault h true va pa reasonRemote
  else
    let before := if rl then s.storesOut h else []
    let o := { s.coreOp h .atomic pa n (leBytes 8 x) [(0, n)] with
               atop := op, w64 := n == 8, after := before, ordered := before != [] }
    let s := (s.modCore h fun c => { c with wait := .amo o.id va pa n rd }).newOp o
    if before = [] then s.sendPieces mf o.id else s

/-- CORE_AMO (R538 to R540, R610). `aq` orders nothing that this model leaves unordered. -/
def execCoreAmo (h : Fin 64) (op : Fin 9) (w64 aq rl : Bool) (rd rs1 rs2 : Fin 32) (mf : MemFaults) (s : State) : Out :=
  .next <| s.coreRun h 4 fun c s =>
    let _ := aq
    let n := if w64 then 8 else 4
    let va := (c.xr rs1).toNat
    let x := (c.xr rs2).toNat
    match s.atomicAddr mf h true va n with
    | (none, s) => s
    | (some pa, s) =>
      if isAperture pa then s.amoDomain mf h va pa n (amoCode op) rd x rl
      else if isHbm pa then s.amoLocal mf h va pa n (amoCode op) rd x
      else s.coreFault h true va pa (atomicRefused pa)

/-- LR and SC are supported at an address: HBM of a COHERENT region (R538). -/
def State.lrScFault (s : State) (pa n : Nat) : Option XFault :=
  if !(isHbm pa) then some (atomicRefused pa)
  else match s.regionFault pa n with
    | some f => some f
    | none => if s.tillerRegion pa then some (.access reasonAtomic) else none

/-- CORE_LR_SC (R538, R540): LR reads and reserves; SC stores where its bytes are still reserved, says so in rd
(0 done, 1 not), and ends the reservation. -/
def execCoreLrSc (h : Fin 64) (sc w64 : Bool) (rd rs1 rs2 : Fin 32) (mf : MemFaults) (s : State) : Out :=
  .next <| s.coreRun h 4 fun c s =>
    let n := if w64 then 8 else 4
    let va := (c.xr rs1).toNat
    match s.atomicAddr mf h sc va n with
    | (none, s) => s
    | (some pa, s) => match s.lrScFault pa n with
      | some f => s.coreFault h sc va pa f
      | none =>
        if sc then
          if (s.core h).resv = some (pa, n) then
            match s.storeFault mf h pa n with
            | some f => (s.storeRefused mf h pa n).coreFault h true va pa f
            | none =>
              let (_, s) := s.coreWrite mf h pa (leBytes n (c.xr rs2).toNat)
              s.modCore h fun c => ({ c with resv := none }.setX rd 0).nextPc
          else s.modCore h fun c => ({ c with resv := none }.setX rd 1).nextPc
        else match s.coreRead mf h pa n with
          | (.error f, s) => s.coreFault h false va pa f
          | (.ok bs, s) => s.modCore h fun c => ({ c with resv := some (pa, n) }.setX rd (extendN n true (leNat bs))).nextPc

/-! ### Order and CSRs -/

/-- CORE_FENCE: with o (bit 2) in its predecessor set it waits for every earlier aperture store of the core (R542,
R564); what else it orders is ordered here already (R552, R553). -/
def execCoreFence (h : Fin 64) (pred succ : Fin 16) (s : State) : Out :=
  .next <| s.coreRun h 4 fun _ s =>
    let _ := succ
    let left := s.storesOut h
    if bitN pred.val 2 && left != [] then s.modCore h fun c => { c with wait := .fence left }
    else s.modCore h Core.nextPc

/-- CORE_CSR_ACCESS (R531 to R535, R565, R566). -/
def execCoreCsrAccess (h : Fin 64) (csr : Fin 4096) (kind : Fin 3) (imm : Bool) (rd src : Fin 32) (s : State) : Out :=
  .next (s.csrAccess h csr kind imm rd src)

/-! ### Cache errors and exceptions -/

/-- CACHE_CE: a single-bit error is corrected in place, one in a clean line refetches the line; no value that software
sees changes (R544). -/
def execCacheCe (_ : Option (Fin 64)) (s : State) : Out := .next s

/-- CACHE_UE: an uncorrectable error in a dirty line, of a COHERENT region: both sectors are poisoned, and the third
within 24 h in one core's caches retires the core (R545, R546). -/
def execCacheUe (owner : Option (Fin 64)) (addr : Nat) (s : State) : Out :=
  .next <|
    let a := alignDown 64 addr
    if !(isHbm a && s.userHbmOk a 64) || s.tillerRegion a then s
    else
      let s : State := { s with bad := natInsert (natInsert s.bad a) (a + 32), cores := s.cores.loseResv a 64 }
      let s := s.setFlag lnAc 2
      match owner with
      | none => s
      | some h =>
        let times := s.timeNs :: (s.core h).ues.filter fun u => decide (s.timeNs < u + dayNs)
        let s := s.modCore h fun c => { c with ues := times }
        if 3 ≤ times.length ∧ (s.core h).st = 0 then s.retireCore h else s

/-- MACHINE_TIMER_INTERRUPT: package time reaches `AC_MTIMECMP` of core h; its machine timer interrupt is pending from
then on, and is taken where it is enabled and the core executes (R537, R590). -/
def execMachineTimerInterrupt (h : Fin 64) (s : State) : Out :=
  .next <|
    let s : State := { s with timeNs := max s.timeNs (s.core h).mtimecmp.toNat }
    s.takeIntr h

/-- ILLEGAL_INSTRUCTION: cause 2 (R530). -/
def execIllegalInstruction (h : Fin 64) (s : State) : Out := .next <| s.coreRun h 4 fun _ s => s.illegal h

end Sys2Proof.Machine
end

