-- ==== Sys2Proof/Machine/Bounded.lean ====
section
/-!
DEFINITION. The functions that the spec gives only to within a bound in units in the last place (R248, R307, R309, R314):
an enclosure of the exact value, and the choice, left open within the bound (log entry 20), of the code delivered.
Real numbers are held as integer multiples of 2^-1280, with an error in the same unit.
-/
namespace Sys2Proof.Machine

open Sys2Proof

/-- An enclosure of a real number: a multiple of 2^-1280 and the largest error, in that unit. -/
abbrev Near := Int × Nat

def fxP : Nat := 1280
def fxOne : Int := 2 ^ fxP
def fxMul (a b : Int) : Int := a * b / fxOne
def fxDiv (a b : Int) : Int := a * fxOne / b
/-- More than the rounding errors of any series below that sums to at most 2. -/
def fxErr : Nat := 2 ^ 60

/-- A finite value as a fixed-point number; exact, since no format has a place below 2^-1074. -/
def fxOf (v : FVal) : Int :=
  match v with
  | .num n m e => scaledInt n m (e + 1280) 0
  | .inf _ => 0
  | .nan _ => 0

/-- The sum of t_k / w k for the next n terms, where t_{k+1} is t_k z / d k. -/
def fxSeries (z : Int) (d w : Nat → Int) : Nat → Nat → Int → Int
  | 0, _, _ => 0
  | n + 1, k, t => t / w k + fxSeries z d w n (k + 1) (fxMul t z / d k)

/-- The inverse hyperbolic tangent of z, for |z| at most 1/3. -/
def fxAtanh (z : Int) : Int := fxSeries (fxMul z z) (fun _ => 1) (fun k => 2 * k + 1) 420 0 z
def fxLn2 : Int := 2 * fxAtanh (fxOne / 3)

/-- The inverse tangent of 1/x in multiples of 2^-q, from its first n terms. -/
def atanInv (x : Nat) : Nat → Nat → Int → Int
  | 0, _, _ => 0
  | n + 1, k, t => t / (2 * k + 1) - atanInv x n (k + 1) (t / (x * x))

/-- π in multiples of 2^-q, for q up to 2380. -/
def piAt (q : Nat) : Int := 16 * atanInv 5 520 0 (2 ^ q / 5) - 4 * atanInv 239 520 0 (2 ^ q / 239)

/-- The square root of a fixed-point number that is not negative. -/
def fxSqrt (x : Int) : Int := (isqrt (x.toNat * 2 ^ fxP) : Nat)

/-- e^x; beyond 2000 in magnitude a power of two that every format's range excludes. -/
def expNear (x : Int) : Near :=
  if 2000 * fxOne < x then (2 ^ (fxP + 2048), 0)
  else if x < -2000 * fxOne then (0, 2)
  else
    let k := x / fxLn2
    let v := fxSeries (x - k * fxLn2) (fun k => k + 1) (fun _ => 1) 280 0 fxOne
    if 0 ≤ k then (v * 2 ^ k.toNat, fxErr * 2 ^ k.toNat) else (v / 2 ^ (-k).toNat, fxErr)

/-- The natural logarithm of a positive number. -/
def lnNear (x : Int) : Near :=
  let b := Nat.log2 x.toNat
  let m := if fxP ≤ b then x / 2 ^ (b - fxP) else x * 2 ^ (fxP - b)
  (2 * fxAtanh (fxDiv (m - fxOne) (m + fxOne)) + ((b : Int) - fxP) * fxLn2, fxErr)

/-- The sine, or the cosine. -/
def trigNear (cos : Bool) (x : Int) : Near :=
  let h := piAt 2380 / 2
  let y := (x.natAbs : Int) * 2 ^ 1100
  let k := y / h
  let r := (y - k * h) / 2 ^ 1100
  let z := -fxMul r r
  let j := (k + (if cos then 1 else 0)) % 4
  let v := if j % 2 = 0 then fxSeries z (fun k => (2 * k + 2) * (2 * k + 3)) (fun _ => 1) 160 0 r
    else fxSeries z (fun k => (2 * k + 1) * (2 * k + 2)) (fun _ => 1) 160 0 fxOne
  let v := if j < 2 then v else -v
  (if !cos && decide (x < 0) then -v else v, fxErr)

/-- A function that is odd, from its values at positive numbers. -/
def oddNear (f : Int → Near) (x : Int) : Near := if x < 0 then (-(f (-x)).1, (f (-x)).2) else f x

/-- The hyperbolic tangent. -/
def tanhNear : Int → Near := oddNear fun x =>
  if 64 * fxOne < x then (fxOne, 2 ^ (fxP - 180))
  else
    let e := (expNear (2 * x)).1
    (fxDiv (e - fxOne) (e + fxOne), fxErr)

/-- The error function. The terms of its series grow as e^(x²), and their errors with them. -/
def erfNear : Int → Near := oddNear fun x =>
  if 11 * fxOne < x then (fxOne, 2 ^ (fxP - 170))
  else
    let v := fxSeries (-fxMul x x) (fun k => k + 1) (fun k => 2 * k + 1) 940 0 x
    (fxDiv (2 * v) (fxSqrt (piAt fxP)), 2 ^ 196)

/-- 1 / (1 + e^-x). -/
def sigmoidNear (x : Int) : Near :=
  let e := (expNear (-(x.natAbs : Int))).1
  (fxDiv (if x < 0 then e else fxOne) (fxOne + e), fxErr)

/-- x times an enclosure of a number between 0 and 1. -/
def timesNear (x : Int) (y : Near) : Near := (fxMul x y.1, (x.natAbs / 2 ^ fxP + 1) * y.2 + 2)

/-- x Φ(x), with the normal distribution function. -/
def geluNear (x : Int) : Near :=
  if 15 * fxOne < x then (x, 2 ^ (fxP - 160))
  else if x < -15 * fxOne then (0, 2 ^ (fxP - 160))
  else
    let e := erfNear (fxDiv x (fxSqrt (2 * fxOne)))
    timesNear x ((fxOne + e.1) / 2, e.2)

/-- 0.5 x (1 + tanh(0.797884561 (x + 0.044715 x³))): x times the sigmoid of twice the argument. -/
def geluTanhNear (x : Int) : Near :=
  let u := 797884561 * (x + 44715 * fxMul x (fxMul x x) / 1000000) / 1000000000
  timesNear x (sigmoidNear (2 * u))

/-- ln(1 + e^x). -/
def softplusNear (x : Int) : Near :=
  let v := lnNear (fxOne + (expNear (-(x.natAbs : Int))).1)
  (if x < 0 then v.1 else x + v.1, v.2)

/-- 1 / √x of a positive value. -/
def rsqrtNear (v : FVal) : Near :=
  match v with
  | .num _ m e => ((isqrt (2 ^ (2 * fxP - e).toNat / m) : Nat), 4)
  | .inf _ => (0, 0)
  | .nan _ => (0, 0)

/-- The activations 0x3 to 0x9 (R248). -/
def actNear (code : Nat) (v : FVal) : Near :=
  let x := fxOf v
  if code = 0x3 then geluNear x
  else if code = 0x4 then geluTanhNear x
  else if code = 0x5 then timesNear x (sigmoidNear x)
  else if code = 0x6 then sigmoidNear x
  else if code = 0x7 then tanhNear x
  else if code = 0x8 then expNear x
  else softplusNear x

/-- The bound of an activation in units of the last place of the FP32 result (R248). -/
def actBound (code : Nat) : Nat := if code = 0x4 then 4 else if code = 0x3 ∨ code = 0x5 ∨ code = 0x9 then 3 else 2

/-- The bounded instructions of the vector engine, by opcode and ALT (R307). -/
def veNear (op alt : Nat) (v : FVal) : Near :=
  let x := fxOf v
  if op = 0x67 then rsqrtNear v
  else if op = 0x74 then (if alt = 0 then expNear x else expNear (fxMul x fxLn2))
  else if op = 0x75 then
    let r := lnNear x
    if alt = 0 then r else (fxDiv r.1 fxLn2, 4 * r.2)
  else if op = 0x76 then trigNear (alt == 1) x
  else if alt = 0 then tanhNear x else erfNear x

/-- A code as a signed count of steps from zero, and back; `neg` is the sign of a zero. -/
def FLayout.rank (l : FLayout) (c : Nat) : Int :=
  if 2 ^ (l.width - 1) ≤ c then -((c - 2 ^ (l.width - 1) : Nat) : Int) else c
def FLayout.ofRank (l : FLayout) (neg : Bool) (r : Int) : Nat := l.withSign (decide (r < 0) || (decide (r = 0) && neg)) r.natAbs

/-- A multiple of 2^-1280 as a value. -/
def fxVal (x : Int) : FVal := .num (decide (x < 0)) x.natAbs (-1280)

/-- The codes within `b` units in the last place of the correctly rounded result: the lowest and how many. -/
def FLayout.rangeOf (l : FLayout) (y : Near) (b : Nat) : Int × Nat :=
  let c := (l.rnd .rne (fxVal y.1)).1 % 2 ^ (l.width - 1)
  let field := max 1 (min c l.maxCode / 2 ^ (l.p - 1))
  let w : Int := (b * 2 ^ (l.lmin + field - 1 + 1280).toNat + y.2 : Nat)
  let lo := l.rank (l.rnd .rup (fxVal (y.1 - w))).1
  let hi := if l.maxCode < c then (l.maxCode + 1 : Int) else l.rank (l.rnd .rdn (fxVal (y.1 + w))).1
  (lo, (hi - lo).toNat + 1)

/-- The code delivered for an exact value y: any within the bound, by the open value `free`. -/
def FLayout.within (l : FLayout) (y : Near) (b : Nat) (neg : Bool) (free : Nat) : Nat :=
  l.ofRank neg ((l.rangeOf y b).1 + (free % (l.rangeOf y b).2 : Nat))

/-- The exact value lies above the largest finite value of a layout. -/
def FLayout.exceeds (l : FLayout) (y : Near) : Bool := decide (fxOf (l.decode l.maxCode) < y.1.natAbs - y.2)

/-- What a bounded instruction gives for a number that is not in *Special inputs*: a code within the bound, with the flags
of R315. `zero` says that the exact result is zero. -/
def boundedRes (l : FLayout) (y : Near) (b : Nat) (neg zero ovf : Bool) (free : Nat) : Nat × FFlags :=
  let code := l.within y b neg free
  let mag := code % 2 ^ (l.width - 1)
  (code, { FFlags.none with nx := true, uf := decide (mag < 2 ^ (l.p - 1)) && !(mag == 0 && zero), of := ovf })

end Sys2Proof.Machine
end

