-- ==== Sys2Proof/Machine/Epilogue.lean ====
section
/-!
DEFINITION. The fused stages of an array: the prologue and epilogue settings, the epilogue, and the chained-product
fold (spec/05_fused_stages.md).
-/
namespace Sys2Proof.Machine

open Sys2Proof

/-! ### Settings (R211 to R216, R239) -/

/-- Read the 64-byte descriptor of a setting entry at issue: its words, with the checks of its address. -/
def State.readDesc (s : State) (mf : MemFaults) (t off : Nat) : List W64 × List Check × State :=
  if off % 64 ≠ 0 then (zeroWords8, [some (F_ALIGN, off)], s)
  else if !(s.spmRangeOk t off 64) then (zeroWords8, [some (F_BOUNDS, off)], s)
  else match s.load mf (spmBase t + off) 64 with
    | (.error g, s) => (zeroWords8, [some (F_SPM_ECC, g - spmBase t)], s)
    | (.ok bs, s) => ((chunksOf 8 8 bs).map (BitVec.ofNat 64), [], s)

def msetRsvd (m : FmtM) : Bool :=
  anySet [m.tout, m.srcArr, m.t, m.s, m.first, m.swap, m.acc, m.rowb, m.bank2, m.bank, m.nc, m.m, m.fmt, m.rb, m.rc, m.rd]

/-- MSETP: loads the prologue descriptor of a path. -/
def execMsetp (t a : Fin 4) (mf : MemFaults) (s : State) : Out :=
  .next <| s.takeArr t a 0x45 msetRsvd
    (fun s e m _ =>
      let (d, cs, s) := s.readDesc mf t (gaddr e.g m.ra)
      (cs ++ [failIf (pRsvd d) F_RSVD 0, failIf (pLeaves d) F_BOUNDS (pBase d false)], d, s))
    (fun s _ m _ d =>
      (s.modArr t a fun x => if m.path = 1 then { x with prologueB := d } else { x with prologueA := d }).arrBoundary t a)

/-! Fields of the epilogue descriptor (R239). -/
def eGateOp (d : List W64) : Bool := bitN (dw d 0) 39
def eBiasFmt (d : List W64) : Bool := bitN (dw d 0) 38
def eGateFmt (d : List W64) : Bool := bitN (dw d 0) 37
def eGateBank (d : List W64) : Nat := field (dw d 0) 36 35
def eGateSrc (d : List W64) : Nat := field (dw d 0) 34 33
def eBiasMode (d : List W64) : Nat := field (dw d 0) 32 31
def eScaleMode (d : List W64) : Nat := field (dw d 0) 30 29
def eRowFn (d : List W64) : Nat := field (dw d 0) 28 25
def eAct (d : List W64) : Nat := field (dw d 0) 24 21
def eView (d : List W64) : Nat := field (dw d 0) 20 13
def eColumn (d : List W64) : Bool := bitN (dw d 0) 12
def eKind (d : List W64) : Nat := field (dw d 0) 11 10
def eConv (d : List W64) : Nat := field (dw d 0) 7 4
def eOutFmt (d : List W64) : Nat := field (dw d 0) 3 0
def eP0 (d : List W64) : Nat := field (dw d 1) 63 32
def eAlpha (d : List W64) : Nat := field (dw d 1) 31 0
def eP1 (d : List W64) : Nat := field (dw d 2) 31 0
def eBiasVec (d : List W64) : Nat := field (dw d 3) 58 32
def eScaleVec (d : List W64) : Nat := field (dw d 3) 26 0
def eGateStride (d : List W64) : Nat := field (dw d 4) 63 32
def eGateBase (d : List W64) : Nat := field (dw d 4) 26 0
def eRegion (d : List W64) : Nat := field (dw d 5) 47 0
def eLimit (d : List W64) : Nat := field (dw d 6) 39 0
def eRowState (d : List W64) : Nat := field (dw d 7) 26 0

/-- Its reserved fields and values, and a clamp that R249 refuses. -/
def eRsvd (d : List W64) : Bool :=
  field (dw d 0) 63 40 != 0 || field (dw d 0) 9 8 != 0 || eGateSrc d == 3 || eBiasMode d == 3 || decide (5 ≤ eRowFn d) ||
  decide (0xC ≤ eAct d) || eKind d == 3 || decide (4 ≤ eConv d) || (Fmt.ofCode (eOutFmt d)).isNone || field (dw d 2) 63 32 != 0 ||
  field (dw d 3) 63 59 != 0 || field (dw d 3) 31 27 != 0 || field (dw d 4) 31 27 != 0 || field (dw d 5) 63 48 != 0 ||
  field (dw d 6) 63 40 != 0 || field (dw d 7) 63 27 != 0 ||
  (eAct d == 0xA && ((fp32.decode (eP0 d)).isNan || (fp32.decode (eP1 d)).isNan || FVal.lt (fp32.decode (eP1 d)) (fp32.decode (eP0 d))))

/-- MSETE: loads the epilogue descriptor. -/
def execMsete (t a : Fin 4) (mf : MemFaults) (s : State) : Out :=
  .next <| s.takeArr t a 0x46 (fun m => msetRsvd m || m.path != 0)
    (fun s e m _ =>
      let (d, cs, s) := s.readDesc mf t (gaddr e.g m.ra)
      (cs ++ [failIf (eRsvd d) F_RSVD 0], d, s))
    (fun s _ _ _ d => (s.modArr t a fun x => { x with epilogue := d }).arrBoundary t a)

/-! ### The stages (R242 to R249) -/

/-- A code with the flags that its computation has raised so far. -/
abbrev FRes := Nat × FFlags

def fthen (r : FRes) (f : Nat → FRes) : FRes := ((f r.1).1, r.2.or (f r.1).2)

/-- The code of a bounded activation at a finite FP32 code: any within the bound (R248). -/
def actFn (code x mcode : Nat) : Nat :=
  fp32.within (actNear code (fp32.decode x)) (actBound code) (fp32.decode x).sign (Config.boundedFn (0x100 + code) 1 x mcode)

/-- e^v (R248). -/
def expC (mcode x : Nat) : FRes :=
  match fp32.decode x with
  | .nan sg => (fp32.nanCode, { FFlags.none with nv := sg })
  | .inf n => (if n then 0 else 0x7F800000, FFlags.none)
  | .num n _ _ => if !n && decide (0x42B17218 ≤ x) then (0x7F800000, { FFlags.none with of := true }) else (actFn 0x8 x mcode, FFlags.none)

/-- The value of an activation at +Inf and at −Inf. -/
def actInf (code : Nat) (neg : Bool) : Nat :=
  if code = 0x6 then (if neg then 0 else 0x3F800000)
  else if code = 0x7 then (if neg then 0xBF800000 else 0x3F800000)
  else if !neg then 0x7F800000
  else if code = 0x3 ∨ code = 0x4 ∨ code = 0x5 then 0x80000000
  else 0

/-- The activations (R248). -/
def actC (d : List W64) (mcode x : Nat) : FRes :=
  let v := fp32.decode x
  let code := eAct d
  if code = 0 then (x, FFlags.none)
  else match v with
    | .nan sg => (fp32.nanCode, { FFlags.none with nv := sg })
    | _ =>
      if code = 0x1 then (if FVal.lt (.num false 0 0) v then x else 0, FFlags.none)
      else if code = 0x2 then (if FVal.lt v (.num false 0 0) then fp32.mulC .rne (eP0 d) x else (x, FFlags.none))
      else if code = 0x8 then expC mcode x
      else if code = 0xA then ((fp32.maxMin false (fp32.maxMin true x (eP0 d)).1 (eP1 d)).1, FFlags.none)
      else if code = 0xB then fp32.mulC .rne x x
      else match v with
        | .inf n => (actInf code n, FFlags.none)
        | _ => (actFn code x mcode, FFlags.none)

/-- The inputs that one row of an epilogue reads: its input words, l(m), the scale and bias of each column, the gate. -/
structure EpiRow where
  words : List Nat
  state : Nat × Nat
  scale : List Nat
  bias : List Nat
  gate : List Nat

/-- BF16 or FP32 code as an FP32 code. -/
def widen (isBf : Bool) (x : Nat) : Nat := if isBf then x * 65536 else x

/-- Stages 1 to 5 of one element. -/
def stageElem (d : List W64) (inInt : Bool) (mcode : Nat) (r : EpiRow) (c : Nat) : FRes :=
  let w := r.words.getD c 0
  let v0 : FRes := if inInt then ((fp32.rnd .rne (FVal.ofInt (toSigned 32 w) 0)).1, FFlags.none) else (w, FFlags.none)
  let v1 := if eRowFn d = 4 then fthen v0 fun x => fp32.divC .rne x r.state.2 else v0
  let v2 := if eScaleMode d = 0 ∧ eBiasMode d = 0 then v1
    else fthen v1 fun x => fp32.fmaC .rne x (if eScaleMode d = 0 then 0x3F800000 else r.scale.getD c 0) (if eBiasMode d = 0 then 0 else r.bias.getD c 0)
  let v3 := fthen v2 (actC d mcode)
  if eGateSrc d = 0 then v3
  else fthen v3 fun x => if eGateOp d then fp32.addC .rne x (r.gate.getD c 0) else fp32.mulC .rne x (r.gate.getD c 0)

/-- The largest of a row's values under R94. -/
def rowMax : List Nat → FRes
  | [] => (0xFF800000, FFlags.none)
  | x :: xs => xs.foldl (fun (acc : FRes) y => fthen acc fun m => fp32.maxMin true m y)
      (if (fp32.decode x).isNan then fp32.nanCode else x, { FFlags.none with nv := (fp32.decode x).isSig })

/-- The exact sum of values, rounded once. -/
def sumRound (l : FLayout) (vs : List FVal) : FRes :=
  match vs with
  | [] => (0, FFlags.none)
  | v :: rest => l.rnd .rne (rest.foldl (FVal.add .rne) v)

/-- The first part of SMAX_STEP on a row's values (R265): the weights, the new maximum and the factor. -/
def smaxRow (mcode : Nat) (mu : Nat) (vs : List Nat) : List FRes × Nat × FRes :=
  let t := rowMax vs
  let m := fp32.maxMin true mu t.1
  let base := t.2.or m.2
  if m.1 = 0xFF800000 ∨ (fp32.decode m.1).isNan then (vs.map fun _ => (0, FFlags.none), m.1, (0x3F800000, base))
  else
    let f := fthen (fp32.subC .rne mu m.1) (expC mcode)
    (vs.map fun v => fthen (fp32.subC .rne v m.1) (expC mcode), m.1, (f.1, f.2.or base))

/-! ### The destination -/

/-- The epilogue's element bits: 6-bit elements only in MX blocks. -/
def outFmt (d : List W64) : Fmt := (Fmt.ofCode (eOutFmt d)).getD .fp32

/-- Lines of the output: rows, or columns in column layout; and the elements of one. -/
def lineCount (d : List W64) (m nc : Nat) : Nat := if eColumn d then nc else m
def lineLen (d : List W64) (m nc : Nat) : Nat := if eColumn d then m else nc

/-- The ranges of the output: the elements and the scales of each line. -/
def outRanges (d : List W64) (o : Source) (m nc : Nat) : List ((Int × Nat) × (Int × Nat)) :=
  let f := outFmt d
  (List.range (lineCount d m nc)).map fun i => ((o.at false i, rowBytes f (lineLen d m nc)), (o.at true i, rowScales f (lineLen d m nc)))

/-- Check one range of the output (R237, R409, R493, R512, R514). -/
def State.destCheck (s : State) (t p : Nat) (d : List W64) (off : Int) (n : Nat) : Check :=
  if n = 0 then none
  else if off < 0 then some (F_BOUNDS, (off % 2 ^ 64).toNat)
  else
    let o := off.toNat
    let a := eRegion d + o
    if eKind d = 0 then failIf (!(s.spmRangeOk t o n)) F_BOUNDS o
    else if eKind d = 1 then failIf (decide (eLimit d < o + n) || !(s.inPartHbm p a n)) F_BOUNDS a
    else
      let vd := s.view (eView d)
      failIf (decide (eLimit d < o + n) || !(viewOn vd && viewOwner vd == p && (vInTarget vd a n || ((vTgt vd).isMx && vInScale vd a n)))) F_BOUNDS
        (viewBase + eView d * 2 ^ 32 + a)

/-- Where the output of an MX view begins: its first row and first element, where the addresses lie at the positions
of the window layout (R513). With blocks along the rows, element (m, c) goes to row r0 + m, element i0 + c, in
either layout (DEDUCED, log entry 18). -/
def viewOrigin (d vd : List W64) (o : Source) (m nc : Nat) : Option (Nat × Nat) :=
  let w := (vTgt vd).bits
  let base := eRegion d + o.base
  let sc := eRegion d + o.sbase
  let r0 := base / vTstride vd
  let b := base % vTstride vd
  let lines := if vAxis vd then (decide (m ≤ 1) || o.stride == vTstride vd) && (decide (m ≤ 32) || o.sstride == vSstride vd)
    else decide (m ≤ 1) || (o.stride == vTstride vd && o.sstride == vSstride vd)
  if vTstride vd = 0 ∨ vSstride vd = 0 ∨ !lines then none
  else if vAxis vd then
    if r0 % 32 = 0 ∧ 8 * b % w = 0 ∧ sc = 0xC0000000 + r0 / 32 * vSstride vd + 8 * b / w ∧ r0 + m ≤ vRows vd ∧ b + (nc * w + 7) / 8 ≤ vTstride vd then
      some (r0, 8 * b / w)
    else none
  else if b % (4 * w) = 0 ∧ sc = 0xC0000000 + r0 * vSstride vd + b / (4 * w) then some (r0, b / (4 * w) * 32)
  else none

/-- The checks of a view destination (R513, R514). -/
def State.viewDestChecks (s : State) (d : List W64) (o : Source) (m nc : Nat) : List Check :=
  if eKind d ≠ 2 then []
  else
    let vd := s.view (eView d)
    let w := (vTgt vd).bits / 8
    [failIf (vTgtCode vd != eOutFmt d || (eColumn d != vAxis vd) || ((vTgt vd).isMx && (viewOrigin d vd o m nc).isNone)) F_VIEW_FMT (eView d),
     failIf (!(vTgt vd).isMx && (decide ((eRegion d + o.base) % w ≠ 0) || decide (o.stride % w ≠ 0))) F_ALIGN o.base]

/-- The checks of the output's ranges. Those of a view with blocks along the rows are the rows of its region. -/
def State.outChecks (s : State) (t p : Nat) (d : List W64) (o : Source) (m nc : Nat) : List Check :=
  if eKind d = 2 ∧ vAxis (s.view (eView d)) then
    let vd := s.view (eView d)
    ((List.range m).map fun (i : Nat) => s.destCheck t p d (o.base + i * vTstride vd) ((nc * (vTgt vd).bits + 7) / 8)) ++
    ((List.range ((m + 31) / 32)).map fun (j : Nat) => s.destCheck t p d (o.sbase + j * vSstride vd) nc)
  else (outRanges d o m nc).flatMap fun r => [s.destCheck t p d r.1.1 r.1.2, s.destCheck t p d r.2.1 r.2.2]

/-! ### MEPI -/

/-- A scratchpad range that an epilogue reads or updates besides its output: offset and length (R258). -/
def sideRanges (x : Arr) (m nc : Nat) : List (Nat × Nat) :=
  let d := x.epilogue
  let bw := if eBiasFmt d then 2 else 4
  let gw := if eGateFmt d then 2 else 4
  (if eScaleMode d = 2 then [(eScaleVec d, 4 * nc)] else if eScaleMode d = 3 then [(eScaleVec d, 4 * m)] else []) ++
  (if eBiasMode d = 1 then [(eBiasVec d, bw * nc)] else if eBiasMode d = 2 then [(eBiasVec d, bw * m)] else []) ++
  (if eGateSrc d = 2 then (List.range m).map fun i => (eGateBase d + i * eGateStride d, gw * nc) else []) ++
  (if eRowFn d = 1 ∨ eRowFn d = 2 then [(eRowState d, 4 * m)] else if eRowFn d = 3 ∨ eRowFn d = 4 then [(eRowState d, 16 * m)] else [])

/-- The index lists of an array's paths: 4,096 entries of the A path, 512 of the B path. -/
def idxRanges (x : Arr) : List (Nat × Nat) :=
  (if pMode x.prologueA = 2 then [(pIdxBase x.prologueA, 16384)] else []) ++ (if pMode x.prologueB = 2 then [(pIdxBase x.prologueB, 2048)] else [])

def mepiRsvd (m : FmtM) : Bool :=
  anySet [m.tout, m.srcArr, m.t, m.s, m.path, m.first, m.swap, m.acc, m.bank2] || !(m.fmt == 0x1 || m.fmt == 0xB || m.fmt == 0x0)

/-- The settings that an input type does not take (R244, R245, R264). -/
def epiRsvd (d : List W64) (inFmt : Nat) : Bool :=
  let stages := eScaleMode d != 0 || eBiasMode d != 0 || eAct d != 0 || eGateSrc d != 0 || eRowFn d != 0
  (inFmt == 0 && stages) || (eRowFn d == 3 && eAct d != 0) || (convControl (outFmt d) (eConv d)).isNone ||
  (match outFmt d with
   | .fp64 => inFmt != 0
   | .int32 => inFmt != 0xB || stages
   | .int8 => true
   | _ => false)

/-- Read a number, or the code of the error that returned no data. -/
def State.readLe (s : State) (mf : MemFaults) (key n : Nat) : (Except Nat Nat) × State :=
  match s.load mf key n with
  | (.ok bs, s) => (.ok (leNat bs), s)
  | (.error g, s) => (.error (eccCode g), s)

/-- Read `count` numbers of n bytes where `c` holds. -/
def State.readIf (s : State) (mf : MemFaults) (c : Bool) (key n count : Nat) : (Except Nat (List Nat)) × State :=
  if !c then (.ok [], s)
  else match s.load mf key (n * count) with
    | (.ok bs, s) => (.ok (chunksOf n count bs), s)
    | (.error g, s) => (.error (eccCode g), s)

/-- What row i of an MEPI reads, with the per-column vectors already read. -/
def State.epiRead (s : State) (mf : MemFaults) (t a : Nat) (d : List W64) (m : FmtM) (cols : List Nat × List Nat) (i : Nat) :
    (Except Nat EpiRow) × State :=
  let sp := spmBase t
  let bw := if eBiasFmt d then 2 else 4
  let gw := if eGateFmt d then 2 else 4
  match (if m.fmt = 0 then s.acmRead mf (acmDouble t a m.bank (m.rowb + i) 0) 8 m.nc else s.acmRead mf (acmWord t a m.bank (m.rowb + i) 0) 4 m.nc) with
  | (none, s) => (.error F_ACM_ECC, s)
  | (some words, s) =>
  match s.readIf mf (eRowFn d == 3 || eRowFn d == 4) (sp + eRowState d + 16 * i) 4 2 with
  | (.error c, s) => (.error c, s)
  | (.ok st, s) =>
  match s.readIf mf (eScaleMode d == 3) (sp + eScaleVec d + 4 * i) 4 1 with
  | (.error c, s) => (.error c, s)
  | (.ok sv, s) =>
  match s.readIf mf (eBiasMode d == 2) (sp + eBiasVec d + bw * i) bw 1 with
  | (.error c, s) => (.error c, s)
  | (.ok bv, s) =>
  match (if eGateSrc d = 1 then (match s.acmRead mf (acmWord t a (eGateBank d) (m.rowb + i) 0) 4 m.nc with
      | (none, s) => (.error F_ACM_ECC, s)
      | (some g, s) => (.ok g, s))
    else s.readIf mf (eGateSrc d == 2) (sp + eGateBase d + i * eGateStride d) gw m.nc) with
  | (.error c, s) => (.error c, s)
  | (.ok g, s) =>
    let bf := fun (x : Nat) => widen (eBiasFmt d) x
    let scale := if eScaleMode d = 1 then List.replicate m.nc (eAlpha d) else if eScaleMode d = 3 then List.replicate m.nc (sv.headD 0) else cols.1
    let bias := if eBiasMode d = 2 then List.replicate m.nc (bf (bv.headD 0)) else cols.2.map bf
    (.ok ⟨words, (st.getD 0 0, st.getD 1 0), scale, bias, if eGateSrc d = 2 then g.map (widen (eGateFmt d)) else g⟩, s)

/-- A row after stages 1 to 5, with its words as they were read where no stage acts on them: its values, the row's
maximum and factor for SMAX_STEP, its prior sum, and its flags. -/
structure EpiOut where
  vals : List Nat
  mu : Nat
  f : Nat
  l : Nat
  rowVal : Nat
  flags : FFlags

/-- Stages 1 to 6 of a row. -/
def epiStages (d : List W64) (inFmt mcode nc : Nat) (r : EpiRow) : EpiOut :=
  if inFmt = 0 ∨ outFmt d = .int32 then ⟨r.words, 0, 0, 0, 0, FFlags.none⟩
  else
    let v := (List.range nc).map (stageElem d (inFmt == 0xB) mcode r)
    let vals := v.map (·.1)
    let fl := orFlags v
    if eRowFn d = 1 then let x := rowMax vals; ⟨vals, 0, 0, 0, x.1, fl.or x.2⟩
    else if eRowFn d = 2 then let x := sumRound fp32 (vals.map fp32.decode); ⟨vals, 0, 0, 0, x.1, fl.or x.2⟩
    else if eRowFn d = 3 then
      let (ps, mu, f) := smaxRow mcode r.state.1 vals
      ⟨ps.map (·.1), mu, f.1, r.state.2, 0, (fl.or f.2).or (orFlags ps)⟩
    else ⟨vals, 0, 0, 0, 0, fl⟩

/-- Read and compute rows in order until one fails. -/
def State.epiRows (mf : MemFaults) (t a : Nat) (d : List W64) (m : FmtM) (cols : List Nat × List Nat) : Nat → Nat → State →
    List EpiOut × Option Nat × State
  | 0, _, s => ([], none, s)
  | n + 1, i, s => match s.epiRead mf t a d m cols i with
    | (.error c, s) => ([], some c, s)
    | (.ok r, s) =>
      let x := epiStages d m.fmt (s.arr t a).mcode m.nc r
      let rest := State.epiRows mf t a d m cols n (i + 1) s
      (x :: rest.1, rest.2.1, rest.2.2)

/-- One line of output: codes of whole blocks or elements, scale codes, flags (R242, R252). -/
structure EpiLine where
  codes : List Nat
  scales : List Nat
  flags : FFlags

/-- Blocks of 32 of a list. -/
def blocksOf (l : List FVal) : Nat → List (List FVal)
  | 0 => []
  | n + 1 => l.take 32 :: blocksOf (l.drop 32) n

/-- Convert a line (stage 7, R244, R245, R252). -/
def convLine (d : List W64) (inFmt : Nat) (line : List Nat) : EpiLine :=
  let f := outFmt d
  let (rm, rule) := (convControl f (eConv d)).getD (.rne, .ieee)
  let same := (inFmt == 0 && f == .fp64) || (inFmt != 0 && f == .fp32) || f == .int32
  if same then ⟨line, [], FFlags.none⟩
  else
    let vals := line.map (if inFmt = 0 then fp64.decode else fp32.decode)
    if f.isMx then
      let bs := (blocksOf vals ((vals.length + 31) / 32)).map fun b => (b.length, mxEncode f rm rule b)
      ⟨bs.flatMap fun b => b.2.2.1 ++ List.replicate (32 - b.1) 0, bs.map fun b => b.2.1, bs.foldl (fun x b => x.or b.2.2.2) FFlags.none⟩
    else
      let rs := vals.map (convPlain f rm rule)
      ⟨rs.map (·.1), [], orFlags rs⟩

/-- Element codes packed (R74). -/
def packBits (w : Nat) (codes : List Nat) : List Byte :=
  leBytes (codes.length * w / 8) ((codes.zipIdx.map fun x => x.1 * 2 ^ (w * x.2)).sum)

/-- The address of an offset of the destination (R239). -/
def destAddr (t : Nat) (d : List W64) (off : Int) : Nat := if eKind d = 0 then spmBase t + off.toNat else eRegion d + off.toNat

/-- The blocks of an MX view that line i of an output at origin `at_` writes (R490, R513). -/
def lineUnits (vd : List W64) (at_ : Nat × Nat) (i n : Nat) : List VUnit :=
  (List.range n).map fun j => if vAxis vd then (at_.1 / 32 + j, at_.2 + i) else (at_.1 + i, at_.2 / 32 + j)

/-- Write line i: the code of the error that stops it, if any. -/
def State.writeLine (s : State) (mf : MemFaults) (t p : Nat) (d : List W64) (o : Source) (m nc i : Nat) (l : EpiLine) : Option Nat × State :=
  let f := outFmt d
  if eKind d = 2 then
    let v := eView d
    let vd := s.view v
    if f.isMx then
      match viewOrigin d vd o m nc with
      | none => (some F_VIEW_FMT, s)
      | some at_ => (lineUnits vd at_ i l.scales.length).zipIdx.foldl (fun (acc : Option Nat × State) u => match acc with
          | (some c, s) => (some c, s)
          | (none, s) =>
            let r := s.viewWriteBlock mf v u.1 (l.scales.getD u.2 0) ((l.codes.drop (32 * u.2)).take 32)
            (r.1.map eccCode, r.2)) (none, s)
    else
      let r := s.viewWrite mf v (eRegion d + (o.at false i).toNat) (packBits f.bits l.codes)
      (r.1.map eccCode, r.2.2)
  else
    let r := s.localWrite mf t p (destAddr t d (o.at false i)) (packBits f.bits l.codes)
    match r.1 with
    | some c => (some c, r.2.2)
    | none =>
      let q := r.2.2.localWrite mf t p (destAddr t d (o.at true i)) (l.scales.map (BitVec.ofNat 8))
      (q.1, q.2.2)

/-- Write lines in order: how many were written, and the code that stopped them. -/
def State.writeLines (mf : MemFaults) (t p : Nat) (d : List W64) (o : Source) (m nc : Nat) : List EpiLine → Nat → State → Nat × Option Nat × State
  | [], i, s => (i, none, s)
  | l :: rest, i, s => match s.writeLine mf t p d o m nc i l with
    | (some c, s) => (i, some c, s)
    | (none, s) => State.writeLines mf t p d o m nc rest (i + 1) s

/-- Charge the blocks of an MX view that an epilogue wrote with these lines (R523). -/
def State.chargeLines (s : State) (d : List W64) (o : Source) (m nc : Nat) (lines : List EpiLine) : State :=
  let vd := s.view (eView d)
  if eKind d = 2 ∧ (outFmt d).isMx then
    match viewOrigin d vd o m nc with
    | some at_ => s.viewWriteCharge (eView d) ((lines.zipIdx.flatMap fun l => lineUnits vd at_ l.2 l.1.scales.length).flatMap fun u => (vElems vd u).filterMap id)
    | none => s
  else s

/-- Write what a row function leaves for row i (R261, R265). `q` are the values written of the row. -/
def State.rowState (s : State) (t a : Nat) (d : List W64) (i : Nat) (x : EpiOut) (q : List FVal) : State :=
  let rs := spmBase t + eRowState d
  if eRowFn d = 1 ∨ eRowFn d = 2 then s.poke (rs + 4 * i) (leBytes 4 x.rowVal)
  else if eRowFn d = 3 then
    let r := sumRound fp32 q
    let l := fp32.fmaC .rne x.l x.f r.1
    (s.poke (rs + 16 * i) ([x.mu, l.1, x.f, 0].flatMap (leBytes 4))).arrFlags t a (r.2.or l.2)
  else s

/-- The lines of a row-layout or column-layout output. -/
def epiLines (d : List W64) (inFmt nc : Nat) (rows : List EpiOut) : List EpiLine :=
  if eColumn d then (List.range nc).map fun c => convLine d inFmt (rows.map fun r => r.vals.getD c 0)
  else rows.map fun r => convLine d inFmt r.vals

/-- The value written of element (i, c). -/
def writtenVal (d : List W64) (lines : List EpiLine) (i c : Nat) : FVal :=
  let (a, b) := if eColumn d then (c, i) else (i, c)
  let l := lines.getD a ⟨[], [], FFlags.none⟩
  (outFmt d).value (l.scales.getD (b / 32) 0x7F) (l.codes.getD b 0)

/-- The first of n rows whose value for the row state cannot be written, if any (R1113). -/
def State.rowStateFail (s : State) (mf : MemFaults) (t : Nat) (d : List W64) (n : Nat) : Option Nat × State :=
  let at_ := fun (i : Nat) => spmBase t + eRowState d + 4 * i
  match (if eRowFn d = 1 ∨ eRowFn d = 2 then (List.range n).find? fun i => (s.writeErr mf (at_ i) 4).isSome else none) with
  | some i => (some i, (s.mergeErr mf (at_ i) 4).2)
  | none => (none, s)

/-- The checks of an MEPI at issue, beside those of every array operation (R235, R239 to R241, R250 to R253, R260). -/
def State.mepiChecks (s : State) (t a p : Nat) (m : FmtM) (d : List W64) (o : Source) : List Check :=
  let x := s.arr t a
  let (maxM, top) := if m.fmt = 0 then (512, 512) else (1024, 1024)
  let counts := [failIf (decide (maxM < m.m)) F_BOUNDS m.m, failIf (decide (512 < m.nc)) F_BOUNDS m.nc, failIf (decide (top < m.rowb + m.m)) F_BOUNDS (m.rowb + m.m),
    failIf (epiRsvd d m.fmt) F_RSVD 0]
  let aligns := [
    failIf (decide (((if eKind d = 0 then 0 else eRegion d) + o.base) % 32 ≠ 0) || decide (o.stride % 32 ≠ 0)) F_ALIGN o.base,
    failIf (eGateSrc d == 2 && eGateBase d % 32 != 0) F_ALIGN (eGateBase d),
    failIf (eRowFn d != 0 && eRowState d % 16 != 0) F_ALIGN (eRowState d)]
  if m.m = 0 ∨ m.nc = 0 ∨ epiRsvd d m.fmt then counts
  else if maxM < m.m ∨ 512 < m.nc then counts ++ aligns
  else
    let outs := (outRanges d o m.m m.nc).flatMap fun r => [r.1, r.2]
    let sides := sideRanges x m.m m.nc
    counts ++ aligns ++
      (sides.map fun r => failIf (!(s.spmRangeOk t r.1 r.2)) F_BOUNDS r.1) ++
      s.outChecks t p d o m.m m.nc ++ s.viewDestChecks d o m.m m.nc ++
      [match (if eKind d = 0 then outs.find? fun r => (sides ++ idxRanges x).any fun q => rangesMeet r.1.toNat r.2 q.1 q.2 else none) with
        | some r => some (F_OVERLAP, r.1.toNat)
        | none => none]

/-- MEPI (R235 to R260). Rows before one that fails are written. -/
def execMepi (t a : Fin 4) (mf : MemFaults) (s : State) : Out :=
  .next <| s.takeArr t a 0x47 mepiRsvd
    (fun s e m p =>
      let d := (s.arr t a).epilogue
      let o := sourceOf d (outFmt d) e
      (s.mepiChecks t a p m d o, (d, o), s))
    (fun s e m p (d, o) =>
      if m.m = 0 ∨ m.nc = 0 then s.arrBoundary t a
      else
        let bw := if eBiasFmt d then 2 else 4
        match s.readIf mf (eScaleMode d == 2) (spmBase t + eScaleVec d) 4 m.nc with
        | (.error c, s) => s.failArr t a e c 0 m.rowb
        | (.ok sv, s) => match s.readIf mf (eBiasMode d == 1) (spmBase t + eBiasVec d) bw m.nc with
          | (.error c, s) => s.failArr t a e c 0 m.rowb
          | (.ok bv, s) =>
            let (rows, err, s) := State.epiRows mf t a d m (sv, bv) m.m 0 s
            let (stop, s) := s.rowStateFail mf t d rows.length
            let (rows, err) := match stop with
              | some i => (rows.take i, some F_SPM_ECC)
              | none => (rows, err)
            let lines := epiLines d m.fmt m.nc rows
            let s := s.arrFlags t a ((rows.foldl (fun x r => x.or r.flags) FFlags.none).or (lines.foldl (fun x l => x.or l.flags) FFlags.none))
            let (n, werr, s) := if rows = [] then (0, none, s) else State.writeLines mf t p d o m.m m.nc lines 0 s
            let s := s.chargeLines d o m.m m.nc (lines.take n)
            let doneRows := if werr.isNone then rows.length else if eColumn d then 0 else n
            let s := ((rows.take doneRows).zipIdx).foldl (fun s r => s.rowState t a d r.2 r.1 ((List.range m.nc).map (writtenVal d lines r.2))) s
            match werr.or err with
            | some c => s.failArr t a e c doneRows (m.rowb + doneRows)
            | none => s.arrBoundary t a)

/-! ### MCHN (R267 to R270) -/

def mchnRsvd (m : FmtM) : Bool :=
  anySet [m.tout, m.srcArr, m.t, m.s, m.path, m.swap, m.acc, m.fmt, m.rb, m.rc, m.rd]

/-- MCHN: O := O · f + X, or O := X for the first of a chain. -/
def execMchn (t a : Fin 4) (mf : MemFaults) (s : State) : Out :=
  .next <| s.takeArr t a 0x48 mchnRsvd
    (fun s e m _ =>
      let rs := gaddr e.g m.ra
      ([failIf (decide (1024 < m.m)) F_BOUNDS m.m, failIf (decide (512 < m.nc)) F_BOUNDS m.nc, failIf (decide (1024 < m.rowb + m.m)) F_BOUNDS (m.rowb + m.m),
        failIf (m.nc != 0 && !(s.spmRangeOk t rs (16 * m.m))) F_BOUNDS rs], (), s))
    (fun s e m _ _ =>
      State.runRows t a e m.rowb (fun s i =>
        match s.readIf mf (m.first != 1) (spmBase t + gaddr e.g m.ra + 16 * i + 8) 4 1 with
        | (.error c, s) => (.error c, s)
        | (.ok f, s) => match s.acmRead mf (acmWord t a m.bank2 (m.rowb + i) 0) 4 m.nc with
          | (none, s) => (.error F_ACM_ECC, s)
          | (some x, s) => match (if m.first = 1 then (some x, s) else s.acmRead mf (acmWord t a m.bank (m.rowb + i) 0) 4 m.nc) with
            | (none, s) => (.error F_ACM_ECC, s)
            | (some y, s) =>
              let r : List FRes := if m.first = 1 then x.map fun v => (v, FFlags.none) else List.zipWith (fun u v => fp32.fmaC .rne u (f.headD 0) v) y x
              (.ok ((s.acmWrite (acmWord t a m.bank (m.rowb + i) 0) 4 (r.map (·.1))).arrFlags t a (orFlags r)), s)) (if m.nc = 0 then 0 else m.m) 0 s)

end Sys2Proof.Machine
end

