-- ==== Sys2Proof/Machine/Husk.lean ====
section
/-!
DEFINITION. Husk snapshots (R843 to R884): the point, the drain and its manifest, rollback and restore, and
the commands that are their events.
-/
namespace Sys2Proof.Machine

open Sys2Proof

/-! ### Configuration -/

/-- The shards of a configuration (R863): each region cut at multiples of the shard size from its BASE. -/
def HuskCfg.shardList (c : HuskCfg) : List Shard :=
  let sz := 2 ^ c.shardLog2
  c.regions.zipIdx.flatMap fun r => (List.range ((r.1.2 + sz - 1) / sz)).map fun j =>
    ⟨r.1.1 + j * sz, min sz (r.1.2 - j * sz), r.2, [], 0, false⟩

/-- The Tiller that drains shard i (R865). -/
def State.shardTiller (s : State) (i : Nat) : Nat :=
  (((List.range 4).map fun d => (i + d) % 4).find? fun t => (s.tile t).inService).getD (i % 4)

/-- The offsets of the parity of a snapshot number: shard area and manifest (R853). -/
def HuskCfg.destOff (c : HuskCfg) (snap : Nat) : Nat := if snap % 2 = 0 then c.destOff0 else c.destOff1
def HuskCfg.manOff (c : HuskCfg) (snap : Nat) : Nat := if snap % 2 = 0 then c.manOff0 else c.manOff1

/-! ### The snapshot point -/

/-- A freeze of partition p may be taken (R849). -/
def State.huskCanFreeze (s : State) (p : Nat) : Bool :=
  let h := s.husk p
  h.st == 1 || (h.st == 5 && match h.cfg with
    | some c => c.mode == 1
    | none => false)

/-- Take the point (R850 step 1, R853, R874): writes to region bytes are held from now. -/
def State.huskFreeze (s : State) (p step : Nat) : State :=
  let key := s.reproKey p
  s.modHusk p fun h =>
    { h with st := 2, snapId := h.snapId + 1, step := step, freezeNs := s.timeNs, key := key, parts := [],
             shards := (h.cfg.map HuskCfg.shardList).getD [], manifestSent := false, drainedCount := 0,
             longestWaitUs := 0, copied := 0, poisoned := 0 }

/-- A Husk event is logged with the partition and its SNAP_ID (R884). -/
def State.huskLog (s : State) (p : Nat) (name : String) : State := s.logEv name 7 p p [(1, p), (8, (s.husk p).snapId)]

/-- HUSK_TRIGGER: TRIG_CTR has reached TRIG_NEXT (R849): the freeze starts, or is skipped and logged; TRIG_NEXT advances
either way. -/
def execHuskTrigger (p : Fin 8) (s : State) : Out :=
  .next <| match (s.husk p).cfg with
  | none => s
  | some c =>
    let v := (s.ctr c.trigCtr).toNat
    if !c.trigEn || decide (v < (s.husk p).trigNext) then s
    else
      let can := s.huskCanFreeze p
      let s := s.modHusk p fun h => { h with trigNext := h.trigNext + 1 }
      if can then s.huskFreeze p v else s.huskLog p "HUSK_SKIPPED"

/-- Put bytes at an offset of the destination window, on the drain's connection (R864); without one the snapshot is
abandoned (R868). -/
def State.huskPut (s : State) (p off : Nat) (bs : List Byte) : State :=
  match (s.husk p).cfg with
  | none => s
  | some c => match s.connTo p c.destPlace with
    | none => s.huskAbandon p "HUSK_DRAIN_FAILED"
    | some k =>
      let o : RemOp :=
        { id := s.net.nextOp, kind := .put, src := .husk p, partition := p, target := c.destPlace, conn := k,
          window := c.destWindow, addr := off, len := bs.length, local_ := 0, data := bs, atop := 0, w64 := false, cmp := 0,
          pieces := heldPieces off bs.length, addTo := none, addSt := .done, addPsn := 0, after := [], broken := false,
          code := 0, ordered := false }
      ((s.emit (.husk p off bs)).newOp o).enterNext MemFaults.none o.id

/-- Every put of partition p's drain has been acknowledged. -/
def State.huskPutsDone (s : State) (p : Nat) : Bool := s.net.ops.all fun o => o.src != .husk p || o.good

/-- The acknowledged puts of a drain are forgotten. -/
def State.huskForget (s : State) (p : Nat) : State := s.modNet fun n => { n with ops := n.ops.filter fun o => o.src != .husk p }

/-- HUSK_FROZEN: copy-on-write is armed, every part is CLEAN, the held writes are released (R850), the freeze command is
answered, and the drain invalidates the old manifest (R864). -/
def execHuskFrozen (p : Fin 8) (s : State) : Out :=
  .next <| if (s.husk p).st ≠ 2 then s
  else
    let s := (s.modHusk p fun h => { h with st := 3 }).releaseHeld p
    let s := (s.huskLog p "HUSK_FROZEN").respondWaiting (.freeze p) 0 0 (leBytes 8 (s.husk p).snapId)
    match (s.husk p).cfg with
    | some c => s.huskPut p (c.manOff (s.husk p).snapId) (List.replicate 8 0)
    | none => s

/-! ### Copy-on-write -/

/-- A write at an address is the first after the point to some part of a region of partition p (R854). -/
def State.cowDue (s : State) (p addr n : Nat) : Bool :=
  s.huskAt addr == some p && s.userHbmOk addr n && decide (3 ≤ (s.husk p).st) &&
    (s.stacksIn addr n).any fun k => (s.husk p).needsCopy (addr / 65536 * 8 + k)

/-- HUSK_COW_COPY: the first write to a part after the point: the part is copied to the reserve, or the write waits for
space there; then the write proceeds (R854 to R860). -/
def execHuskCowCopy (p : Fin 8) (addr : Nat) (data : List Byte) (mf : MemFaults) (s : State) : Out :=
  .next <| if s.cowDue p addr data.length then (s.storeChecked mf addr data).2 else s

/-- HUSK_RESERVE_FREED: the writes that wait for reserve space are tried again, in their order (R860). -/
def execHuskReserveFreed (p : Fin 8) (s : State) : Out := .next <| if 3 ≤ (s.husk p).st then s.releaseHeld p else s

/-- HUSK_OVERFLOW: a write has waited STALL_US (R861). -/
def execHuskOverflow (p : Fin 8) (s : State) : Out :=
  .next <| if 3 ≤ (s.husk p).st ∧ (s.husk p).st ≤ 6 ∧ (s.husk p).held ≠ [] then s.huskAbandon p "HUSK_OVERFLOW" else s

/-! ### The drain -/

/-- The bytes of a 256-byte chunk as they stood at the point, and its poisoned sectors: from the reserve where the part is
SAVED, else from the live bytes (R854, R857, R858). -/
def State.frozenChunk (s : State) (mf : MemFaults) (p pa : Nat) : List Byte × List Nat × State :=
  let k := ((s.stackOf pa).map (·.1)).getD 0
  match Tbl.find (s.husk p).parts (pa / 65536 * 8 + k) with
  | some (.saved bs poisoned) =>
    let i := (s.partChunks (pa / 65536) k).idxOf pa
    ((bs.drop (256 * i)).take 256, poisoned.filter fun g => decide (pa ≤ g ∧ g < pa + 256), s.chargeStack k p 256)
  | _ =>
    (List.range 8).foldl (fun (r : List Byte × List Nat × State) j =>
      match r.2.2.readErr mf (pa + 32 * j) 32 with
      | (some _, s) => (r.1 ++ List.replicate 32 0, r.2.1 ++ [pa + 32 * j], s)
      | (none, s) => (r.1 ++ s.peek (pa + 32 * j) 32, r.2.1, s)) ([], [], s.chargeHbm p false pa 256)

/-- The bytes of a shard, poisoned sectors as zeros, with the addresses of those. -/
def State.frozenBytes (s : State) (mf : MemFaults) (p : Nat) (x : Shard) : List Byte × List Nat × State :=
  let r := (List.range (x.len / 256)).foldl (fun (r : List Byte × List Nat × State) i =>
    let c := r.2.2.frozenChunk mf p (x.source + 256 * i)
    (r.1 ++ c.1, r.2.1 ++ c.2.1, c.2.2)) ([], [], s)
  let zeroed := r.1.zipIdx.map fun b => if r.2.1.contains (x.source + b.2 / 32 * 32) then 0 else b.1
  (zeroed, r.2.1, r.2.2)

/-- The parts that a drain has read: DRAINED; in SHRINK mode a saved part stays saved (R854). -/
def Husk.drainParts (h : Husk) (x : Shard) : Tbl PartCow :=
  let shrink := match h.cfg with
    | some c => c.mode == 1
    | none => false
  (List.range (x.len / 65536 * 8)).foldl (fun (t : Tbl PartCow) i =>
    let part := x.source / 65536 * 8 + i
    match Tbl.find t part with
    | some (.saved _ _) => if shrink then t else Tbl.set t part .drained
    | _ => Tbl.set t part .drained) h.parts

/-- The shards that are being drained: of each Tiller the first sixteen not yet drained (R865). -/
def State.shardRuns (s : State) (p i : Nat) : Bool :=
  let xs := (s.husk p).shards
  match xs[i]? with
  | none => false
  | some x => !x.drained &&
    decide ((xs.zipIdx.filter fun y => !y.1.drained && decide (y.2 < i) && s.shardTiller y.2 == s.shardTiller i).length < 16)

/-- HUSK_SHARD_DRAINED: shard i has been read and hashed, and is put (R863 to R868). -/
def execHuskShardDrained (p : Fin 8) (i : Nat) (mf : MemFaults) (s : State) : Out :=
  .next <| match (s.husk p).cfg, (s.husk p).shards[i]? with
  | some c, some x =>
    if (s.husk p).st ≠ 3 || !(s.shardRuns p i) then s
    else
      let r := s.frozenBytes mf p x
      let y : Shard := { x with drained := true, digest := sha256 r.1, poison := r.2.1.map fun g => g - x.source }
      let s := r.2.2.modHusk p fun h =>
        { h with shards := h.shards.set i y, parts := h.drainParts x, drainedCount := h.drainedCount + 1,
                 poisoned := h.poisoned + y.poison.length }
      if 65536 < (s.husk p).poisoned then s.huskAbandon p "HUSK_POISON_LIMIT"
      else s.huskPut p (c.destOff (s.husk p).snapId + i * 2 ^ c.shardLog2) r.1
  | _, _ => s

/-! ### The manifest (R871, R872) -/

/-- MAGIC of a manifest. -/
def huskMagic : Nat := 0x314B535548384E47

/-- The entry of a shard, after `first` poison entries. -/
def Shard.entry (x : Shard) (first : Nat) : List Byte :=
  leBytes 8 x.source ++ leBytes 8 x.len ++ leBytes 4 (x.region % 16 + (if x.poison = [] then 0 else 256)) ++ leBytes 4 first ++
  leBytes 4 x.poison.length ++ leBytes 4 0 ++ beBytes 32 x.digest.toNat

/-- The entries of the shards in order. -/
def shardEntries : List Shard → Nat → List Byte
  | [], _ => []
  | x :: xs, first => x.entry first ++ shardEntries xs (first + x.poison.length)

/-- A manifest up to its signature. -/
def State.manifestBody (s : State) (p : Nat) : List Byte :=
  let h := s.husk p
  let mode := (h.cfg.map fun c => c.mode).getD 0
  let shardLog2 := (h.cfg.map fun c => c.shardLog2).getD 0
  let poison := h.shards.flatMap fun x => x.poison
  leBytes 8 huskMagic ++ leBytes 4 1 ++ leBytes 4 h.shards.length ++ leBytes 8 h.snapId ++ leBytes 8 h.step ++
  leBytes 4 (s.places.place % 2 ^ 20 + p * 2 ^ 24 + mode * 2 ^ 28) ++ leBytes 4 ((s.part p).job % 65536 + shardLog2 * 65536) ++
  leBytes 8 h.freezeNs ++ leBytes 8 h.key ++ leBytes 8 (h.shards.map fun x => x.len).sum ++ leBytes 4 poison.length ++
  List.replicate 60 0 ++ shardEntries h.shards 0 ++ poison.flatMap (leBytes 8) ++ beBytes 32 Config.attestKeyId.toNat

/-- A signed manifest, and the state after its signature was made. -/
def State.manifest (s : State) (p : Nat) : List Byte × State :=
  let body := s.manifestBody p
  (body ++ beBytes 96 (Config.signature body s.freeCtr).toNat, { s with freeCtr := s.freeCtr + 1 })

/-- HUSK_MANIFEST_SEND: every shard is drained and acknowledged, and the manifest is put (R864, R869). -/
def execHuskManifestSend (p : Fin 8) (s : State) : Out :=
  .next <| match (s.husk p).cfg with
  | none => s
  | some c =>
    let h := s.husk p
    if h.st ≠ 3 || h.manifestSent || !(h.shards.all fun x => x.drained) || !(s.huskPutsDone p) then s
    else
      let m := (s.huskForget p).manifest p
      (m.2.modHusk p fun h => { h with manifestSent := true }).huskPut p (c.manOff h.snapId) m.1

/-- HUSK_COMPLETE: the manifest is acknowledged (R848, R869). -/
def execHuskComplete (p : Fin 8) (s : State) : Out :=
  .next <| match (s.husk p).cfg with
  | none => s
  | some c =>
    if (s.husk p).st ≠ 3 || !(s.husk p).manifestSent || !(s.huskPutsDone p) then s
    else
      let s := s.huskForget p
      let s := if c.mode = 1 then s.modHusk p fun h => { h with st := 4 }
        else (s.modHusk p fun h => { h with st := 1, parts := [] }).releaseHeld p
      ((s.huskLog p "HUSK_COMPLETE").setFlag lnHk fHkDone).ctrAdd c.doneCtr 1

/-! ### Rollback -/

/-- Write a saved part back to its place, its poisoned sectors as poisoned. -/
def State.partBack (s : State) (p part : Nat) (bs : List Byte) (poisoned : List Nat) : State :=
  let chunks := s.partChunks (part / 8) (part % 8)
  let s := chunks.zipIdx.foldl (fun s c => (s.poke c.1 ((bs.drop (256 * c.2)).take 256)).chargeHbm p true c.1 256) s
  { s with bad := poisoned.foldl natInsert s.bad }

/-- HUSK_ROLLED_BACK: the saved parts have been written back, every part is CLEAN, and the rollback command is answered
(R875, R876). -/
def execHuskRolledBack (p : Fin 8) (s : State) : Out :=
  .next <| if (s.husk p).st ≠ 6 then s
  else
    let s := (s.husk p).parts.foldl (fun s x => match x.2 with
      | .saved bs poisoned => s.partBack p x.1 bs poisoned
      | .drained => s) s
    let s := ((s.modHusk p fun h => { h with st := 5, parts := [] }).huskLog p "HUSK_ROLLED_BACK").setFlag lnHk fHkDone
    (s.respondWaiting (.rollback p) 0 0 []).endTickets fun t => t.act == .huskrb && t.res.contains (.partition p)

/-! ### Restore -/

/-- The end of a restore (R882): DONE_CTR, the event, and ARMED. -/
def State.restoreEnd (s : State) (p : Nat) (good : Bool) : State :=
  let s := match (s.husk p).cfg with
    | some c => s.ctrAdd c.doneCtr (if good then 1 else 0x100000000)
    | none => s
  let s := ((s.huskLog p "HUSK_RESTORED").setFlag lnHk fHkDone).setFlagIf (!good) lnHk fHkFail
  (s.modHusk p fun h => { h with st := 1, restore := none }).endTickets fun t => t.act == .huskrb && t.res.contains (.partition p)

/-- The shard entry i of a manifest, with its poison list. -/
def manifestShard (m : List Byte) (shards i : Nat) : Shard :=
  let e := m.drop (128 + 64 * i)
  let n := fun (at_ w : Nat) => leNat ((e.drop at_).take w)
  let entry := fun j => leNat ((m.drop (128 + 64 * shards + 8 * (n 20 4 + j))).take 8)
  ⟨n 0 8, n 8 8, n 16 4, (List.range (n 24 4)).map entry, BitVec.ofNat 256 (beNat ((e.drop 32).take 32)), false⟩

/-- HUSK_MANIFEST_CHECK: the manifest's bytes have been read; `verified` says that the chain, KEY_ID and the signature
hold. Scarab checks it, and on failure nothing is written (R878, R881). -/
def execHuskManifestCheck (p : Fin 8) (manifest : List Byte) (verified : Bool) (s : State) : Out :=
  .next <| match (s.husk p).restore with
  | none => s
  | some r =>
    if (s.husk p).st ≠ 7 || r.checked then s
    else
      let n := fun (at_ w : Nat) => leNat ((manifest.drop at_).take w)
      if !verified || n 0 8 != huskMagic || n 8 4 != 1 then (s.huskLog p "HUSK_SIG_BAD").restoreEnd p false
      else
        let s := if n 48 8 = s.reproKey p then s else s.huskLog p "HUSK_KEY_DIFFERS"
        let shards := ((List.range (n 12 4)).drop r.first).take r.count
        s.modHusk p fun h => { h with restore := some { r with checked := true, shards := shards.map (manifestShard manifest (n 12 4)) } }

/-- A byte address moved by DELTA. -/
def moved (source : Nat) (delta : Int) : Nat := ((source : Int) + delta).toNat

/-- A restored range lies in the partition's HBM and outside its reserve (R877). -/
def State.restoreFits (s : State) (p a n : Nat) : Bool :=
  s.inPartHbm p a n && match (s.husk p).cfg with
    | some c => !(decide (a < c.resBase + c.resLen ∧ c.resBase < a + n))
    | none => true

/-- HUSK_SHARD_RESTORE: shard i of those selected has arrived (R879, R880): with the right digest it is written, with the
sectors of its poison list poisoned; otherwise its destination bytes are undefined. -/
def execHuskShardRestore (p : Fin 8) (i : Nat) (data : List Byte) (s : State) : Out :=
  .next <| match (s.husk p).restore with
  | none => s
  | some r => match r.shards[i]? with
    | none => s
    | some x =>
      if (s.husk p).st ≠ 7 || !r.checked || x.drained then s
      else
        let a := moved x.source r.delta
        let fits := s.restoreFits p a x.len
        let ok := data.length == x.len && sha256 data == x.digest && fits
        let s := if ok then
            let s := s.store a data
            let s : State := { s with bad := (x.poison.map fun o => alignDown 32 (a + o)).foldl natInsert s.bad }
            if bitN x.region 8 then s.huskLog p "HUSK_POISON" else s
          else
            let s := s.huskLog p "HUSK_DIGEST_BAD"
            if fits then s.scramble a (a + x.len) else s
        s.modHusk p fun h =>
          { h with restore := some { r with shards := r.shards.set i { x with drained := true }, done := r.done + 1 },
                   drainedCount := h.drainedCount + 1, badShards := h.badShards + b2n (!ok) }

/-- HUSK_RESTORED: every selected shard is done (R882). -/
def execHuskRestored (p : Fin 8) (s : State) : Out :=
  .next <| match (s.husk p).restore with
  | none => s
  | some r =>
    if (s.husk p).st = 7 ∧ r.checked = true ∧ r.done = r.shards.length then s.restoreEnd p ((s.husk p).badShards == 0) else s

end Sys2Proof.Machine
end

