-- ==== Sys2Proof/Machine/Lvx.lean ====
section
/-!
DEFINITION. The LVX instructions (R575 to R582).
-/
namespace Sys2Proof.Machine

open Sys2Proof

/-- Bytes of an element and elements of a q register. -/
def lvBytes (sz : Nat) : Nat := 2 ^ sz
def lvFBytes (sz : Nat) : Nat := [2, 2, 4].getD sz 8

/-- A floating-point result on every element, from the code and flags that `f` gives (R577, R578). -/
def Core.lvFloat (c : Core) (sz rd rs1 rs2 : Nat) (f : FLayout → Nat → Nat → Nat → Nat × FFlags) : Core :=
  let b := lvFBytes sz
  let l := szLayout sz
  let rs := (List.range (16 / b)).map fun i =>
    f l (elemAt (c.qr rs1).toNat b i) (elemAt (c.qr rs2).toNat b i) (elemAt (c.qr rd).toNat b i)
  (c.setQ rd (BitVec.ofNat 128 (ofElems b (rs.map (·.1))))).raise (flagsOr (rs.map (·.2)))

/-- An operation that rounds under rm; reserved modes are undefined (R576). -/
def State.lvRound (s : State) (h sz rm rd rs1 rs2 : Nat) (bad : Bool) (f : RMode → FLayout → Nat → Nat → Nat → Nat × FFlags) : State :=
  s.vecRun h (fun c => bad || (c.rounding rm).isNone) fun c => c.lvFloat sz rd rs1 rs2 (f ((c.rounding rm).getD .rne))

/-- An integer operation on every element; rm must be 0 (R576, R577). -/
def State.lvInt (s : State) (h sz rm rd rs1 rs2 : Nat) (f : Nat → Nat → Nat → Nat) : State :=
  s.vecRun h (fun _ => decide (rm ≠ 0)) fun c =>
    let b := lvBytes sz
    c.setQ rd (BitVec.ofNat 128 (ofElems b ((List.range (16 / b)).map fun i =>
      f (8 * b) (elemAt (c.qr rs1).toNat b i) (elemAt (c.qr rs2).toNat b i))))

/-- LVFADD: a + b (R577). -/
def execLvfadd (h : Fin 64) (sz : Fin 4) (rm : Fin 8) (rd rs1 rs2 : Fin 32) (s : State) : Out :=
  .next (s.lvRound h sz rm rd rs1 rs2 false (fun r l a b _ => l.rnd r (FVal.add r (l.decode a) (l.decode b))))

/-- LVFSUB: a − b (R577). -/
def execLvfsub (h : Fin 64) (sz : Fin 4) (rm : Fin 8) (rd rs1 rs2 : Fin 32) (s : State) : Out :=
  .next (s.lvRound h sz rm rd rs1 rs2 false (fun r l a b _ => l.rnd r (FVal.add r (l.decode a) (l.decode b).neg)))

/-- LVFMUL: a × b (R577). -/
def execLvfmul (h : Fin 64) (sz : Fin 4) (rm : Fin 8) (rd rs1 rs2 : Fin 32) (s : State) : Out :=
  .next (s.lvRound h sz rm rd rs1 rs2 false (fun r l a b _ => l.rnd r (FVal.mul (l.decode a) (l.decode b))))

/-- LVFMA: a × b + d with one rounding (R577). -/
def execLvfma (h : Fin 64) (sz : Fin 4) (rm : Fin 8) (rd rs1 rs2 : Fin 32) (s : State) : Out :=
  .next (s.lvRound h sz rm rd rs1 rs2 false (fun r l a b d => l.rnd r (FVal.fma r (l.decode a) (l.decode b) (l.decode d))))

/-- LVFNMS: −(a × b) + d with one rounding (R577). -/
def execLvfnms (h : Fin 64) (sz : Fin 4) (rm : Fin 8) (rd rs1 rs2 : Fin 32) (s : State) : Out :=
  .next (s.lvRound h sz rm rd rs1 rs2 false (fun r l a b d => l.rnd r (FVal.fma r (l.decode a).neg (l.decode b) (l.decode d))))

/-- LVFDIV: a / b (R577). -/
def execLvfdiv (h : Fin 64) (sz : Fin 4) (rm : Fin 8) (rd rs1 rs2 : Fin 32) (s : State) : Out :=
  .next (s.lvRound h sz rm rd rs1 rs2 false (fun r l a b _ => l.div r (l.decode a) (l.decode b)))

/-- LVFSQRT: the square root of a; rs2 must be 0 (R577). -/
def execLvfsqrt (h : Fin 64) (sz : Fin 4) (rm : Fin 8) (rd rs1 rs2 : Fin 32) (s : State) : Out :=
  .next (s.lvRound h sz rm rd rs1 rs2 (decide (rs2.val ≠ 0)) (fun r l a _ _ => l.sqrt r (l.decode a)))

/-- LVFMIN (R94, R95, R577); it does not round, so rm must be 0. -/
def execLvfmin (h : Fin 64) (sz : Fin 4) (rm : Fin 8) (rd rs1 rs2 : Fin 32) (s : State) : Out :=
  .next <| s.vecRun h (fun _ => decide (rm.val ≠ 0)) fun c => c.lvFloat sz rd rs1 rs2 fun l a b _ => l.maxMin false a b

/-- LVFMAX (R94, R95, R577); it does not round, so rm must be 0. -/
def execLvfmax (h : Fin 64) (sz : Fin 4) (rm : Fin 8) (rd rs1 rs2 : Fin 32) (s : State) : Out :=
  .next <| s.vecRun h (fun _ => decide (rm.val ≠ 0)) fun c => c.lvFloat sz rd rs1 rs2 fun l a b _ => l.maxMin true a b

/-- Adjacent pairs added, each sum rounded, with the flags. -/
def pairSums (r : RMode) (l : FLayout) : List Nat → List (Nat × FFlags)
  | a :: b :: rest => l.rnd r (FVal.add r (l.decode a) (l.decode b)) :: pairSums r l rest
  | [a] => [(a, FFlags.none)]
  | [] => []

/-- The sum of elements by adjacent pairs, level by level. -/
def treeSum (r : RMode) (l : FLayout) : Nat → List Nat → FFlags → Nat × FFlags
  | 0, xs, f => (xs.headD 0, f)
  | k + 1, xs, f => if xs.length ≤ 1 then (xs.headD 0, f)
    else
      let ys := pairSums r l xs
      treeSum r l k (ys.map (·.1)) (f.or (flagsOr (ys.map (·.2))))

/-- LVFSUM: element 0 the sum of the elements of q[rs1], the others +0; rs2 must be 0 (R577). -/
def execLvfsum (h : Fin 64) (sz : Fin 4) (rm : Fin 8) (rd rs1 rs2 : Fin 32) (s : State) : Out :=
  .next <| s.vecRun h (fun c => decide (rs2.val ≠ 0) || (c.rounding rm).isNone) fun c =>
    let b := lvFBytes sz
    let r := treeSum ((c.rounding rm).getD .rne) (szLayout sz) 3 ((List.range (16 / b)).map fun i => elemAt (c.qr rs1).toNat b i) FFlags.none
    (c.setQ rd (BitVec.ofNat 128 r.1)).raise r.2

/-- LVFCVT: each element that both formats hold, in the format that rs2 names, to format sz with one rounding; the
others +0 (R577). -/
def execLvfcvt (h : Fin 64) (sz : Fin 4) (rm : Fin 8) (rd rs1 rs2 : Fin 32) (s : State) : Out :=
  .next <| s.vecRun h (fun c => decide (4 ≤ rs2.val) || (c.rounding rm).isNone) fun c =>
    let from_ := szLayout rs2
    let dst := szLayout sz
    let n := min (16 / lvFBytes rs2) (16 / lvFBytes sz)
    let rs := (List.range n).map fun i => dst.rnd ((c.rounding rm).getD .rne) (from_.decode (elemAt (c.qr rs1).toNat (lvFBytes rs2) i))
    (c.setQ rd (BitVec.ofNat 128 (ofElems (lvFBytes sz) (rs.map (·.1))))).raise (flagsOr (rs.map (·.2)))

/-- LVADD: a + b modulo 2^n (R577). -/
def execLvadd (h : Fin 64) (sz : Fin 4) (rm : Fin 8) (rd rs1 rs2 : Fin 32) (s : State) : Out :=
  .next (s.lvInt h sz rm rd rs1 rs2 (fun n a b => (a + b) % 2 ^ n))

/-- LVSUB: a − b modulo 2^n (R577). -/
def execLvsub (h : Fin 64) (sz : Fin 4) (rm : Fin 8) (rd rs1 rs2 : Fin 32) (s : State) : Out :=
  .next (s.lvInt h sz rm rd rs1 rs2 (fun n a b => (a + 2 ^ n - b) % 2 ^ n))

/-- LVAND: bitwise AND (R577). -/
def execLvand (h : Fin 64) (sz : Fin 4) (rm : Fin 8) (rd rs1 rs2 : Fin 32) (s : State) : Out :=
  .next (s.lvInt h sz rm rd rs1 rs2 (fun _ a b => Nat.land a b))

/-- LVOR: bitwise OR (R577). -/
def execLvor (h : Fin 64) (sz : Fin 4) (rm : Fin 8) (rd rs1 rs2 : Fin 32) (s : State) : Out :=
  .next (s.lvInt h sz rm rd rs1 rs2 (fun _ a b => Nat.lor a b))

/-- LVXOR: bitwise XOR (R577). -/
def execLvxor (h : Fin 64) (sz : Fin 4) (rm : Fin 8) (rd rs1 rs2 : Fin 32) (s : State) : Out :=
  .next (s.lvInt h sz rm rd rs1 rs2 (fun _ a b => Nat.xor a b))

/-- LVLD: 16 bytes (R577, R579). -/
def execLvld (h : Fin 64) (sz : Fin 4) (rm : Fin 8) (rd rs1 rs2 : Fin 32) (mf : MemFaults) (s : State) : Out :=
  .next <| s.vecMem h (fun _ => decide (rm.val ≠ 0)) fun c s =>
    let _ := sz
    let a := c.sumAddr rs1 rs2
    if a % 16 ≠ 0 then s.coreFault h false a 0 .misaligned else s.coreLoad mf h a 16 false 3 rd 0

/-- LVST: 16 bytes, checked whole before any is written (R579, R580). -/
def execLvst (h : Fin 64) (sz : Fin 4) (rm : Fin 8) (rd rs1 rs2 : Fin 32) (mf : MemFaults) (s : State) : Out :=
  .next <| s.vecMem h (fun _ => decide (rm.val ≠ 0)) fun c s =>
    let _ := sz
    let a := c.sumAddr rs1 rs2
    if a % 16 ≠ 0 then s.coreFault h true a 0 .misaligned
    else s.coreStore mf h a 16 [(0, leBytes 16 (c.qr rd).toNat)]

/-- The elements of a first-fault load up to the first that faults: (virtual address, physical address, the value,
none where the domain has to give it), and that first fault (R581, R582). -/
def State.firstElems (s : State) (mf : MemFaults) (h b : Nat) : List Nat → List (Nat × Nat × Option Nat) × Option (Nat × Nat × XFault) × State
  | [] => ([], none, s)
  | va :: rest => match s.translate mf h false va b with
    | (.error (f, pa), s) => ([], some (va, pa, f), s)
    | (.ok pa0, s) =>
      let pa := s.loadAddr h pa0 b
      if isAperture pa then
        if !(s.coreDomainOk h rightR pa b) then ([], some (va, pa, .access reasonRemote), s)
        else
          let r := State.firstElems s mf h b rest
          ((va, pa, none) :: r.1, r.2)
      else match s.coreRead mf h pa b with
        | (.error f, s) => ([], some (va, pa, f), s)
        | (.ok bs, s) =>
          let r := State.firstElems s mf h b rest
          ((va, pa, some (leNat bs)) :: r.1, r.2)

/-- LVLDFF: elements in ascending order up to the first that faults (R581, R582). -/
def execLvldff (h : Fin 64) (sz : Fin 4) (rm : Fin 8) (rd rs1 rs2 : Fin 32) (mf : MemFaults) (s : State) : Out :=
  .next <| s.vecMem h (fun _ => decide (rm.val ≠ 0)) fun c s =>
    let b := lvBytes sz
    let a := c.sumAddr rs1 rs2
    if a % b ≠ 0 then s.coreFault h false a 0 .misaligned
    else
      let (els, fault, s) := s.firstElems mf h b ((List.range (16 / b)).map fun i => (a + i * b) % 2 ^ 64)
      match els, fault with
      | [], some (va, pa, f) => s.coreFault h false va pa f
      | _, _ =>
        if els.all fun e => e.2.2.isSome then s.finishFirst h b rd 0 els
        else
          let pend := els.filter fun e => e.2.2.isNone
          let o := s.coreOp h .load apertureBase 0 [] (pend.map fun e => (e.2.1 - apertureBase, b))
          ((s.modCore h fun c => { c with wait := .first o.id b rd els }).newOp o).sendPieces mf o.id

/-- LVINS: an element of q[rd] from the low bits of x[rs1] (R577). -/
def execLvins (h : Fin 64) (sz : Fin 4) (rm : Fin 8) (rd rs1 rs2 : Fin 32) (s : State) : Out :=
  .next <| s.vecRun h (fun _ => decide (rm.val ≠ 0)) fun c =>
    let b := lvBytes sz
    let k := (c.xr rs2).toNat % (16 / b)
    c.setQ rd (BitVec.ofNat 128 (ofElems b ((List.range (16 / b)).map fun i =>
      if i = k then (c.xr rs1).toNat else elemAt (c.qr rd).toNat b i)))

/-- LVEXT: an element of q[rs1], sign-extended, into x[rd] (R577). -/
def execLvext (h : Fin 64) (sz : Fin 4) (rm : Fin 8) (rd rs1 rs2 : Fin 32) (s : State) : Out :=
  .next <| s.vecRun h (fun _ => decide (rm.val ≠ 0)) fun c =>
    let b := lvBytes sz
    c.setX rd (extendN b true (elemAt (c.qr rs1).toNat b ((c.xr rs2).toNat % (16 / b))))

/-- LVSPLAT: every element from the low bits of x[rs1]; rs2 must be 0 (R577). -/
def execLvsplat (h : Fin 64) (sz : Fin 4) (rm : Fin 8) (rd rs1 rs2 : Fin 32) (s : State) : Out :=
  .next <| s.vecRun h (fun _ => decide (rm.val ≠ 0 ∨ rs2.val ≠ 0)) fun c =>
    let b := lvBytes sz
    c.setQ rd (BitVec.ofNat 128 (ofElems b ((List.range (16 / b)).map fun _ => (c.xr rs1).toNat)))

end Sys2Proof.Machine
end

