-- ==== Sys2Proof/Machine/Registers.lean ====
section
/-!
DEFINITION. The accesses to registers as commands: clear-on-read flags, INDEX/DATA words, latching reads,
doorbells, counter ports, and the tray bus and test port that reach the same registers (R955 to R987,
R1066 to R1071).
-/
namespace Sys2Proof.Machine

open Sys2Proof

/-- A core reads its port's result (R656). -/
def execCtPResLoRead (t : Fin 4) (h : Fin 64) (s : State) : Out := .next (s.readRow (.core h) (ctBase t.val + 0x1018 + 32 * h.val))

/-- A pending word is read (R987). -/
def execDbRpendRead (m : Master) (t : Fin 4) (w : Fin 256) (s : State) : Out := .next (s.readRow m (rpBase t.val + 4 * w.val))

/-- A word of the coherence bitmap is read (R969). -/
def execAcCohDataRead (m : Master) (s : State) : Out := .next (s.readRow m (acBase + 0x14))

/-- An entry of the repair map is read (R175). -/
def execMaRepairDataRead (m : Master) (t a : Fin 4) (s : State) : Out := .next (s.readRow m (arrayBase t.val a.val + 0x50))

/-- The last uncorrectable sector, low half (R484). -/
def execHcLastUeLoRead (m : Master) (k : Fin 8) (s : State) : Out := .next (s.readRow m (hcBase k.val + 0x1C))

/-- Package time, low half (R591). -/
def execAcMtimeLoRead (m : Master) (s : State) : Out := .next (s.readRow m (acBase + 0x3000))

/-- The serial number, low half (R966). -/
def execIdSerialLoRead (m : Master) (s : State) : Out := .next (s.readRow m (idBase + 0x10))

/-- The newest record's number, low half (R966). -/
def execFlNewestLoRead (m : Master) (s : State) : Out := .next (s.readRow m (flBase + 0x10))

/-- A key word (R840). -/
def execRkDataRead (m : Master) (s : State) : Out := .next (s.readRow m (rkBase + 0xC))

/-- A ring word (R422, R424). -/
def execSqRingDataRead (m : Master) (t : Fin 4) (s : State) : Out := .next (s.readRow m (sqBase t.val + 0x1C))

/-- A context word (R422, R424). -/
def execSqCtxDataRead (m : Master) (t : Fin 4) (s : State) : Out := .next (s.readRow m (sqBase t.val + 0x24))

/-- A regulator word (R482, R485). -/
def execHcRegDataRead (m : Master) (k : Fin 8) (s : State) : Out := .next (s.readRow m (hcBase k.val + 0x2C))

/-- A bank's repair word (R482, R485). -/
def execHcRepairDataRead (m : Master) (k : Fin 8) (s : State) : Out := .next (s.readRow m (hcBase k.val + 0x44))

/-- A view word (R526, R527). -/
def execWvDataRead (m : Master) (t : Fin 4) (s : State) : Out := .next (s.readRow m (wvBase t.val + 0xC))

/-- A logical core's word (R589). -/
def execAcCoreDataRead (m : Master) (s : State) : Out := .next (s.readRow m (acBase + 0x1C))

/-- A slot word (R650, R652). -/
def execDmSlotDataRead (m : Master) (s : State) : Out := .next (s.readRow m (dmBase + 0x1C))

/-- A connection word (R688, R690). -/
def execXpConnDataRead (m : Master) (s : State) : Out := .next (s.readRow m (xpBase + 0x14))

/-- A lane word (R801). -/
def execOpLaneDataRead (m : Master) (k : Fin 24) (s : State) : Out := .next (s.readRow m (opBase k.val + 0x2C))

/-- A module or receptacle word (R803). -/
def execLsDataRead (m : Master) (s : State) : Out := .next (s.readRow m (lsBase + 0x14))

/-- An entry of the hall or domain table (R824). -/
def execPlTblDataRead (m : Master) (s : State) : Out := .next (s.readRow m (plBase + 0x10))

/-- A Husk word (R886). -/
def execHkDataRead (m : Master) (s : State) : Out := .next (s.readRow m (hkBase + 0xC))

/-- A start word (R920). -/
def execStDataRead (m : Master) (s : State) : Out := .next (s.readRow m (stBase + 0x10))

/-- A fault word (R1023). -/
def execFlDataRead (m : Master) (s : State) : Out := .next (s.readRow m (flBase + 0x1C))

/-- A Cricket word (R1059). -/
def execCkDataRead (m : Master) (s : State) : Out := .next (s.readRow m (ckBase + 0x10))

/-- A power word (R1104). -/
def execPwDataRead (m : Master) (s : State) : Out := .next (s.readRow m (pwBase + 0x10))

/-- An array's flags (R961). -/
def execMaFlagsRead (m : Master) (t a : Fin 4) (s : State) : Out := .next (s.readRow m (arrayBase t.val a.val + 0xC))

/-- The VE flags (R961). -/
def execVeFlagsRead (m : Master) (t : Fin 4) (s : State) : Out := .next (s.readRow m (veBase t.val + 0xC))

/-- The sequencer flags (R961). -/
def execSqFlagsRead (m : Master) (t : Fin 4) (s : State) : Out := .next (s.readRow m (sqBase t.val + 0xC))

/-- A controller's flags (R961). -/
def execHcFlagsRead (m : Master) (k : Fin 8) (s : State) : Out := .next (s.readRow m (hcBase k.val + 0xC))

/-- The view flags (R961). -/
def execWvFlagsRead (m : Master) (t : Fin 4) (s : State) : Out := .next (s.readRow m (wvBase t.val + 4))

/-- The core-complex flags (R961). -/
def execAcFlagsRead (m : Master) (s : State) : Out := .next (s.readRow m (acBase + 0xC))

/-- The domain flags (R961). -/
def execDmFlagsRead (m : Master) (s : State) : Out := .next (s.readRow m (dmBase + 8))

/-- A counter block's flags (R961). -/
def execCtFlagsRead (m : Master) (t : Fin 4) (s : State) : Out := .next (s.readRow m (ctBase t.val + 4))

/-- The hit bits of the counter ports (R653, R961). -/
def execCtHitRead (m : Master) (t : Fin 4) (hi : Bool) (s : State) : Out := .next (s.readRow m (ctBase t.val + 8 + (if hi then 4 else 0)))

/-- The transport flags (R961). -/
def execXpFlagsRead (m : Master) (s : State) : Out := .next (s.readRow m (xpBase + 4))

/-- A port's flags (R961). -/
def execOpFlagsRead (m : Master) (k : Fin 24) (s : State) : Out := .next (s.readRow m (opBase k.val + 0xC))

/-- The laser and shelf flags (R961). -/
def execLsFlagsRead (m : Master) (s : State) : Out := .next (s.readRow m (lsBase + 8))

/-- The place flags (R961). -/
def execPlFlagsRead (m : Master) (s : State) : Out := .next (s.readRow m (plBase + 8))

/-- The determinism flags (R961). -/
def execRkFlagsRead (m : Master) (s : State) : Out := .next (s.readRow m (rkBase + 4))

/-- The Husk flags (R961). -/
def execHkFlagsRead (m : Master) (s : State) : Out := .next (s.readRow m (hkBase + 4))

/-- The start flags (R961). -/
def execStFlagsRead (m : Master) (s : State) : Out := .next (s.readRow m (stBase + 8))

/-- A mailbox's flags (R961). -/
def execMbFlagsRead (m : Master) (mb : Fin 64) (s : State) : Out := .next (s.readRow m (mbBase mb.val + 8))

/-- The identification flags (R961). -/
def execIdFlagsRead (m : Master) (s : State) : Out := .next (s.readRow m (idBase + 0x1C))

/-- The fault and log flags (R961). -/
def execFlFlagsRead (m : Master) (s : State) : Out := .next (s.readRow m (flBase + 4))

/-- The Cricket flags (R961). -/
def execCkFlagsRead (m : Master) (s : State) : Out := .next (s.readRow m (ckBase + 8))

/-- The power flags (R961). -/
def execPwFlagsRead (m : Master) (s : State) : Out := .next (s.readRow m (pwBase + 8))

/-- Operation READ of a core's counter port (R653 to R657). -/
def execCtPortRead (t : Fin 4) (h : Fin 64) (s : State) : Out := .next (s.writeRow (.core h) (ctBase t.val + 0x1004 + 32 * h.val) 0)

/-- Operation ADD of a core's counter port (R653 to R657). -/
def execCtPortAdd (t : Fin 4) (h : Fin 64) (s : State) : Out := .next (s.writeRow (.core h) (ctBase t.val + 0x1004 + 32 * h.val) 1)

/-- Operation SET of a core's counter port (R653 to R657). -/
def execCtPortSet (t : Fin 4) (h : Fin 64) (s : State) : Out := .next (s.writeRow (.core h) (ctBase t.val + 0x1004 + 32 * h.val) 2)

/-- Operation CAS of a core's counter port (R653 to R657). -/
def execCtPortCas (t : Fin 4) (h : Fin 64) (s : State) : Out := .next (s.writeRow (.core h) (ctBase t.val + 0x1004 + 32 * h.val) 3)

/-- Operation ARM of a core's counter port (R653 to R657). -/
def execCtPortArm (t : Fin 4) (h : Fin 64) (s : State) : Out := .next (s.writeRow (.core h) (ctBase t.val + 0x1004 + 32 * h.val) 4)

/-- Operation DISARM of a core's counter port (R653 to R657). -/
def execCtPortDisarm (t : Fin 4) (h : Fin 64) (s : State) : Out := .next (s.writeRow (.core h) (ctBase t.val + 0x1004 + 32 * h.val) 5)

/-- A ring's TAIL is offered (R362, R982). -/
def execDbTailWrite (m : Master) (t : Fin 4) (r : Fin 8192) (v : W32) (s : State) : Out := .next (s.writeRow m (dbBase t.val + 8 * r.val) v)

/-- A ring's CHEAD is offered (R983). -/
def execDbCheadWrite (m : Master) (t : Fin 4) (r : Fin 8192) (v : W32) (s : State) : Out := .next (s.writeRow m (dbBase t.val + 8 * r.val + 4) v)

/-- A word of the coherence bitmap is written (R555, R556, R592). -/
def execAcCohDataWrite (m : Master) (v : W32) (s : State) : Out := .next (s.writeRow m (acBase + 0x14) v)

/-- An entry of the repair map is written: base, SET, CLR or TGL (R174, R175, R958). -/
def execMaRepairDataWrite (m : Master) (t a kind : Fin 4) (v : W32) (s : State) : Out := .next (s.writeRow m (arrayBase t.val a.val + 0x50 + 4 * kind.val) v)

/-- The scrub configuration is written: base, SET, CLR or TGL (R958, R965). -/
def execHcScrubCfgWrite (m : Master) (k : Fin 8) (kind : Fin 4) (v : W32) (s : State) : Out := .next (s.writeRow m (hcBase k.val + 0x30 + 4 * kind.val) v)

/-- An interrupt line's routing word is read, or written with a value (R975, R979). -/
def execIcLineDataAccess (m : Master) (write : Option W32) (s : State) : Out :=
  .next <| match write with
  | some v => s.writeRow m (icBase + 4) v
  | none => s.readRow m (icBase + 4)

/-- A write to any register (R18, R955 to R960): one that is not aligned is refused, with a core's misaligned
exception (R538). -/
def execRegisterWrite (m : Master) (addr : Nat) (v : W32) (s : State) : Out :=
  .next <| if addr % 4 = 0 then s.writeRow m addr v
  else if !(s.masterRuns m) then s
  else match m with
    | .scarab => s.emit (.regRefused addr)
    | .core h => s.coreTrap h 6 (BitVec.ofNat 64 addr)

/-! ### The tray bus (R1066 to R1068) -/

/-- The nominal set-point of a rail. -/
def vNominal (k : Nat) : Nat := if k = 4 then 780 else 750

/-- A word of the target space (R1068); reserved offsets read 0. -/
def State.i3cWord (s : State) (o : Nat) : Nat × State :=
  if o < 0x1000 then s.readBlock .scarab (.mb 56) o
  else if o < 0x1014 then s.readBlock .scarab .st (o - 0x1000)
  else if 0x1100 ≤ o ∧ o < 0x1114 then s.readBlock .scarab .pw (o - 0x1100)
  else if 0x1200 ≤ o ∧ o < 0x1218 then (Tbl.get (vNominal ((o - 0x1200) / 4)) s.power.vset ((o - 0x1200) / 4), s)
  else if 0x1240 ≤ o ∧ o < 0x1258 then (Tbl.get (vNominal ((o - 0x1240) / 4)) s.power.vack ((o - 0x1240) / 4), s)
  else (0, s)

/-- A word written to the target space; what is read only or reserved ignores it. -/
def State.i3cPut (s : State) (o v : Nat) : State :=
  if o < 0x1000 then s.mboxWrite 56 o v
  else if 0x1240 ≤ o ∧ o < 0x1258 then s.vackWrite ((o - 0x1240) / 4) v
  else s

/-- A private write: an offset, then data. -/
def execI3cPrivateWrite (off : Fin 65536) (data : List Byte) (s : State) : Out :=
  .next <| if !s.power.powered ∨ 4096 < data.length then s
  else if off.val % 4 ≠ 0 ∨ data.length % 4 ≠ 0 then s.setFlag lnPw fPwCfg
  else (s.modPower fun w => { w with i3cOff := off.val }).forN (data.length / 4) fun s i =>
    s.i3cPut ((off.val + 4 * i) % 65536) (leNat ((data.drop (4 * i)).take 4))

/-- Read n words from an offset. -/
def State.i3cWords (s : State) (o : Nat) : Nat → List Byte × State
  | 0 => ([], s)
  | n + 1 =>
    let r := s.i3cWord o
    let rest := r.2.i3cWords ((o + 4) % 65536) n
    (leBytes 4 r.1 ++ rest.1, rest.2)

/-- A private read from the offset last written. -/
def execI3cPrivateRead (len : Nat) (s : State) : Out :=
  .next <| if !s.power.powered ∨ 4096 < len then s
  else
    let r := s.i3cWords s.power.i3cOff ((len + 3) / 4)
    r.2.emit (.bytes (r.1.take len))

/-- MBACC: the 64 bits of MB63 at an offset are shifted out, and 64 bits may be written there (R1071). -/
def execMbacc (off : Fin 512) (write : Option W64) (s : State) : Out :=
  .next <|
    let o := 8 * off.val
    let lo := s.readBlock .scarab (.mb 63) o
    let hi := lo.2.readBlock .scarab (.mb 63) (o + 4)
    let s := hi.2.tapShift 0x40 64 (lo.1 + hi.1 * 2 ^ 32) ((write.getD 0).toNat)
    match write with
    | some v => (s.mboxWrite 63 o (v.toNat % 2 ^ 32)).mboxWrite 63 (o + 4) (v.toNat / 2 ^ 32)
    | none => s

end Sys2Proof.Machine
end

