-- ==== Sys2Proof/Machine/SunasReply.lean ====
section
/-!
DEFINITION. How Sunas answers a command: its checks in the order of R934, the states in which commands are refused (R478,
R894, R906), and the maintenance scheduler's part (R942 to R946).
-/
namespace Sys2Proof.Machine

open Sys2Proof

/-- A command as it is performed: its mailbox, opcode, header and payload, the values and offsets of its fields, and the
bytes after them. -/
structure Cmd where
  m : Nat
  op : Nat
  header : List Byte
  payload : List Byte
  v : List Nat
  pos : List Nat
  tail : List Byte
deriving DecidableEq, Repr

/-- The command of a header and a payload. -/
def CmdSpec.read (k : CmdSpec) (m : Nat) (header payload : List Byte) : Cmd :=
  ⟨m, k.op, header, payload, k.values payload, fieldOffsets 0 k.fields, payload.drop k.tailAt⟩

/-- Field i. -/
def Cmd.f (c : Cmd) (i : Nat) : Nat := c.v.getD i 0
/-- Field i is 1. -/
def Cmd.on (c : Cmd) (i : Nat) : Bool := c.f i == 1
def Cmd.nowait (c : Cmd) : Bool := bitN (headerWord c.header 0) 16

/-- What a command's own rules answer. -/
inductive Reply where
  /-- Performed, with a response payload. -/
  | done (s : State) (payload : List Byte)
  /-- Refused with a status, and no side effect (R935). -/
  | refuse (status detail : Nat)
  /-- Failed in hardware, with a reason. -/
  | failed (s : State) (detail : Nat)
  /-- Performed, and its response waits. -/
  | wait (s : State) (w : CmdWait)
  /-- Performed, and its response is already written, or will be by what it started. -/
  | own (s : State)

/-- Statuses of R933. -/
def S_BADFIELD : Nat := 2
def S_BADLEN : Nat := 3
def S_BUSY : Nat := 4
def S_TABLE_FULL : Nat := 5
def S_DEFERRED : Nat := 6
def S_CONFLICT : Nat := 7
def S_FLASH_EXHAUSTED : Nat := 8
def S_DENIED : Nat := 9
def S_NOTFOUND : Nat := 10
def S_IMAGE_BAD : Nat := 11
def S_FAILED : Nat := 12
def S_NOTIFY_LOST : Nat := 13

def Reply.busy : Reply := .refuse S_BUSY 0
def Reply.denied : Reply := .refuse S_DENIED 0
def Reply.notFound : Reply := .refuse S_NOTFOUND 0
/-- Performed with no response payload. -/
def Reply.ok (s : State) : Reply := .done s []

/-- S_BADFIELD with the offset of field i from the start of the header (R931). -/
def Cmd.bad (c : Cmd) (i : Nat) : Reply := .refuse S_BADFIELD (32 + c.pos.getD i 0)

/-- S_BADFIELD for the first of the fields whose condition holds, else the reply. -/
def Cmd.check (c : Cmd) (conds : List (Bool × Nat)) (r : Reply) : Reply :=
  match leastOf ((conds.filter fun x => x.1).map fun x => c.pos.getD x.2 0) with
  | some p => .refuse S_BADFIELD (32 + p)
  | none => r

/-- A reply, where a condition does not ask for S_BUSY. -/
def Reply.unlessBusy (b : Bool) (r : Reply) : Reply := if b then .busy else r

/-- A partition mailbox may not act on what another partition owns (R938). -/
def Cmd.foreign (c : Cmd) (owner : Nat) : Bool := decide (c.m < 56) && c.m / 7 != owner

/-! ### Checks that every command has -/

/-- The class of a mailbox as a bit of `CmdSpec.classes` (R922). -/
def mboxClass (m : Nat) : Nat := if m < 56 then 1 else if m < 63 then 0 else 2

/-- The mailbox may issue the command, and names no other partition. -/
def CmdSpec.allowed (k : CmdSpec) (c : Cmd) : Bool :=
  bitN k.classes (mboxClass c.m) && match k.part with
    | some i => decide (c.payload.length ≤ c.pos.getD i 0) || !(c.foreign (c.f i))
    | none => true

/-- LEN is the command's (R930, R933). -/
def CmdSpec.lenOk (k : CmdSpec) (c : Cmd) (len : Nat) (ext : Bool) : Bool :=
  len % 8 == 0 && decide (len ≤ if ext then 16781312 else 1952) &&
  len == (k.tailAt + k.tailLen c.v len + 7) / 8 * 8

/-- More than one stack is out of service (R478). -/
def State.hbmGone (s : State) : Bool := decide (2 ≤ ((List.range 8).filter fun k => (s.stack k).st == 3).length)

/-- An external payload, or its absence, is in order (R929, R930). -/
def State.payloadOk (s : State) (m addr len : Nat) (ext : Bool) : Bool :=
  if !ext then addr == 0
  else addr % 8 == 0 && (s.hbmGone || (s.userHbmOk addr len && (decide (56 ≤ m) || s.inPartHbm (m / 7) addr len)))

/-- The offsets of the header's bad fields (R929, R930). -/
def State.badHeader (s : State) (c : Cmd) : List Nat :=
  let w0 := headerWord c.header 0
  let ext := bitN w0 17
  let ctr := headerWord c.header 3 % 2 ^ 17
  (if field w0 31 19 ≠ 0 ∨ (ext ∧ (c.m = 56 ∨ c.m = 57)) then [2] else []) ++
  (if field w0 63 57 ≠ 0 then [7] else []) ++
  (if s.payloadOk c.m (headerWord c.header 2) (field w0 56 32) ext then [] else [16]) ++
  (if bitN w0 18 && decide (c.m < 56) && !(s.ownsCtr (c.m / 7) ctr) then [24] else []) ++
  (if headerWord c.header 3 / 2 ^ 17 ≠ 0 then [26] else [])

/-- A byte of the payload belongs to no field. -/
def CmdSpec.skipped (k : CmdSpec) (c : Cmd) (i : Nat) : Bool :=
  !((k.fields.zip c.pos).any fun f => decide (f.2 ≤ i ∧ i < f.2 + f.1.size)) &&
  !(decide (k.tailAt ≤ i ∧ i < k.tailAt + k.tailLen c.v c.payload.length))

/-- The offsets of the payload's bad fields and of its bytes that must be 0 (R932). -/
def CmdSpec.badPayload (k : CmdSpec) (c : Cmd) : List Nat :=
  ((k.fields.zip (c.v.zip c.pos)).filterMap fun f => if f.1.ok f.2.1 then none else some (32 + f.2.2)) ++
  ((c.payload.take k.tailAt ++ (c.payload.drop k.tailAt).drop (k.tailLen c.v c.payload.length)).zipIdx.filterMap fun b =>
    let i := if b.2 < k.tailAt then b.2 else b.2 + k.tailLen c.v c.payload.length
    if b.1 != 0 && k.skipped c i then some (32 + i) else none)

/-- The package's state does not let Sunas serve the command now (R478, R894, R906, R930, R997). -/
def State.gated (s : State) (c : Cmd) : Bool :=
  let ext := bitN (headerWord c.header 0) 17
  let group := c.op / 256
  (decide (c.m < 56) && decide (s.start.stage < 3)) ||
  ((decide (s.start.stage < 1) || s.log.halted) && c.op != 0x0000 && c.op != 0x0901 && c.op != 0x0801) ||
  (ext && decide (s.start.stage < 2)) ||
  (s.hbmGone && (ext || !(decide (8 ≤ group ∧ group ≤ 10))))

/-- The least offset that a reply calls bad. -/
def Reply.badAt : Reply → List Nat
  | .refuse st d => if st = S_BADFIELD then [d] else []
  | .done _ _ => []
  | .failed _ _ => []
  | .wait _ _ => []
  | .own _ => []

def Reply.denies : Reply → Bool
  | .refuse st _ => st == S_DENIED
  | .done _ _ => false
  | .failed _ _ => false
  | .wait _ _ => false
  | .own _ => false

def Reply.misses : Reply → Bool
  | .refuse st _ => st == S_NOTFOUND
  | .done _ _ => false
  | .failed _ _ => false
  | .wait _ _ => false
  | .own _ => false

/-- The reply after the checks that every command has, in the order of R934; `r` is what its own rules answer. -/
def State.judge (s : State) (k : CmdSpec) (c : Cmd) (r : Reply) : Reply :=
  let w0 := headerWord c.header 0
  let len := field w0 56 32
  if !(k.allowed c) then .denied
  else if decide (k.tailAt ≤ len) && r.denies then .denied
  else if !(k.lenOk c len (bitN w0 17)) then .refuse S_BADLEN 0
  else match leastOf (s.badHeader c ++ (if s.hbmGone && bitN w0 17 then [] else k.badPayload c ++ r.badAt)) with
    | some d => .refuse S_BADFIELD d
    | none => if r.misses then r else if s.gated c then .busy else r

/-- Carry a reply out for mailbox m. -/
def State.carry (s : State) (m : Nat) : Reply → State
  | .done t p => t.respond m 0 0 p
  | .refuse st d => s.respond m st d []
  | .failed t d => t.respond m S_FAILED d []
  | .wait t w => t.modMbox m fun b => { b with wait := w }
  | .own t => t

/-- Perform the command of mailbox m, where its turn has come and it is the one of `k` (R936). -/
def State.serve (s : State) (k : CmdSpec) (m : Nat) (body : Cmd → State → Reply) : State :=
  if s.nextMbox == some m && (s.mbox m).opcode == k.op then
    let t := s.takeMbox m
    let c := k.read m (s.mbox m).header (s.mbox m).payload
    (t.carry m (t.judge k c (body c t))).drainBad
  else s

/-! ### The maintenance scheduler (R942 to R946) -/

/-- Commands that the scheduler holds. -/
def State.heldCommands (s : State) : Nat := (s.sunas.tickets.filter fun t => t.2.st == 0 && t.2.mbox != 64).length

/-- The ticket of a command's activity. -/
def Cmd.ticket (c : Cmd) (st : Nat) (act : Activity) (res : List Res) (deferred : Bool) : Ticket :=
  ⟨st, c.op, 0, act, res, c.m, c.header, c.payload, deferred⟩

/-- Defer a command's activity, unless NOWAIT is set or nothing could report its end (R943 to R946, R941). -/
def State.deferCmd (s : State) (c : Cmd) (act : Activity) (res : List Res) : Reply :=
  if 64 ≤ s.heldCommands then .busy
  else if c.nowait then .refuse S_CONFLICT 0
  else if s.sunas.notify.isNone then .refuse S_NOTIFY_LOST 0
  else
    let r := s.newTicket (c.ticket 0 act res true)
    .own (r.2.writeResponse c.m S_DEFERRED r.1 [])

/-- Request an activity for a command: perform it, or defer it behind those that it conflicts with. -/
def State.maintain (s : State) (c : Cmd) (act : Activity) (res : List Res) (perform : State → Reply) : Reply :=
  if s.actBlocked act res s.sunas.nextTicket then s.deferCmd c act res else perform s

/-- The end of a deferred activity: the status that its command's rules give becomes its ticket's (R944). -/
def State.endDeferred (s : State) (n : Nat) : Reply → State
  | .done t _ => t.endTicket n 0
  | .refuse st _ => s.endTicket n st
  | .failed t _ => t.endTicket n S_FAILED
  | .wait t _ => t
  | .own t => t

/-- Ticket n runs. -/
def State.startTicket (s : State) (n : Nat) : State :=
  s.modSunas fun u => { u with tickets := u.tickets.map fun t => if t.1 = n then (n, { t.2 with st := 1 }) else t }

end Sys2Proof.Machine
end

