-- ==== Sys2Proof/Machine/SunasGeneral.lean ====
section
/-!
DEFINITION. The Sunas commands of groups 0x00 and 0x01: general, and partitions (R938).
-/
namespace Sys2Proof.Machine

open Sys2Proof

/-! ### General, group 0x00 -/

/-- The code of a partition's state (R938). -/
def PartSt.code : PartSt → Nat
  | .unset => 0 | .stopped => 1 | .running => 2 | .stopping => 3

/-- A partition runs. -/
def State.anyRunning (s : State) : Bool := (List.range 8).any fun p => (s.part p).st == .running

/-- Every partition is STOPPED or UNSET. -/
def State.allStopped (s : State) : Bool := (List.range 8).all fun p => (s.part p).st == .stopped || (s.part p).st == .unset

/-- STATUS: the start status, the place and the partitions' states; an answer confirms a live hand-over (R953). -/
def State.runStatus (_ : Cmd) (s : State) : Reply :=
  .done (s.modSunas fun u => { u with handOver := none })
    (packFields ([(4, s.stStatus), (4, s.plPlace)] ++ (List.range 8).map fun p => (1, (s.part p).st.code)))

def execStatus (m : Fin 64) (s : State) : Out := .next (s.serve kStatus m State.runStatus)

/-- NODE_READY: completes stage 3 (R905). -/
def State.runNodeReady (_ : Cmd) (s : State) : Reply :=
  if 3 ≤ s.start.stage then .ok s else if s.atStage 3 then .ok s.stage4Begin else .busy

def execNodeReady (m : Fin 64) (s : State) : Out := .next (s.serve kNodeReady m State.runNodeReady)

/-- RESTART: the response first, then a start from stage 1 (R914). -/
def State.runRestart (c : Cmd) (s : State) : Reply := .own (s.respond c.m 0 0 []).restart1

def execRestart (m : Fin 64) (s : State) : Out := .next (s.serve kRestart m State.runRestart)

/-- CORE_START: a held core starts in M mode at ENTRY, with nothing carried over but its partition (R586, R904). -/
def State.runCoreStart (c : Cmd) (s : State) : Reply :=
  let h := c.f 0
  let x := s.core h
  c.check [(x.st == 2, 0)] <| .unlessBusy (x.st != 1 || !(s.island islCores).up) <|
    .ok (s.modCore h fun y =>
      (({ Core.reset h with phys := y.phys, spart := y.spart, st := 0, pc := BitVec.ofNat 64 (c.f 1) }).setX 10
        (BitVec.ofNat 64 (c.f 2))).setX 11 (BitVec.ofNat 64 (c.f 3)))

def execCoreStart (m : Fin 64) (s : State) : Out := .next (s.serve kCoreStart m State.runCoreStart)

/-- JOIN (R911). -/
def State.runJoin (_ : Cmd) (s : State) : Reply :=
  .unlessBusy (decide (s.start.stage < 4)) (.ok (s.modStart fun x => { x with joinAsked := true }))

def execJoin (m : Fin 64) (s : State) : Out := .next (s.serve kJoin m State.runJoin)

/-- PLACE_SET: refused while a partition runs (R805). -/
def State.runPlaceSet (c : Cmd) (s : State) : Reply := .unlessBusy s.anyRunning (.ok (s.setPlace (c.f 0) (c.f 1)))

def execPlaceSet (m : Fin 64) (s : State) : Out := .next (s.serve kPlaceSet m State.runPlaceSet)

/-- NOTIFY_SET: the ring lies in HBM (R939). -/
def State.runNotifySet (c : Cmd) (s : State) : Reply :=
  c.check [(!(s.userHbmOk (c.f 0) (64 * 2 ^ c.f 1)), 0)] <|
    .ok (s.modSunas fun u => { u with notify := some (c.f 0, c.f 1, c.f 2) })

def execNotifySet (m : Fin 64) (s : State) : Out := .next (s.serve kNotifySet m State.runNotifySet)

/-! ### Partitions, group 0x01 -/

/-- Some other partition meets a condition. -/
def State.otherPart (s : State) (p : Nat) (f : Part → Bool) : Bool :=
  (List.range 8).any fun q => q != p && (s.part q).st != .unset && f (s.part q)

/-- Two ranges overlap. -/
def overlaps (a n b m : Nat) : Bool := decide (a < b + m ∧ b < a + n ∧ 0 < n ∧ 0 < m)

/-- The counters of PART_SET as one mask of blocks. -/
def Cmd.cnt (c : Cmd) : Nat := c.f 4 + c.f 5 * 2 ^ 64

/-- Two masks share a bit below n. -/
def maskMeets (n a b : Nat) : Bool := (List.range n).any fun i => bitN a i && bitN b i

/-- A ring's slots and records lie in its partition's memory (R1110). -/
def State.ringRange (s : State) (t p : Nat) (base sizeLog2 : Nat) (bytes : Nat) : Bool := s.inProgRange t p base (bytes * 2 ^ sizeLog2)

/-- Disable every enabled ring of a partition that now leaves its memory (R1110). -/
def State.ringsOutside (s : State) (p : Nat) : State :=
  s.forN 4 fun s t =>
    ((s.tile t).rings.filter fun r => r.2.enable && r.2.partition == p &&
        !(s.ringRange t p r.2.base r.2.sizeLog2 64 && s.ringRange t p r.2.cbase r.2.csizeLog2 32)).foldl
      (fun s r => s.modRing t r.1 fun x => { x with enable := false }) s

/-- A new partition's buckets are full (R447). -/
def State.fillBuckets (s : State) (p : Nat) : State :=
  s.forN 8 fun s k => s.modStack k fun x =>
    { x with regs := Tbl.upd Regulator.reset x.regs p fun r => { r with tokens := 2 ^ r.burstLog2, since := s.timeNs } }

/-- PART_SET. -/
def State.runPartSet (c : Cmd) (s : State) : Reply :=
  let p := c.f 0
  let base := c.f 6
  let len := c.f 7
  c.check
    [((List.range 16).any (fun i => bitN (c.f 1) i && (s.arr (i / 4) (i % 4)).retired) || s.otherPart p (fun q => maskMeets 16 q.arrays (c.f 1)), 1),
     ((List.range 64).any (fun h => bitN (c.f 3) h && (s.core h).st == 2) || s.otherPart p (fun q => maskMeets 64 q.cores (c.f 3)), 3),
     (s.otherPart p (fun q => maskMeets 64 q.cnt (c.f 4)), 4),
     (s.otherPart p (fun q => maskMeets 64 (q.cnt / 2 ^ 64) (c.f 5)), 5),
     (!(s.userHbmOk base len) || s.otherPart p (fun q => overlaps base len q.hbmBase q.hbmLen), 6)] <|
  .unlessBusy ((s.part p).st == .running || (s.part p).st == .stopping) <|
    let created := (s.part p).st == .unset
    let t := s.modPart p fun x =>
      { x with st := .stopped, arrays := c.f 1, job := c.f 2, cores := c.f 3, cnt := c.cnt, hbmBase := base, hbmLen := len }
    let t := t.forN 64 fun t h => if bitN (c.f 3) h then t.modCore h fun x => { x with spart := p } else t
    let t : State := { t with counters := t.counters.filter fun n => !(bitN c.cnt (n.1 / 1024)) }
    let t := (if created then t.fillBuckets p else t).ringsOutside p
    .ok ((t.keysFrom s).updSafe)

def execPartSet (m : Fin 64) (s : State) : Out := .next (s.serve kPartSet m State.runPartSet)

/-- PART_START: STOPPED to RUNNING, but not while a package evacuation is requested (R1098). -/
def State.runPartStart (c : Cmd) (s : State) : Reply :=
  .unlessBusy ((s.part (c.f 0)).st != .stopped || s.power.pkgEvac) (.ok (s.modPart (c.f 0) fun x => { x with st := .running }).updSafe)

def execPartStart (m : Fin 64) (s : State) : Out := .next (s.serve kPartStart m State.runPartStart)

/-- The response of mailbox m waits for the last entry of partition p. -/
def State.awaitStop (s : State) (m p : Nat) : State := s.modMbox m fun b => { b with wait := .partStop p }

/-- PART_STOP: RUNNING to STOPPING, and STOPPED with the last entry. -/
def State.runPartStop (c : Cmd) (s : State) : Reply :=
  let p := c.f 0
  .unlessBusy ((s.part p).st != .running) <|
    .own (((s.awaitStop c.m p).modPart p fun x => { x with st := .stopping }).partSettle p)

def execPartStop (m : Fin 64) (s : State) : Out := .next (s.serve kPartStop m State.runPartStop)

/-- PART_RESET (R375, R489, R870, R213). -/
def State.runPartReset (c : Cmd) (s : State) : Reply :=
  let p := c.f 0
  .unlessBusy ((s.part p).st == .unset) (.own ((s.awaitStop c.m p).partReset p))

def execPartReset (m : Fin 64) (s : State) : Out := .next (s.serve kPartReset m State.runPartReset)

/-- KEY_SET (R830, R831). -/
def State.runKeySet (c : Cmd) (s : State) : Reply :=
  let p := c.f 0
  let declared := fun (v : Nat) => decide (v ≤ 3) || v == 15
  c.check
    [(c.f 2 == 1 || c.f 2 == 2 || decide (9 ≤ c.f 2 ∧ c.f 2 ≤ 14), 2), (!(declared (c.f 3)), 3), (!(declared (c.f 4)), 4)] <|
  .unlessBusy ((s.part p).st == .running) <|
    .ok ((s.modPart p fun x =>
      { x with lib := c.f 1, slices := c.f 2, alg := c.f 3, conv := c.f 4, rorder := c.f 5 }).keysFrom s)

def execKeySet (m : Fin 64) (s : State) : Out := .next (s.serve kKeySet m State.runKeySet)

/-- KEY_GET (R838). -/
def State.runKeyGet (c : Cmd) (s : State) : Reply := .done s (leBytes 8 (s.reproKey (c.f 0)))

def execKeyGet (m : Fin 64) (s : State) : Out := .next (s.serve kKeyGet m State.runKeyGet)

end Sys2Proof.Machine
end

