-- ==== Sys2Proof/Machine/SunasFabric.lean ====
section
/-!
DEFINITION. The Sunas commands of group 0x03: ports, modules, the place tables, exports, replicas, windows and
connections.
-/
namespace Sys2Proof.Machine

open Sys2Proof

/-! ### Ports and modules -/

/-- The groups whose role a setting changes, as port numbers. -/
def State.changedPorts (s : State) (hall : Nat) : List Nat :=
  (List.range 24).filter fun k => bitN hall (k / 4) != bitN s.optics.hallGroups (k / 4)

/-- A role setting that R739 refuses: more than four domain groups, or domain groups with a gap. -/
def rolesBad (hall : Nat) : Bool :=
  let dom := (List.range 6).filter fun g => !(bitN hall g)
  decide (4 < dom.length) || dom != List.range dom.length

/-- Give the groups their roles: every port of a changed group leaves service and trains from DETECT (R741). -/
def State.setRoles (s : State) (hall : Nat) : State :=
  let ports := (s.changedPorts hall).filter fun k => (s.port k).st != stOff
  let t := ports.foldl (fun t k => t.leaveActive k (t.port k).startSt) s
  let t : State := { t with optics := { t.optics with hallGroups := hall } }
  ports.foldl (fun t k => t.portStart k) t

/-- PORT_ROLES: activity ROLES (R739, R741). -/
def State.runPortRoles (c : Cmd) (s : State) : Reply :=
  c.check [(rolesBad (c.f 0), 0)] <| .unlessBusy (!s.allStopped) <|
    s.maintain c .roles ((s.changedPorts (c.f 0)).map .port) fun s => .ok (s.setRoles (c.f 0))

def execPortRoles (m : Fin 64) (s : State) : Out := .next (s.serve kPortRoles m State.runPortRoles)

/-- The ports of a mask. -/
def maskPorts (mask : Nat) : List Nat := (List.range 24).filter (bitN mask)

/-- LANE_LIMIT (R775). -/
def State.runLaneLimit (c : Cmd) (s : State) : Reply :=
  .ok ((maskPorts (c.f 0)).foldl (fun s k => s.modPort k fun p => { p with serLimit := c.f 1 }) s)

def execLaneLimit (m : Fin 64) (s : State) : Out := .next (s.serve kLaneLimit m State.runLaneLimit)

/-- Clear each port's failure count and train it from DETECT (R772); one that trains already goes on (R943). -/
def State.retrain (s : State) (mask : Nat) : State :=
  (maskPorts mask).foldl (fun s k =>
    let s := s.modPort k fun p => { p with fails := 0 }
    if (s.port k).training then s else s.portOut k) s

/-- PORT_RETRAIN: activity RETRAIN on each port; the response waits for its end. -/
def State.runPortRetrain (c : Cmd) (s : State) : Reply :=
  let res := (maskPorts (c.f 0)).map Res.port
  .unlessBusy ((maskPorts (c.f 0)).any fun k => (s.port k).st == stOff) <|
    s.maintain c .retrain res fun s =>
      let r := s.newTicket (c.ticket 1 .retrain res false)
      let t := r.2.modMbox c.m fun b => { b with wait := .activity r.1 }
      .own (t.retrain (c.f 0)).retrainsEnd

def execPortRetrain (m : Fin 64) (s : State) : Out := .next (s.serve kPortRetrain m State.runPortRetrain)

/-- LASER_EVACUATE: activity EVAC (R788); before stage 4 completes the request is held (R917). -/
def State.runLaserEvacuate (c : Cmd) (s : State) : Reply :=
  if s.start.stage < 4 then s.deferCmd c .evac (evacRes (c.f 0))
  else s.maintain c .evac (evacRes (c.f 0)) fun s => .ok (s.evacuate (c.f 0))

def execLaserEvacuate (m : Fin 64) (s : State) : Out := .next (s.serve kLaserEvacuate m State.runLaserEvacuate)

/-! ### The place tables (R597, R808 to R815) -/

/-- Open connections to places that `f` accepts fail (R814). -/
def State.failConns (s : State) (f : Nat → Bool) : State :=
  (s.net.conns.filter fun c => c.2.st == 1 && f c.2.place).foldl (fun s c => s.connFail c.1) s

/-- Set a hall entry (`PL_FLAGS.TABLE`). -/
def State.setHall (s : State) (i : Nat) (h : Hall) : State :=
  let old := (Tbl.get Hall.reset s.places.halls i).st
  let t : State := { s with places := { s.places with halls := Tbl.set s.places.halls i h } }
  let t := t.setFlagIf (old != h.st) lnPl 0
  if old = 1 ∧ h.st ≠ 1 then t.failConns fun p => hallOf p == i else t

/-- Set a domain entry of the own hall. -/
def State.setDomain (s : State) (i st : Nat) : State :=
  let old := Tbl.get 0 s.places.domains i
  let t : State := { s with places := { s.places with domains := Tbl.set s.places.domains i st } }
  let t := t.setFlagIf (old != st) lnPl 0
  if old = 1 ∧ st ≠ 1 then t.failConns fun p => s.places.valid && hallOf p == hallOf s.places.place && domainOf p == i else t

/-- Set a slot entry: its mask is what this package's ports leave of PLANES, and without a plane another slot is
unreachable (R597, R614). What is outstanding on a plane that leaves the mask is sent again or fails (R642), and a slot
that leaves the reachable state is handled under R645. -/
def State.setSlot (s : State) (i st place : Nat) (planes : W16) (peer : List Export) : State :=
  let had := (s.slot i).mask
  let mask := planes &&& s.planesUp
  let now := if st = 1 ∧ mask = 0 ∧ s.ownSlot ≠ some i then 2 else st
  let was := (s.slot i).st
  let gone := fun (h : Nat) => bitN had.toNat h && !(bitN mask.toNat h)
  let adds := (s.net.ops.filter fun o => o.domain && o.addSt == .sent && apSlot o.addr == i && (planeOf had o.addr).any gone).map (·.id)
  let t := s.modNet fun n =>
    { n with slots := Tbl.upd Slot.reset n.slots i fun x => { x with place := place, mask := mask, cfgSt := st, cfgMask := planes },
             cached := Tbl.set n.cached i peer }
  let t := if had = mask then t else t.modNet fun n => { n with respreads := sat32 (n.respreads + 1) }
  let t := t.setSlotSt i now
  if was = 1 ∧ now ≠ 1 then t.slotLost i
  else (t.losePieces (fun o p => apSlot (o.addr + p.off) == i && gone p.plane) false).loseAdds fun o => adds.contains o.id

/-- TABLE_SET (R812, R813). `peer` holds the export entries that the slot's member shows this package (DESIGN CHOICE,
log entry 23). -/
def State.runTableSet (peer : List Export) (c : Cmd) (s : State) : Reply :=
  let kind := c.f 0
  let own := s.places.valid && kind == 0 && hallOf s.places.place == c.f 1
  let lacks := fun i => c.f i != 0
  c.check
    [(decide (kind = 0 ∧ 32 ≤ c.f 1) || decide (kind = 2 ∧ 128 ≤ c.f 1), 1), (own && c.f 2 != 1, 2), (kind != 0 && lacks 3, 3),
     ((kind != 0 && lacks 4) || (own && c.f 4 != 0), 4), (kind != 0 && lacks 5, 5), (kind != 2 && lacks 6, 6), (kind != 2 && lacks 7, 7)] <|
    .ok (if kind = 0 then s.setHall (c.f 1) ⟨c.f 2, c.f 3, c.f 4, c.f 5⟩
      else if kind = 1 then s.setDomain (c.f 1) (c.f 2)
      else s.setSlot (c.f 1) (c.f 2) (c.f 7) (BitVec.ofNat 16 (c.f 6)) peer)

def execTableSet (m : Fin 64) (peer : List Export) (s : State) : Out := .next (s.serve kTableSet m (State.runTableSet peer))

/-! ### Exports and replicas (R599 to R605, R634, R641) -/

/-- A range lies in the HBM of partition p. -/
def State.inPartition (s : State) (p a n : Nat) : Bool :=
  decide ((s.part p).hbmBase ≤ a ∧ a + n ≤ (s.part p).hbmBase + (s.part p).hbmLen) && s.userHbmOk a n

/-- Blocks of counters belong to partition p. -/
def State.ownsBlocks (s : State) (p first count : Nat) : Bool :=
  (List.range count).all fun i => decide (first / 1024 + i < 128) && bitN (s.part p).cnt (first / 1024 + i)

/-- EXPORT_SET: an entry outside its partition, one that overlaps another of its job, and a fifth of one job are refused
(R601, R602); VALID 0 withdraws (R605). -/
def State.runExportSet (c : Cmd) (s : State) : Reply :=
  let i := c.f 0
  let others := (s.net.exports.filter fun e => e.1 != i && e.2.valid && e.2.job == c.f 3).map (·.2)
  let on := c.on 1
  c.check
    [(on && decide (4 ≤ others.length), 3),
     (on && (!(s.inPartition (c.f 2) (c.f 5) (c.f 6)) || others.any fun e => overlaps e.base e.len (c.f 5) (c.f 6)), 5),
     (on && !(s.ownsBlocks (c.f 2) (c.f 7) (c.f 8)), 7)] <|
    .ok (s.modNet fun n =>
      { n with exports := Tbl.set n.exports i ⟨on, c.f 2, c.f 3, c.f 4, c.f 5, c.f 6, c.f 7, c.f 8⟩ })

def execExportSet (m : Fin 64) (s : State) : Out := .next (s.serve kExportSet m State.runExportSet)

/-- REPLICA_SET (R634). -/
def State.runReplicaSet (c : Cmd) (s : State) : Reply :=
  c.check [(c.on 1 && decide (2 ^ 39 < c.f 4 + c.f 5), 4), (c.on 1 && !(s.inPartition (c.f 2) (c.f 6) (c.f 5)), 6)] <|
    .ok (s.modNet fun n => { n with replicas := Tbl.set n.replicas (c.f 0) ⟨c.on 1, c.f 2, c.f 3, c.f 4, c.f 5, c.f 6⟩ })

def execReplicaSet (m : Fin 64) (s : State) : Out := .next (s.serve kReplicaSet m State.runReplicaSet)

/-- DOMAIN_TIMEOUT (R641). -/
def State.runDomainTimeout (c : Cmd) (s : State) : Reply := .ok (s.modNet fun n => { n with timeoutUs := c.f 0 })

def execDomainTimeout (m : Fin 64) (s : State) : Out := .next (s.serve kDomainTimeout m State.runDomainTimeout)

/-! ### Windows (R659, R660, R663) -/

/-- Send an invalidation of window w on each connection that caches it (R663, step 1). -/
def State.invalidate (s : State) (w : Nat) (conns : List Nat) : State :=
  conns.foldl (fun s k =>
    ((s.modConn k fun x => { x with peerCaches := x.peerCaches.filter (· != w) }).emit (.xpInvalidate k w)).sendPacket k (2 ^ 48 + w) 0) s

/-- WINDOW_SET: a registration advances GEN and returns it; VALID 0 revokes. -/
def State.runWindowSet (c : Cmd) (s : State) : Reply :=
  let w := c.f 0
  let old := s.window w
  let on := c.on 1
  if old.valid && c.foreign old.partition then .denied
  else c.check [(on && !(s.inPartition (c.f 2) (c.f 5) (c.f 6)) && c.f 6 != 0, 5), (on && !(s.ownsBlocks (c.f 2) (c.f 7) (c.f 8)), 7)] <|
    if on || !old.valid then
      let gen := (old.gen + 1) % 65536
      let x : Window := ⟨on, false, c.f 2, c.f 3, c.f 4, c.f 5, c.f 6, c.f 7, c.f 8, gen⟩
      .done (s.modNet fun n => { n with windows := Tbl.set n.windows w x }) (leBytes 2 gen)
    else
      let conns := (s.net.conns.filter fun k => k.2.st == 1 && k.2.peerCaches.contains w).map (·.1)
      if conns = [] then .own (s.revoked c.m w)
      else .wait ((s.modNet fun n =>
        { n with windows := Tbl.set n.windows w { old with revoking := true } }).invalidate w conns) (.revoke w conns)

def execWindowSet (m : Fin 64) (s : State) : Out := .next (s.serve kWindowSet m State.runWindowSet)

/-! ### Connections (R664 to R666, R684) -/

/-- The entry that an open takes: the failed connection of the partition to the place, which is reopened, else the lowest
free one. -/
def State.connSlot (s : State) (p place : Nat) : Nat :=
  match s.net.conns.find? fun c => c.2.st == 2 && c.2.partition == p && c.2.place == place with
  | some c => c.1
  | none => ((List.range (s.net.conns.length + 1)).find? fun c => (s.conn c).st == 0).getD s.net.conns.length

/-- The hall port a new connection is pinned to (R682): the lowest in ACTIVE. -/
def State.hallPick (s : State) : Nat :=
  ((List.range 24).find? fun k => s.hallPort k && (s.port k).st == stActive).getD
    (((List.range 24).find? fun k => s.hallPort k).getD 16)

/-- CONN_OPEN. -/
def State.runConnOpen (c : Cmd) (s : State) : Reply :=
  let k := s.connSlot (c.f 0) (c.f 1)
  c.check [(!(s.placeReachable (c.f 1)), 1)] <|
    if 65536 ≤ k then .refuse S_TABLE_FULL 0
    else .done (s.modConn k fun _ =>
      { Conn.reset with st := 1, partition := c.f 0, place := c.f 1, port := s.hallPick,
                        timeoutMs := if c.f 2 = 0 then 100 else c.f 2 }) (leBytes 2 k)

def execConnOpen (m : Fin 64) (s : State) : Out := .next (s.serve kConnOpen m State.runConnOpen)

/-- CONN_CLOSE: the response waits for the outstanding operations; a failed connection has none. -/
def State.runConnClose (c : Cmd) (s : State) : Reply :=
  let k := c.f 0
  let x := s.conn k
  if x.st != 0 && c.foreign x.partition then .denied
  else if x.st = 0 then .notFound
  else if x.st = 2 then .ok (s.modConn k fun _ => Conn.reset)
  else .own (((s.modMbox c.m fun b => { b with wait := .connClose k }).modConn k fun y => { y with closing := true }).connSettle k)

def execConnClose (m : Fin 64) (s : State) : Out := .next (s.serve kConnClose m State.runConnClose)

/-- CONN_TIMEOUT: at least four times the measured round trip (R684). -/
def State.runConnTimeout (c : Cmd) (s : State) : Reply :=
  let k := c.f 0
  let x := s.conn k
  if x.st != 0 && c.foreign x.partition then .denied
  else c.check [(x.st != 0 && decide (c.f 1 * 1000 < 4 * x.srttUs), 1)] <|
    if x.st = 0 then .notFound else .ok (s.modConn k fun y => { y with timeoutMs := c.f 1 })

def execConnTimeout (m : Fin 64) (s : State) : Out := .next (s.serve kConnTimeout m State.runConnTimeout)

end Sys2Proof.Machine
end

