-- ==== Sys2Proof/Machine/SunasMemory.lean ====
section
/-!
DEFINITION. The Sunas commands of group 0x02: memory (R430, R442, R446, R463, R470, R475).
-/
namespace Sys2Proof.Machine

open Sys2Proof

/-- Apply a change to the stacks of a mask. -/
def State.onStacks (s : State) (mask : Nat) (f : Stack → Stack) : State :=
  s.forN 8 fun s k => if bitN mask k then s.modStack k f else s

/-- The interleave mode changes: the contents of HBM are undefined (R430), and each poisoned sector keeps its place in its
stack. -/
def State.setInterleave (s : State) (mode : Nat) : State :=
  if s.hbm.mode = mode then s
  else
    let t := s.scramble 0 (2 ^ 39)
    s.movePoison { t with hbm := { t.hbm with mode := mode } }

/-- MEM_INTERLEAVE: the stored mode before stage 2 completes (R901), and otherwise the mode in force. -/
def State.runMemInterleave (c : Cmd) (s : State) : Reply :=
  if s.start.stage < 2 then .ok (s.modStart fun x => { x with storedMode := c.f 0 })
  else .unlessBusy (!s.allStopped) (.ok (s.setInterleave (c.f 0)))

def execMemInterleave (m : Fin 64) (s : State) : Out := .next (s.serve kMemInterleave m State.runMemInterleave)

/-- The sum of GUAR on a stack, with partition p at `guar` (R446). -/
def Stack.guarSum (k : Stack) (p guar : Nat) : Nat := ((List.range 8).map fun q => if q = p then guar else (k.reg q).guar).sum

/-- A regulator's new setting: its tokens are brought up to now under the old one (R447). -/
def Stack.regulate (k : Stack) (now p : Nat) (f : Regulator → Regulator) : Stack :=
  { k with regs := Tbl.upd Regulator.reset k.regs p fun r => f { r with tokens := r.level now k.throttled, since := now } }

/-- MEM_REGULATOR (R445, R446). -/
def State.runMemRegulator (c : Cmd) (s : State) : Reply :=
  c.check
    [(decide (c.f 3 < c.f 2) || (List.range 8).any fun k => bitN (c.f 0) k && decide (256 < (s.stack k).guarSum (c.f 1) (c.f 2)), 2)] <|
    .ok (s.onStacks (c.f 0) fun k =>
      k.regulate s.timeNs (c.f 1) fun r => { r with guar := c.f 2, cap := c.f 3, burstLog2 := c.f 4 })

def execMemRegulator (m : Fin 64) (s : State) : Out := .next (s.serve kMemRegulator m State.runMemRegulator)

/-- MEM_BLOCK_MODE: of a STOPPED partition (R442). -/
def State.runMemBlockMode (c : Cmd) (s : State) : Reply :=
  .unlessBusy ((s.part (c.f 0)).st != .stopped) <|
    .ok (s.onStacks 0xFF fun k => { k with regs := Tbl.upd Regulator.reset k.regs (c.f 0) fun r => { r with blockMode := c.on 1 } })

def execMemBlockMode (m : Fin 64) (s : State) : Out := .next (s.serve kMemBlockMode m State.runMemBlockMode)

/-- MEM_UE_LIMIT (R475). -/
def State.runMemUeLimit (c : Cmd) (s : State) : Reply := .ok (s.onStacks (c.f 0) fun k => { k with ueLimit := c.f 1 })

def execMemUeLimit (m : Fin 64) (s : State) : Out := .next (s.serve kMemUeLimit m State.runMemUeLimit)

/-- MEM_SCRUB (R463). -/
def State.runMemScrub (c : Cmd) (s : State) : Reply :=
  .ok (s.onStacks (c.f 0) fun k => { k with scrubEnable := c.on 1, scrubPeriod := c.f 2 })

def execMemScrub (m : Fin 64) (s : State) : Out := .next (s.serve kMemScrub m State.runMemScrub)

/-- The stack and the row whose report has a number and is pending (R470). -/
def State.pendingReport (s : State) (n : Nat) : Option (Nat × Nat) :=
  ((List.range 8).flatMap fun k => (s.stack k).reported.filterMap fun q => if q.2 == n && n != 0 then some (k, q.1) else none).head?

/-- ROW_ACK: the reported row is fenced. -/
def State.runRowAck (c : Cmd) (s : State) : Reply :=
  match s.pendingReport (c.f 0) with
  | some (k, r) => .ok (s.rowFence k r)
  | none => .notFound

def execRowAck (m : Fin 64) (s : State) : Out := .next (s.serve kRowAck m State.runRowAck)

/-- RETIRE_READ: the SA of each retired row, 0 beyond those used. -/
def State.runRetireRead (c : Cmd) (s : State) : Reply :=
  .done s ((List.range (c.f 2)).flatMap fun i =>
    leBytes 8 (match (s.stack (c.f 0)).retired[c.f 1 + i]? with
      | some r => rowSector r 0
      | none => 0))

def execRetireRead (m : Fin 64) (s : State) : Out := .next (s.serve kRetireRead m State.runRetireRead)

end Sys2Proof.Machine
end

