-- ==== Sys2Proof/Machine/SunasViews.lean ====
section
/-!
DEFINITION. The Sunas commands of groups 0x04 to 0x06: Winnow views, Husk, rings and groups.
-/
namespace Sys2Proof.Machine

open Sys2Proof

/-- S_BADFIELD for the first of the payload offsets whose condition holds, else the reply. -/
def checkAt (conds : List (Bool × Nat)) (r : Reply) : Reply :=
  match leastOf ((conds.filter fun x => x.1).map (·.2)) with
  | some p => .refuse S_BADFIELD (32 + p)
  | none => r

/-! ### Views, group 0x04 (R487 to R491, R524) -/

/-- One of n rows of `len` bytes, `stride` apart from `base`, meets the range [lo, hi). -/
def rowsMeet (base stride len n lo hi : Nat) : Bool :=
  let i := if lo < base + len ∨ stride = 0 then 0 else (lo - len - base) / stride + 1
  decide (i < n ∧ base + i * stride < hi ∧ lo < base + i * stride + len)

/-- The addresses of HBM that no stack in service holds (R438). -/
def State.hbmHoles (s : State) : List (Nat × Nat) :=
  let ends := 0 :: s.hbmRanges.map (·.2)
  (ends.zip ((s.hbmRanges.map (·.1)) ++ [2 ^ 64])).filter fun r => decide (r.1 < r.2)

/-- The source rows of a view lie in its partition's HBM. -/
def State.viewSourceOk (s : State) (d : List W64) : Bool :=
  let x := s.part (viewOwner d)
  let len := vRowLen d * ((vSrc d).bits / 8)
  let last := vBase d + (vRows d - 1) * vRstride d + len
  decide (x.hbmBase ≤ vBase d ∧ last ≤ x.hbmBase + x.hbmLen ∧ last ≤ s.reserveBase) &&
    !(s.hbmHoles.any fun h => rowsMeet (vBase d) (vRstride d) len (vRows d) h.1 h.2)

/-- What R488 refuses in a descriptor, by offset in the payload: word w begins at 8 + 8w. -/
def State.viewBad (s : State) (d : List W64) : List (Bool × Nat) :=
  let w0 := vw d 0
  let elt := (vSrc d).bits / 8
  let fp8 := vTgt d == .e4m3 || vTgt d == .e5m2
  let mx := (vTgt d).isMx
  [(w0 % 16 != 0 && w0 % 16 != 1, 8), (decide (vTgtCode d = 0 ∨ 9 < vTgtCode d), 8),
   (if vScaleMode d then vFixed d == 0xFF else vFixed d != 0, 9),
   (decide (3 < vConv d) || ((vConv d == 1 || vConv d == 3) && !fp8), 10), ((vAxis d || vScaleMode d) && !mx, 10),
   (field w0 23 22 != 0, 10), (field w0 27 25 != 0, 11), (decide (2 ^ 32 ≤ w0), 12),
   (vBase d % elt != 0 || !(s.viewSourceOk d), 16), (decide (2 ^ 48 ≤ vw d 1), 22),
   (vRstride d % elt != 0 || decide (vRstride d < vRowLen d * elt), 24), (decide (2 ^ 40 ≤ vw d 2), 29),
   (decide (vRowLen d = 0 ∨ 16777216 < vRowLen d) || decide (0xC0000000 < vTgtBytes d) || decide (0x40000000 < vScaleBytes d), 32),
   (decide (vRows d = 0 ∨ 2 ^ 31 < vRows d), 36), (vw d 4 != 0, 40), (vw d 5 != 0, 48), (vw d 6 != 0, 56), (vw d 7 != 0, 64)]

/-- Change the counts of a view on every Tiller. -/
def State.modViewCounts (s : State) (v : Nat) (f : ViewCounts → ViewCounts) : State :=
  s.forN 4 fun s t => s.modTile t fun x => { x with viewCounts := Tbl.upd ViewCounts.zero x.viewCounts v f }

/-- The five counts cleared (R524). -/
def ViewCounts.clear (c : ViewCounts) : ViewCounts := { ViewCounts.zero with srcBytes := c.srcBytes }

/-- A view in use belongs to another partition than the mailbox's. -/
def State.viewForeign (s : State) (c : Cmd) : Bool := viewOn (s.view (c.f 0)) && c.foreign (viewOwner (s.view (c.f 0)))

/-- VIEW_SET. -/
def State.runViewSet (c : Cmd) (s : State) : Reply :=
  let d := (List.range 8).map fun i => BitVec.ofNat 64 (c.f (i + 1))
  if s.viewForeign c || c.foreign (viewOwner d) then .denied
  else checkAt (s.viewBad d) <|
    let word4 := BitVec.ofNat 64 (vTstride d * 2 ^ 32 + vSstride d)
    let t : State := { s with views := Tbl.set s.views (c.f 0) (d.set 4 word4) }
    .done (t.modViewCounts (c.f 0) ViewCounts.clear) (packFields [(4, vTstride d), (4, vSstride d)])

def execViewSet (m : Fin 64) (s : State) : Out := .next (s.serve kViewSet m State.runViewSet)

/-- VIEW_COUNTS: each count summed over the Tillers. -/
def State.runViewCounts (c : Cmd) (s : State) : Reply :=
  let sum := fun (f : ViewCounts → Nat) => sat32 (((List.range 4).map fun t => f (Tbl.get ViewCounts.zero (s.tile t).viewCounts (c.f 0))).sum)
  if s.viewForeign c then .denied
  else .done (s.modViewCounts (c.f 0) ViewCounts.clear)
    (packFields [(4, sum ViewCounts.sat), (4, sum ViewCounts.nan), (4, sum ViewCounts.uf), (4, sum ViewCounts.wovf), (4, sum ViewCounts.wnan)])

def execViewCounts (m : Fin 64) (s : State) : Out := .next (s.serve kViewCounts m State.runViewCounts)

/-! ### Husk, group 0x05 (R843 to R882) -/

/-- The regions of HUSK_CONFIG: NREG pairs of BASE and LEN. -/
def Cmd.regions (c : Cmd) : List (Nat × Nat) :=
  (List.range (c.f 4)).map fun i => (payloadField c.tail (16 * i) 8, payloadField c.tail (16 * i + 8) 8)

/-- The configuration that HUSK_CONFIG gives. -/
def Cmd.huskCfg (c : Cmd) : HuskCfg :=
  { mode := c.f 1, regions := c.regions, resBase := c.f 10, resLen := c.f 11, stallUs := c.f 6, shardLog2 := c.f 2, destPlace := c.f 7,
    destWindow := c.f 5, destOff0 := c.f 12, destOff1 := c.f 13, manOff0 := c.f 14, manOff1 := c.f 15, trigEn := c.on 3, trigCtr := c.f 8,
    doneCtr := c.f 9 }

/-- Shards of a configuration. -/
def HuskCfg.shardCount (x : HuskCfg) : Nat := (x.regions.map fun r => (r.2 + 2 ^ x.shardLog2 - 1) / 2 ^ x.shardLog2).sum

/-- Region i leaves the partition, is not aligned, or overlaps the reserve or an earlier region (R843, R844). -/
def State.regionBad (s : State) (p : Nat) (x : HuskCfg) (i : Nat) : Bool :=
  let r := x.regions.getD i (0, 0)
  r.1 % 65536 != 0 || r.2 % 65536 != 0 || !(s.inPartition p r.1 r.2) || overlaps r.1 r.2 x.resBase x.resLen ||
  (x.regions.take i).any fun q => overlaps r.1 r.2 q.1 q.2

/-- A stack that holds region bytes holds less than 1 MiB of the reserve (R844). -/
def State.reserveThin (s : State) (x : HuskCfg) : Bool :=
  s.stacksUp.any fun k => x.regions.any (fun r => decide (0 < s.bytesOn r.1 r.2 k)) && decide (s.bytesOn x.resBase x.resLen k < 0x100000)

/-- HUSK_CONFIG. -/
def State.runHuskConfig (c : Cmd) (s : State) : Reply :=
  let p := c.f 0
  let x := c.huskCfg
  let owns := fun n => s.ownsCtr p n
  checkAt
    ([(decide (32768 < x.shardCount), c.pos.getD 2 0), ((s.connTo p x.destPlace).isNone, c.pos.getD 7 0),
      (!(owns x.trigCtr), c.pos.getD 8 0), (!(owns x.doneCtr), c.pos.getD 9 0),
      (!(s.inPartition p x.resBase x.resLen), c.pos.getD 10 0), (s.reserveThin x, c.pos.getD 11 0)] ++
     (List.range (c.f 4)).map fun i => (s.regionBad p x i, 72 + 16 * i)) <|
  .unlessBusy (decide (1 < (s.husk p).st)) <|
    .ok (s.modHusk p fun h => { h with cfg := some x, st := 1, trigNext := 1, snapId := 0 })

def execHuskConfig (m : Fin 64) (s : State) : Out := .next (s.serve kHuskConfig m State.runHuskConfig)

/-- HUSK_FREEZE: the response waits for the point (R849, R850). -/
def State.runHuskFreeze (c : Cmd) (s : State) : Reply :=
  .unlessBusy (!(s.huskCanFreeze (c.f 0))) (.wait (s.huskFreeze (c.f 0) (c.f 1)) (.freeze (c.f 0)))

def execHuskFreeze (m : Fin 64) (s : State) : Out := .next (s.serve kHuskFreeze m State.runHuskFreeze)

/-- HUSK_ABANDON: in FREEZING and DRAINING (R870). -/
def State.runHuskAbandon (c : Cmd) (s : State) : Reply :=
  let st := (s.husk (c.f 0)).st
  .unlessBusy (st != 2 && st != 3) (.ok (s.huskAbandon (c.f 0) "HUSK_ABANDONED"))

def execHuskAbandon (m : Fin 64) (s : State) : Out := .next (s.serve kHuskAbandon m State.runHuskAbandon)

/-- HUSK_COMMIT: DRAINED to COMMITTED (R873). -/
def State.runHuskCommit (c : Cmd) (s : State) : Reply :=
  .unlessBusy ((s.husk (c.f 0)).st != 4) (.ok ((s.modHusk (c.f 0) fun h => { h with st := 5 }).huskLog (c.f 0) "HUSK_COMMITTED"))

def execHuskCommit (m : Fin 64) (s : State) : Out := .next (s.serve kHuskCommit m State.runHuskCommit)

/-- A rollback may begin: COMMITTED, with the partition stopped (R875). -/
def State.canRollback (s : State) (p : Nat) : Bool := (s.husk p).st == 5 && (s.part p).st == .stopped

/-- The write-back of partition p begins. -/
def State.rollback (s : State) (p : Nat) : State := s.modHusk p fun h => { h with st := 6 }

/-- HUSK_ROLLBACK: activity HUSKRB; the response waits for the end of the write-back. -/
def State.runHuskRollback (c : Cmd) (s : State) : Reply :=
  let p := c.f 0
  .unlessBusy (!(s.canRollback p)) (s.maintain c .huskrb [.partition p] fun s => .wait (s.rollback p) (.rollback p))

def execHuskRollback (m : Fin 64) (s : State) : Out := .next (s.serve kHuskRollback m State.runHuskRollback)

/-- A restore may begin: OFF, ARMED or COMMITTED, with the partition stopped (R877). -/
def State.canRestore (s : State) (p : Nat) : Bool :=
  ((s.husk p).st == 0 || (s.husk p).st == 1 || (s.husk p).st == 5) && (s.part p).st == .stopped

/-- A restore begins: what a committed snapshot saved is freed first. -/
def State.restore (s : State) (c : Cmd) : State :=
  let s := (s.modHusk (c.f 0) fun h =>
    { h with st := 7, parts := [], drainedCount := 0, badShards := 0,
             restore := some ⟨c.f 2, c.f 1, c.f 3, c.f 4, c.f 5, c.f 6, toSigned 64 (c.f 7), [], false, 0⟩ })
  s.releaseHeld (c.f 0)

/-- HUSK_RESTORE: activity HUSKRB; the response comes at acceptance. -/
def State.runHuskRestore (c : Cmd) (s : State) : Reply :=
  let p := c.f 0
  c.check [((s.connTo p (c.f 2)).isNone, 2), (!(s.userHbmOk (c.f 6) 1), 6)] <|
  .unlessBusy (!(s.canRestore p)) (s.maintain c .huskrb [.partition p] fun s => .ok (s.restore c))

def execHuskRestore (m : Fin 64) (s : State) : Out := .next (s.serve kHuskRestore m State.runHuskRestore)

/-! ### Rings and groups, group 0x06 (R359, R375, R692 to R695, R1110) -/

/-- The ring that RING_SET gives: its indices and counts stay. -/
def Cmd.ring (c : Cmd) (x : Ring) : Ring :=
  { x with enable := c.on 2, partition := c.f 3, priority := c.f 4, sizeLog2 := c.f 5, base := c.f 6, csizeLog2 := c.f 7, cbase := c.f 8,
           maxrun := c.f 9, dbctrEn := c.on 10, dbctr := c.f 11, irq := c.f 12 }

/-- RING_SET. -/
def State.runRingSet (c : Cmd) (s : State) : Reply :=
  let t := c.f 0
  let r := c.f 1
  let x := s.ring t r
  let on := c.on 2
  if x.enable && c.foreign x.partition then .denied
  else c.check
    [(on && !(s.ringRange t (c.f 3) (c.f 6) (c.f 5) 64), 6), (on && !(s.ringRange t (c.f 3) (c.f 8) (c.f 7) 32), 8),
     (c.on 10 && !(s.ownsCtr (c.f 3) (c.f 11)), 11)] <|
  .unlessBusy (decide (0 < x.inProgress) && { c.ring x with enable := x.enable } != x) <|
    let s := s.modRing t r c.ring
    .ok (if on then s else s.ringDisable t r)

def execRingSet (m : Fin 64) (s : State) : Out := .next (s.serve kRingSet m State.runRingSet)

/-- The entries of a MEMBERS list. -/
def State.members (s : State) (a n : Nat) : List Nat := (List.range n).map fun i => s.peekN (a + 4 * i) 4

/-- The site of a place. -/
def State.siteOf (s : State) (place : Nat) : Nat := (Tbl.get Hall.reset s.places.halls (hallOf place)).site

/-- SCOPE of a list of members (R692): one domain, one site, or more. -/
def State.scopeOf (s : State) (ms : List Nat) : Nat :=
  let places := ms.map fun x => x % 2 ^ 20
  let first := places.headD 0
  if places.all fun q => q / 128 == first / 128 then 0
  else if places.all fun q => hallOf q == hallOf first || s.siteOf q == s.siteOf first then 1 else 2

/-- Bytes of a group's staging buffer. -/
def groupBytes (depth chunkLog2 : Nat) : Nat := depth * 128 * 2 ^ chunkLog2

/-- Export entries of a partition for its job. -/
def State.ownExports (s : State) (p : Nat) : List Export := (s.exportsOf (s.part p).job).filter fun e => e.partition == p

/-- The buffer is covered for the scope (R693). -/
def State.bufCovered (s : State) (scope p w a n : Nat) : Bool :=
  if scope = 0 then (s.ownExports p).any fun e => decide (e.base ≤ a ∧ a + n ≤ e.base + e.len)
  else decide ((s.window w).base ≤ a ∧ a + n ≤ (s.window w).base + (s.window w).len)

/-- The counter block is covered for the scope (R693). -/
def State.cntCovered (s : State) (scope p w ctr : Nat) : Bool :=
  if scope = 0 then (s.ownExports p).any fun e => e.opens ctr else (s.window w).opens ctr

/-- A window serves a group of partition p: rights P, G and C. -/
def State.groupWindow (s : State) (p w : Nat) : Bool :=
  (s.window w).valid && (s.window w).partition == p && (s.window w).job == (s.part p).job && (s.window w).rights % 8 == 7

/-- Clear a group's counters and failure marks (R695). -/
def State.clearGroup (s : State) (t group cntBase : Nat) : State :=
  { s with counters := s.counters.filter fun n => !(decide (cntBase ≤ n.1 ∧ n.1 < cntBase + 1024)) }.modTile t fun x =>
    { x with failMarks := x.failMarks.filter fun k => k / 64 != group }

/-- GROUP_SET. -/
def State.runGroupSet (c : Cmd) (s : State) : Reply :=
  let t := c.f 0
  let p := c.f 2
  let ms := s.members (c.f 5) (c.f 3)
  let scope := s.scopeOf ms
  let n := groupBytes (c.f 6) (c.f 7)
  c.check
    [((s.tile t).groups.any fun g => g.2.group == c.f 1, 1), (decide (c.f 3 ≤ c.f 4), 4),
     (!(s.userHbmOk (c.f 5) (4 * c.f 3)) || ms.any fun x => decide (2 ^ 22 ≤ x), 5),
     (!(s.inPartition p (c.f 8) n) || !(s.bufCovered scope p (c.f 10) (c.f 8) n), 8),
     (!(s.ownsBlocks p (c.f 9) 1) || !(s.cntCovered scope p (c.f 10) (c.f 9)), 9),
     (scope != 0 && !(s.groupWindow p (c.f 10)), 10)] <|
    if 256 ≤ (s.tile t).groups.length then .refuse S_TABLE_FULL 0
    else
      let g : Group := ⟨c.f 1, p, c.f 3, c.f 4, c.f 5, c.f 6, c.f 7, c.f 8, c.f 9, c.f 10, scope⟩
      .ok ((s.modTile t fun x => { x with groups := Tbl.set x.groups (c.f 1) g }).clearGroup t (c.f 1) (c.f 9))

def execGroupSet (m : Fin 64) (s : State) : Out := .next (s.serve kGroupSet m State.runGroupSet)

/-- GROUP_RESET. -/
def State.runGroupReset (c : Cmd) (s : State) : Reply :=
  let t := c.f 0
  match (s.tile t).groups.find? fun g => g.2.group == c.f 1 with
  | none => .notFound
  | some g =>
    if c.foreign g.2.partition then .denied
    else .unlessBusy ((s.ctxsOf t fun x => x.coll && x.group == c.f 1) != []) <|
      let s := s.clearGroup t (c.f 1) g.2.cntBase
      .ok (if c.on 2 then s.modTile t fun x => { x with groups := Tbl.erase x.groups g.1 } else s)

def execGroupReset (m : Fin 64) (s : State) : Out := .next (s.serve kGroupReset m State.runGroupReset)

end Sys2Proof.Machine
end

