-- ==== Sys2Proof/Machine/SunasFirmware.lean ====
section
/-!
DEFINITION. The Sunas commands of groups 0x07 to 0x0A: power, firmware, logs, diagnostics; and the start of a deferred
activity (R944).
-/
namespace Sys2Proof.Machine

open Sys2Proof

/-! ### Power and thermal, group 0x07 -/

/-- SENSORS: the thirteen islands in their order (R1116), then the temperatures of the stacks. -/
def State.runSensors (_ : Cmd) (s : State) : Reply :=
  .done s (packFields
    (((List.range 13).flatMap fun i =>
      let x := s.island i
      [(2, x.mhz), (2, x.mv), (2, twos 2 x.temp), (2, x.watts)]) ++
     (List.range 8).map fun k => (1, (s.stack k).temp)))

def execSensors (m : Fin 64) (s : State) : Out := .next (s.serve kSensors m State.runSensors)

/-- The Tillers of a mask. -/
def maskTillers (mask : Nat) : List Nat := (List.range 4).filter (bitN mask)

/-- TILLER_CAP: the cap of a Tiller's clock, from its floor to the grade's clock. A clock above it falls at once; one
below it rises by the steps of R1084. -/
def State.runTillerCap (c : Cmd) (s : State) : Reply :=
  c.check [(decide (c.f 1 < 800 ∨ s.start.tillerMhz < c.f 1), 1)] <|
    .ok ((maskTillers (c.f 0)).foldl (fun s t =>
      let s := s.modTile t fun x => { x with capMhz := c.f 1 }
      let clock := s.setClock t
      s.modIsland t fun i =>
        if i.up then { i with setMhz := clock, mhz := min i.mhz clock } else i) s)

def execTillerCap (m : Fin 64) (s : State) : Out := .next (s.serve kTillerCap m State.runTillerCap)

/-- A RUNNING partition owns an array of Tiller t. -/
def State.tillerOwned (s : State) (t : Nat) : Bool :=
  (List.range 8).any fun p => (s.part p).st == .running && (s.part p).arrays / 16 ^ t % 16 != 0

/-- A command that failed in hardware for a reason that the spec does not number. -/
def Reply.failedFree (s : State) : Reply := let r := s.fresh 64; .failed r.2 r.1.toNat

/-- TILLER_STATE: offline without a service request (R990), or back into service after built-in test. -/
def State.runTillerState (o : Observed) (c : Cmd) (s : State) : Reply :=
  let t := c.f 0
  .unlessBusy (s.tillerOwned t || decide (s.start.stage < 3)) <|
    if !(c.on 1) then .ok (s.tillerOffline t false)
    else if (s.tile t).inService then .ok s
    else if !o.passes || decide (s.workingArrays t < 2) then .failedFree s
    else .ok (s.tillerUp t [] [])

def execTillerState (m : Fin 64) (o : Observed) (s : State) : Out := .next (s.serve kTillerState m (State.runTillerState o))

/-! ### Firmware, group 0x08 (R947 to R954, R833) -/

/-- The standby slot. -/
def Sunas.standby (u : Sunas) : Nat := 1 - u.activeSlot

/-- Set a slot. -/
def Sunas.setSlot (u : Sunas) (i : Nat) (x : ImgSlot) : Sunas := if i = 0 then { u with slotA := x } else { u with slotB := x }

/-- What FW_INFO says of a slot. -/
def ImgSlot.info (x : ImgSlot) : List (Nat × Nat) := [(1, b2n x.present), (4, x.secVersion), (4, x.imgVersion), (1, x.stepping)]

/-- FW_INFO. -/
def State.runFwInfo (_ : Cmd) (s : State) : Reply :=
  let u := s.sunas
  .done s (packFields ([(1, u.activeSlot), (1, u.standby), (4, u.fuseVersion)] ++ u.slotA.info ++ u.slotB.info))

def execFwInfo (m : Fin 64) (s : State) : Out := .next (s.serve kFwInfo m State.runFwInfo)

/-- The blocks of the standby slot, once a worn one has been replaced where a spare is left (R1009). -/
def State.standbyBlocks (s : State) (worn : Bool) : Nat × State :=
  let a := s.sunas.standby = 0
  let s := if worn then s.blockWorn (if a then .slotA else .slotB) else s
  ((if a then s.log.slotABlocks else s.log.slotBBlocks), s)

/-- 384 MiB: an image slot. -/
def slotBytes : Nat := 384 * 0x100000

/-- FW_WRITE: into the standby slot, erased first at OFFSET 0 (R947 to R949). A signed image written after both images
failed starts stage 1 again (R898). -/
def State.runFwWrite (o : Observed) (c : Cmd) (s : State) : Reply :=
  let n := c.tail.length
  c.check [(decide (slotBytes < c.f 0 + n), 0)] <|
  .unlessBusy s.sunas.uncommitted <|
    s.maintain c .flash [.flash] fun s =>
      let b := s.standbyBlocks o.worn
      if b.1 < 1536 then .refuse S_FLASH_EXHAUSTED 0
      else
        let old := if c.f 0 = 0 then 0 else (s.sunas.slotOf s.sunas.standby).written
        let x : ImgSlot := { o.image.slot with written := max old (c.f 0 + n) }
        let t := b.2.modSunas fun u => { u.setSlot u.standby x with verified := false }
        if t.start.failed ∧ t.start.reason = 2 ∧ o.good then .own ((t.respond c.m 0 0 []).restart1) else .ok t

def execFwWrite (m : Fin 64) (o : Observed) (s : State) : Out := .next (s.serve kFwWrite m (State.runFwWrite o))

/-- FW_VERIFY: the standby image under R896. The last verify decides what FW_ACTIVATE may do (R950). -/
def State.runFwVerify (o : Observed) (c : Cmd) (s : State) : Reply :=
  c.check [(decide (slotBytes < c.f 0), 0)] <|
    s.maintain c .flash [.flash] fun s =>
      if s.imageOk s.sunas.standby o.good then .ok (s.modSunas fun u => { u with verified := true })
      else .own ((s.modSunas fun u => { u with verified := false }).respond c.m S_IMAGE_BAD 0 [])

def execFwVerify (m : Fin 64) (o : Observed) (s : State) : Out := .next (s.serve kFwVerify m (State.runFwVerify o))

/-- Make the standby slot active (R950, R951). -/
def State.activateStandby (s : State) (live : Bool) : State :=
  let u := s.sunas
  (s.modSunas fun x =>
    { x with activeSlot := u.standby, uncommitted := true, verified := false, byActivate := live || u.byActivate,
             handOver := if live then some (u.activeSlot, u.uncommitted, u.byActivate, u.verified) else u.handOver }).logEv
    "FW_ACTIVATED" 5 0 0xFF []

/-- FW_ACTIVATE: a live hand-over only while no other command is in progress (R951). -/
def State.runFwActivate (c : Cmd) (s : State) : Reply :=
  if !s.sunas.verified then .refuse S_IMAGE_BAD 0
  else .unlessBusy (c.on 0 && s.waitingMboxes != []) <|
    s.maintain c .flash [.flash] fun s => .ok (s.activateStandby (c.on 0))

def execFwActivate (m : Fin 64) (s : State) : Out := .next (s.serve kFwActivate m State.runFwActivate)

/-- FW_COMMIT: the fuses only rise (R954). -/
def State.runFwCommit (c : Cmd) (s : State) : Reply :=
  let u := s.sunas
  .unlessBusy (!(u.byActivate && u.runningSlot == u.activeSlot)) <|
    s.maintain c .flash [.flash] fun s =>
      .ok ((s.modSunas fun u =>
        { u with uncommitted := false, fuseVersion := max u.fuseVersion (u.slotOf u.activeSlot).secVersion }).logEv "FW_COMMITTED" 5 0 0xFF [])

def execFwCommit (m : Fin 64) (s : State) : Out := .next (s.serve kFwCommit m State.runFwCommit)

/-- Load the active image's microcode into the Tillers of a mask (R833). -/
def State.ucode (s : State) (mask : Nat) : State :=
  let level := (s.sunas.slotOf s.sunas.activeSlot).mcode
  ((maskTillers mask).foldl (fun s t => s.forN 4 fun s a => s.modArr t a fun x => { x with mcode := level }) s).keysFrom s

/-- UCODE_APPLY: activity UCODE; no RUNNING partition may own an array of the Tillers. -/
def State.runUcodeApply (c : Cmd) (s : State) : Reply :=
  .unlessBusy ((maskTillers (c.f 0)).any s.tillerOwned) <|
    s.maintain c .ucode ((maskTillers (c.f 0)).map .tiller) fun s => .ok (s.ucode (c.f 0))

def execUcodeApply (m : Fin 64) (s : State) : Out := .next (s.serve kUcodeApply m State.runUcodeApply)

/-! ### Logs, group 0x09 (R1015, R1020) -/

/-- LOG_INFO: with no record held there is no oldest one, and its number is not stated. -/
def State.runLogInfo (_ : Cmd) (s : State) : Reply :=
  let newest := s.log.nextNumber - 1
  match leastOf (s.log.records.map (·.number)) with
  | some o => .done s (packFields [(8, o), (8, newest), (8, s.log.overwritten)])
  | none => let r := s.fresh 64; .done r.2 (packFields [(8, r.1.toNat), (8, newest), (8, s.log.overwritten)])

def execLogInfo (m : Fin 64) (s : State) : Out := .next (s.serve kLogInfo m State.runLogInfo)

/-- A mailbox may read a record: a partition's sees its own and the package-wide ones. -/
def LogRec.visible (r : LogRec) (m : Nat) : Bool := decide (56 ≤ m) || r.partition == m / 7 || r.partition == 0xFF

/-- LOG_READ: the records of COUNT numbers from FIRST that are held and visible. -/
def State.runLogRead (c : Cmd) (s : State) : Reply :=
  .done s ((List.range (c.f 1)).flatMap fun i =>
    match s.log.records.find? fun r => r.number == c.f 0 + i with
    | some r => if r.visible c.m then r.bytes else []
    | none => [])

def execLogRead (m : Fin 64) (s : State) : Out := .next (s.serve kLogRead m State.runLogRead)

/-! ### Diagnostics, group 0x0A (R481, R468, R174, R942 to R946) -/

/-- What an HBM diagnostic declares: its stack, and every partition with memory on it. -/
def State.diagRes (s : State) (k : Nat) : List Res := .stack k :: ((List.range 8).filter fun p => s.partOnStack p k).map .partition

/-- HBM_1500: as many bits come out as go in; what they are is not stated. -/
def State.hbm1500 (s : State) (bits : Nat) : Reply :=
  let r := s.fresh bits
  .done r.2 (leBytes ((bits + 7) / 8) r.1.toNat)

def State.runHbm1500 (_ : Observed) (c : Cmd) (s : State) : Reply :=
  s.maintain c .hbmdiag (s.diagRes (c.f 0)) fun s => s.hbm1500 (c.f 2)

def execHbm1500 (m : Fin 64) (o : Observed) (s : State) : Out := .next (s.serve kHbm1500 m (State.runHbm1500 o))

/-- The contents of stack k become undefined. -/
def State.scrambleStack (s : State) (k : Nat) : State :=
  let on := fun (a : Nat) => decide (a < 2 ^ 39) && (s.stackOf a).map (·.1) == some k
  { s with mem := ((Config.freeBytes s.freeCtr).filter fun c => on c.1).foldl (fun m c => Memory.write m c.1 c.2) (s.mem.filter fun c => !(on c.1)),
           freeCtr := s.freeCtr + 1 }

/-- The self-test of a stack: its contents are destroyed; a failing address is the DETAIL of S_FAILED. -/
def State.hbmBist (s : State) (o : Observed) (k : Nat) : Reply :=
  match o.failAt with
  | some a => .failed (s.scrambleStack k) (a % 2 ^ 64)
  | none => .ok (s.scrambleStack k)

/-- A partition with memory on a stack is not STOPPED. -/
def State.stackInUse (s : State) (k : Nat) : Bool := (List.range 8).any fun p => s.partOnStack p k && (s.part p).st != .stopped

/-- HBM_BIST. -/
def State.runHbmBist (o : Observed) (c : Cmd) (s : State) : Reply :=
  .unlessBusy (s.stackInUse (c.f 0)) (s.maintain c .hbmdiag (s.diagRes (c.f 0)) fun s => s.hbmBist o (c.f 0))

def execHbmBist (m : Fin 64) (o : Observed) (s : State) : Out := .next (s.serve kHbmBist m (State.runHbmBist o))

/-- Read or write a mode register; one never written holds a value that is not stated, and keeps it. -/
def State.hbmModereg (s : State) (c : Cmd) : Reply :=
  let k := c.f 0
  let n := c.f 1 * 256 + c.f 2
  if c.on 3 then .ok (s.modStack k fun x => { x with modeRegs := Tbl.set x.modeRegs n (c.f 4) })
  else match Tbl.find (s.stack k).modeRegs n with
    | some v => .done s (leBytes 4 v)
    | none =>
      let r := s.fresh 32
      .done (r.2.modStack k fun x => { x with modeRegs := Tbl.set x.modeRegs n r.1.toNat }) (leBytes 4 r.1.toNat)

/-- HBM_MODEREG. -/
def State.runHbmModereg (_ : Observed) (c : Cmd) (s : State) : Reply :=
  s.maintain c .hbmdiag (s.diagRes (c.f 0)) fun s => s.hbmModereg c

def execHbmModereg (m : Fin 64) (o : Observed) (s : State) : Out := .next (s.serve kHbmModereg m (State.runHbmModereg o))

/-- A soft repair as R468 gives it, or a hard repair, which takes a hard resource of the bank; without a resource it
fails. -/
def State.hbmRepair (s : State) (mf : MemFaults) (c : Cmd) : Reply :=
  let k := c.f 0
  let b := c.f 1 * 64 + c.f 2
  let r := b * 16384 + c.f 4
  if c.on 3 then
    if (s.stack k).hppr b = 0 then .failedFree s
    else .ok (((((s.rowScan mf k r).modStack k fun x =>
      { x with hpprFree := Tbl.set x.hpprFree b (x.hppr b - 1), failing := x.failing.filter (· != r), rowCes := Tbl.erase x.rowCes r }).pin 2 k r)).logEv
      "HBM_ROW_REPAIRED" 0 k 0xFF [])
  else if (s.stack k).sppr b = 0 then .failedFree s else .ok (s.rowRepair mf k r)

/-- HBM_REPAIR: activity REPAIR, of a stack in service. -/
def State.runHbmRepair (o : Observed) (c : Cmd) (s : State) : Reply :=
  .unlessBusy (!((s.stack (c.f 0)).serves)) (s.maintain c .repair [.stack (c.f 0)] fun s => s.hbmRepair o.mf c)

def execHbmRepair (m : Fin 64) (o : Observed) (s : State) : Out := .next (s.serve kHbmRepair m (State.runHbmRepair o))

/-- Read or write one entry of a repair map (R174, R175): a reserved entry reads 0 and sets CFG_ERR. -/
def State.arrayMap (s : State) (c : Cmd) : Reply :=
  let t := c.f 0
  let a := c.f 1
  let e := c.f 3
  if 641 ≤ e then .done (s.cfgErr (.array t a)) (leBytes 2 0)
  else
    let s := if c.on 2 then s.mapWrite t a e (c.f 4) else s
    .done s (leBytes 2 ((s.arr t a).phys e))

/-- ARRAY_MAP: activity ARRDIAG, of a Tiller in service. -/
def State.runArrayMap (c : Cmd) (s : State) : Reply :=
  .unlessBusy (!((s.tile (c.f 0)).inService)) (s.maintain c .arrdiag [.array (4 * c.f 0 + c.f 1)] fun s => s.arrayMap c)

def execArrayMap (m : Fin 64) (s : State) : Out := .next (s.serve kArrayMap m State.runArrayMap)

/-- MAINT_STATUS. -/
def State.runMaintStatus (c : Cmd) (s : State) : Reply :=
  match Tbl.find s.sunas.tickets (c.f 0) with
  | some t => .done s (packFields [(1, t.st), (2, t.opcode), (1, t.status)])
  | none => .notFound

def execMaintStatus (m : Fin 64) (s : State) : Out := .next (s.serve kMaintStatus m State.runMaintStatus)

/-- The module that an activity declares. -/
def Ticket.module (t : Ticket) : Option Nat :=
  t.res.findSome? fun r => match r with
    | .module m => some m
    | .stack _ => none
    | .partition _ => none
    | .port _ => none
    | .array _ => none
    | .tiller _ => none
    | .flash => none

/-- MAINT_CANCEL: a queued ticket, or a running EVAC (R946). -/
def State.runMaintCancel (c : Cmd) (s : State) : Reply :=
  let n := c.f 0
  match Tbl.find s.sunas.tickets n with
  | none => .notFound
  | some t =>
    if t.st = 0 then .ok (s.modSunas fun u => { u with tickets := Tbl.set u.tickets n { t with st := 3 } })
    else if t.st = 1 ∧ t.act = .evac then
      match t.module with
      | some k => .ok (s.evacCancel k)
      | none => .busy
    else .busy

def execMaintCancel (m : Fin 64) (s : State) : Out := .next (s.serve kMaintCancel m State.runMaintCancel)

/-! ### Deferred activities (R944) -/

/-- Perform the activity of a deferred command that has been started as ticket n. -/
def State.performDeferred (s : State) (o : Observed) (n : Nat) (c : Cmd) : State :=
  if c.op = 0x0300 then s.endDeferred n (.unlessBusy (!s.allStopped) (.ok (s.setRoles (c.f 0))))
  else if c.op = 0x0302 then (s.retrain (c.f 0)).retrainsEnd
  else if c.op = 0x0303 then s.evacuate (c.f 0)
  else if c.op = 0x0504 then (if s.canRollback (c.f 0) then s.rollback (c.f 0) else s.endTicket n S_BUSY)
  else if c.op = 0x0505 then (if s.canRestore (c.f 0) then s.restore c else s.endTicket n S_BUSY)
  else if c.op = 0x0805 then s.endDeferred n (.unlessBusy ((maskTillers (c.f 0)).any s.tillerOwned) (.ok (s.ucode (c.f 0))))
  else if c.op = 0x0A00 then s.endDeferred n (s.hbm1500 (c.f 2))
  else if c.op = 0x0A01 then s.endDeferred n (.unlessBusy (s.stackInUse (c.f 0)) (s.hbmBist o (c.f 0)))
  else if c.op = 0x0A02 then s.endDeferred n (s.hbmModereg c)
  else if c.op = 0x0A03 then s.endDeferred n (.unlessBusy (!((s.stack (c.f 0)).serves)) (s.hbmRepair o.mf c))
  else if c.op = 0x0A04 then s.endDeferred n (.unlessBusy (!((s.tile (c.f 0)).inService)) (s.arrayMap c))
  else s.endTicket n 0

/-- The ticket's activity conflicts with nothing in progress or before it, and is not held for stage 4 (R917). -/
def State.ticketFree (s : State) (n : Nat) (t : Ticket) : Bool :=
  s.fwRuns && t.st == 0 && !(s.actBlocked t.act t.res n) && (t.act != .evac || decide (4 ≤ s.start.stage))

/-- MAINT_DEFERRED_START: the deferred activity of ticket n starts. An evacuation that the package itself asked for
starts the same way. -/
def execMaintDeferredStart (n : Nat) (o : Observed) (s : State) : Out :=
  .next <| match Tbl.find s.sunas.tickets n with
  | none => s
  | some t =>
    if !(s.ticketFree n t) then s
    else if t.mbox = 64 then
      match t.module with
      | some k => (s.startTicket n).evacuate k
      | none => s
    else match cmdOf t.opcode with
      | some k => (s.startTicket n).performDeferred o n (k.read t.mbox t.header t.payload)
      | none => s

end Sys2Proof.Machine
end

