-- ==== Sys2Proof/Machine/Svx.lean ====
section
/-!
DEFINITION. The SVX instructions (R568 to R574).
-/
namespace Sys2Proof.Machine

open Sys2Proof

/-- An integer operation on the active elements: `f` gets the element width in bits and the elements. -/
def State.svInt (s : State) (h sz pg rd rs1 rs2 : Nat) (f : Core → Nat → Nat → Nat → Nat × Bool) : State :=
  s.vecRun h (fun _ => false) fun c =>
    let b := 2 ^ sz
    let r := svMap b (c.pr pg) (c.wr rd) (c.wr rs1) (c.wr rs2) (f c (8 * b))
    let c := c.setW rd r.1
    if r.2 then { c with fxsat := true } else c

/-- A comparison into a predicate register (R570, R573). -/
def State.svCmp (s : State) (h sz pg rd rs1 rs2 : Nat) (f : Nat → Nat → Nat → Bool) : State :=
  s.vecRun h (fun _ => decide (8 ≤ rd)) fun c =>
    let b := 2 ^ sz
    c.setP rd (svCompare b (c.pr pg) (c.wr rs1) (c.wr rs2) (f (8 * b)))

/-- A floating-point operation on the active elements, rounded under `frm`; sz 3 is undefined (R571, R573). -/
def State.svFloat (s : State) (h sz pg rd rs1 rs2 : Nat) (f : RMode → FVal → FVal → FVal → FVal) : State :=
  s.vecRun h (fun c => decide (sz = 3) || c.frm.isNone) fun c =>
    let b := if sz = 2 then 4 else 2
    let l := szLayout sz
    let rm := c.frm.getD .rne
    let rs := (List.range (8 / b)).map fun i =>
      if activeAt (c.pr pg) b i then
        l.rnd rm (f rm (l.decode (elemAt (c.wr rs1).toNat b i)) (l.decode (elemAt (c.wr rs2).toNat b i)) (l.decode (elemAt (c.wr rd).toNat b i)))
      else (elemAt (c.wr rd).toNat b i, FFlags.none)
    (c.setW rd (BitVec.ofNat 64 (ofElems b (rs.map (·.1))))).raise (flagsOr (rs.map (·.2)))

/-- A plain result modulo 2^n. -/
def plain (n v : Nat) : Nat × Bool := (v % 2 ^ n, false)

/-- SVADD: a + b modulo 2^n (R571). -/
def execSvadd (h : Fin 64) (sz : Fin 4) (pg : Fin 8) (rd rs1 rs2 : Fin 32) (s : State) : Out :=
  .next (s.svInt h sz pg rd rs1 rs2 (fun _ n a b => plain n (a + b)))

/-- SVSUB: a − b modulo 2^n (R571). -/
def execSvsub (h : Fin 64) (sz : Fin 4) (pg : Fin 8) (rd rs1 rs2 : Fin 32) (s : State) : Out :=
  .next (s.svInt h sz pg rd rs1 rs2 (fun _ n a b => plain n (a + 2 ^ n - b)))

/-- SVADDS: a + b, signed, saturated (R571). -/
def execSvadds (h : Fin 64) (sz : Fin 4) (pg : Fin 8) (rd rs1 rs2 : Fin 32) (s : State) : Out :=
  .next (s.svInt h sz pg rd rs1 rs2 (fun _ n a b => satSigned n (toSigned n a + toSigned n b)))

/-- SVADDSU: a + b, unsigned, saturated (R571). -/
def execSvaddsu (h : Fin 64) (sz : Fin 4) (pg : Fin 8) (rd rs1 rs2 : Fin 32) (s : State) : Out :=
  .next (s.svInt h sz pg rd rs1 rs2 (fun _ n a b => satUnsigned n ((a : Int) + b)))

/-- SVSUBS: a − b, signed, saturated (R571). -/
def execSvsubs (h : Fin 64) (sz : Fin 4) (pg : Fin 8) (rd rs1 rs2 : Fin 32) (s : State) : Out :=
  .next (s.svInt h sz pg rd rs1 rs2 (fun _ n a b => satSigned n (toSigned n a - toSigned n b)))

/-- SVSUBSU: a − b, unsigned, saturated at 0 (R571). -/
def execSvsubsu (h : Fin 64) (sz : Fin 4) (pg : Fin 8) (rd rs1 rs2 : Fin 32) (s : State) : Out :=
  .next (s.svInt h sz pg rd rs1 rs2 (fun _ n a b => satUnsigned n ((a : Int) - b)))

/-- SVMUL: low n bits of a × b (R571). -/
def execSvmul (h : Fin 64) (sz : Fin 4) (pg : Fin 8) (rd rs1 rs2 : Fin 32) (s : State) : Out :=
  .next (s.svInt h sz pg rd rs1 rs2 (fun _ n a b => plain n (a * b)))

/-- SVMULHR: a × b / 2^(n−1) rounded under `fxrm`, saturated (R571). -/
def execSvmulhr (h : Fin 64) (sz : Fin 4) (pg : Fin 8) (rd rs1 rs2 : Fin 32) (s : State) : Out :=
  .next (s.svInt h sz pg rd rs1 rs2 (fun c n a b => satSigned n (fxRound c.fxrm (toSigned n a * toSigned n b) (n - 1))))

/-- SVSRAR: a / 2^s rounded under `fxrm`, s = b mod n (R571). -/
def execSvsrar (h : Fin 64) (sz : Fin 4) (pg : Fin 8) (rd rs1 rs2 : Fin 32) (s : State) : Out :=
  .next (s.svInt h sz pg rd rs1 rs2 (fun c n a b => (ofSigned n (fxRound c.fxrm (toSigned n a) (b % n)), false)))

/-- SVSLLS: a × 2^s, signed, saturated, s = b mod n (R571). -/
def execSvslls (h : Fin 64) (sz : Fin 4) (pg : Fin 8) (rd rs1 rs2 : Fin 32) (s : State) : Out :=
  .next (s.svInt h sz pg rd rs1 rs2 (fun _ n a b => satSigned n (toSigned n a * 2 ^ (b % n))))

/-- SVSLL: a shifted left by b mod n (R571). -/
def execSvsll (h : Fin 64) (sz : Fin 4) (pg : Fin 8) (rd rs1 rs2 : Fin 32) (s : State) : Out :=
  .next (s.svInt h sz pg rd rs1 rs2 (fun _ n a b => plain n (a * 2 ^ (b % n))))

/-- SVSRL: a shifted right logically by b mod n (R571). -/
def execSvsrl (h : Fin 64) (sz : Fin 4) (pg : Fin 8) (rd rs1 rs2 : Fin 32) (s : State) : Out :=
  .next (s.svInt h sz pg rd rs1 rs2 (fun _ n a b => plain n (a / 2 ^ (b % n))))

/-- SVSRA: a shifted right arithmetically by b mod n (R571). -/
def execSvsra (h : Fin 64) (sz : Fin 4) (pg : Fin 8) (rd rs1 rs2 : Fin 32) (s : State) : Out :=
  .next (s.svInt h sz pg rd rs1 rs2 (fun _ n a b => (ofSigned n (toSigned n a / 2 ^ (b % n)), false)))

/-- SVMIN: signed minimum (R571). -/
def execSvmin (h : Fin 64) (sz : Fin 4) (pg : Fin 8) (rd rs1 rs2 : Fin 32) (s : State) : Out :=
  .next (s.svInt h sz pg rd rs1 rs2 (fun _ n a b => (if toSigned n a ≤ toSigned n b then a else b, false)))

/-- SVMAX: signed maximum (R571). -/
def execSvmax (h : Fin 64) (sz : Fin 4) (pg : Fin 8) (rd rs1 rs2 : Fin 32) (s : State) : Out :=
  .next (s.svInt h sz pg rd rs1 rs2 (fun _ n a b => (if toSigned n a ≤ toSigned n b then b else a, false)))

/-- SVMINU: unsigned minimum (R571). -/
def execSvminu (h : Fin 64) (sz : Fin 4) (pg : Fin 8) (rd rs1 rs2 : Fin 32) (s : State) : Out :=
  .next (s.svInt h sz pg rd rs1 rs2 (fun _ _ a b => (min a b, false)))

/-- SVMAXU: unsigned maximum (R571). -/
def execSvmaxu (h : Fin 64) (sz : Fin 4) (pg : Fin 8) (rd rs1 rs2 : Fin 32) (s : State) : Out :=
  .next (s.svInt h sz pg rd rs1 rs2 (fun _ _ a b => (max a b, false)))

/-- SVAND: bitwise AND (R571). -/
def execSvand (h : Fin 64) (sz : Fin 4) (pg : Fin 8) (rd rs1 rs2 : Fin 32) (s : State) : Out :=
  .next (s.svInt h sz pg rd rs1 rs2 (fun _ _ a b => (Nat.land a b, false)))

/-- SVOR: bitwise OR (R571). -/
def execSvor (h : Fin 64) (sz : Fin 4) (pg : Fin 8) (rd rs1 rs2 : Fin 32) (s : State) : Out :=
  .next (s.svInt h sz pg rd rs1 rs2 (fun _ _ a b => (Nat.lor a b, false)))

/-- SVXOR: bitwise XOR (R571). -/
def execSvxor (h : Fin 64) (sz : Fin 4) (pg : Fin 8) (rd rs1 rs2 : Fin 32) (s : State) : Out :=
  .next (s.svInt h sz pg rd rs1 rs2 (fun _ _ a b => (Nat.xor a b, false)))

/-- SVAVGR: (a + b) / 2 formed exactly and rounded under `fxrm`, signed (R571). -/
def execSvavgr (h : Fin 64) (sz : Fin 4) (pg : Fin 8) (rd rs1 rs2 : Fin 32) (s : State) : Out :=
  .next (s.svInt h sz pg rd rs1 rs2 (fun c n a b => (ofSigned n (fxRound c.fxrm (toSigned n a + toSigned n b) 1), false)))

/-- SVCMPEQ: a = b, into a predicate (R571). -/
def execSvcmpeq (h : Fin 64) (sz : Fin 4) (pg : Fin 8) (rd rs1 rs2 : Fin 32) (s : State) : Out :=
  .next (s.svCmp h sz pg rd rs1 rs2 (fun _ a b => a == b))

/-- SVCMPLT: a < b signed, into a predicate (R571). -/
def execSvcmplt (h : Fin 64) (sz : Fin 4) (pg : Fin 8) (rd rs1 rs2 : Fin 32) (s : State) : Out :=
  .next (s.svCmp h sz pg rd rs1 rs2 (fun n a b => decide (toSigned n a < toSigned n b)))

/-- SVCMPLTU: a < b unsigned, into a predicate (R571). -/
def execSvcmpltu (h : Fin 64) (sz : Fin 4) (pg : Fin 8) (rd rs1 rs2 : Fin 32) (s : State) : Out :=
  .next (s.svCmp h sz pg rd rs1 rs2 (fun _ a b => decide (a < b)))

/-- SVSEL: every element, a where active, else b (R571). -/
def execSvsel (h : Fin 64) (sz : Fin 4) (pg : Fin 8) (rd rs1 rs2 : Fin 32) (s : State) : Out :=
  .next <| s.vecRun h (fun _ => false) fun c =>
    let b := 2 ^ sz.val
    c.setW rd (BitVec.ofNat 64 (ofElems b ((List.range (8 / b)).map fun i =>
      elemAt (if activeAt (c.pr pg) b i then c.wr rs1 else c.wr rs2).toNat b i)))

/-- SVFADD: a + b (R571). -/
def execSvfadd (h : Fin 64) (sz : Fin 4) (pg : Fin 8) (rd rs1 rs2 : Fin 32) (s : State) : Out :=
  .next (s.svFloat h sz pg rd rs1 rs2 (fun rm a b _ => FVal.add rm a b))

/-- SVFMUL: a × b (R571). -/
def execSvfmul (h : Fin 64) (sz : Fin 4) (pg : Fin 8) (rd rs1 rs2 : Fin 32) (s : State) : Out :=
  .next (s.svFloat h sz pg rd rs1 rs2 (fun _ a b _ => FVal.mul a b))

/-- SVFMA: a × b + d with one rounding, d the old rd (R571). -/
def execSvfma (h : Fin 64) (sz : Fin 4) (pg : Fin 8) (rd rs1 rs2 : Fin 32) (s : State) : Out :=
  .next (s.svFloat h sz pg rd rs1 rs2 (fun rm a b d => FVal.fma rm a b d))

/-- SVMV: a move that rs2 selects (R571, R573). -/
def execSvmv (h : Fin 64) (sz : Fin 4) (pg : Fin 8) (rd rs1 rs2 : Fin 32) (s : State) : Out :=
  .next <| s.vecRun h (fun _ => decide (pg.val ≠ 0 ∨ sz.val ≠ 0 ∨ 4 ≤ rs2.val ∨ (rs2.val = 2 ∧ 8 ≤ rd.val) ∨ (rs2.val = 3 ∧ 8 ≤ rs1.val))) fun c =>
    match rs2.val with
    | 0 => c.setW rd (c.xr rs1)
    | 1 => c.setX rd (c.wr rs1)
    | 2 => c.setP rd (BitVec.ofNat 8 (c.xr rs1).toNat)
    | _ => c.setX rd (BitVec.ofNat 64 (c.pr rs1).toNat)

/-- SVPOP: predicate logic that sz selects: AND, OR, XOR, AND-NOT (R571, R573). -/
def execSvpop (h : Fin 64) (sz : Fin 4) (pg : Fin 8) (rd rs1 rs2 : Fin 32) (s : State) : Out :=
  .next <| s.vecRun h (fun _ => decide (pg.val ≠ 0 ∨ 8 ≤ rd.val ∨ 8 ≤ rs1.val ∨ 8 ≤ rs2.val)) fun c =>
    let a := c.pr rs1
    let b := c.pr rs2
    c.setP rd (match sz.val with
      | 0 => a &&& b
      | 1 => a ||| b
      | 2 => a ^^^ b
      | _ => a &&& ~~~ b)

/-- The runs of active bytes of a value: (offset, bytes). -/
def activeRuns (p : BitVec 8) (v : W64) : List (Nat × List Byte) :=
  (List.range 8).foldr (fun i acc =>
    if bitN p.toNat i then
      match acc with
      | (j, bs) :: rest => if j = i + 1 then (i, BitVec.ofNat 8 (v.toNat / 256 ^ i) :: bs) :: rest
        else (i, [BitVec.ofNat 8 (v.toNat / 256 ^ i)]) :: acc
      | [] => [(i, [BitVec.ofNat 8 (v.toNat / 256 ^ i)])]
    else acc) []

/-- SVLD: the active bytes of w[rd] from memory; with none, nothing happens (R574). -/
def execSvld (h : Fin 64) (sz : Fin 4) (pg : Fin 8) (rd rs1 rs2 : Fin 32) (mf : MemFaults) (s : State) : Out :=
  .next <| s.vecMem h (fun _ => false) fun c s =>
    let _ := sz
    let a := c.sumAddr rs1 rs2
    let p := c.pr pg
    if p = 0 then s.modCore h fun c => { c.nextPc with vxs := 3 }
    else if a % 8 ≠ 0 then s.coreFault h false a 0 .misaligned
    else s.coreLoad mf h a 8 false 2 rd p.toNat

/-- SVST: the active bytes of w[rd] to memory; with none, nothing happens (R574). -/
def execSvst (h : Fin 64) (sz : Fin 4) (pg : Fin 8) (rd rs1 rs2 : Fin 32) (mf : MemFaults) (s : State) : Out :=
  .next <| s.vecMem h (fun _ => false) fun c s =>
    let _ := sz
    let a := c.sumAddr rs1 rs2
    let p := c.pr pg
    if p = 0 then s.modCore h Core.nextPc
    else if a % 8 ≠ 0 then s.coreFault h true a 0 .misaligned
    else s.coreStore mf h a 8 (activeRuns p (c.wr rd))

end Sys2Proof.Machine
end

