-- ==== Sys2Proof/Machine/VeBase.lean ====
section
/-!
DEFINITION. What the vector engine's instructions share: streams, their checks at issue, reading and writing their
elements, and the element-wise, reducing and ranking frames (R283 to R306, R316 to R341, R395).
-/
namespace Sys2Proof.Machine

open Sys2Proof

/-! ### Streams (R290 to R297) -/

/-- A stream descriptor. -/
structure VStream where
  words : List W64
deriving DecidableEq

def VStream.w (x : VStream) (i : Nat) : Nat := (x.words.getD i 0).toNat
def VStream.kind (x : VStream) : Nat := field (x.w 0) 57 56
def VStream.fmtCode (x : VStream) : Nat := field (x.w 0) 55 52
def VStream.fmt (x : VStream) : Fmt := (Fmt.ofCode x.fmtCode).getD .fp32
def VStream.rowLen (x : VStream) : Nat := field (x.w 0) 47 32
def VStream.eStride (x : VStream) : Int := toSigned 16 (field (x.w 0) 31 16)
def VStream.rStride (x : VStream) : Int := toSigned 32 (field (x.w 1) 63 32)
def VStream.base (x : VStream) : Nat := if x.kind = 1 then field (x.w 1) 22 0 else field (x.w 1) 26 0
def VStream.array (x : VStream) : Nat := field (x.w 1) 24 23
def VStream.sBase (x : VStream) : Nat := field (x.w 2) 58 32
def VStream.sStride (x : VStream) : Int := toSigned 32 (field (x.w 2) 31 0)
/-- Bytes of an element of a non-MX stream. -/
def VStream.size (x : VStream) : Nat := x.fmt.bits / 8

/-- Reserved fields and values (R290, R292 to R294, R336). -/
def VStream.rsvd (x : VStream) (isDst : Bool) : Bool :=
  field (x.w 0) 63 58 != 0 || field (x.w 0) 51 48 != 0 || field (x.w 0) 15 0 != 0 || field (x.w 1) 31 27 != 0 || x.w 3 != 0 ||
  (Fmt.ofCode x.fmtCode).isNone || x.kind == 3 || (isDst && x.kind != 0) ||
  (if x.kind = 1 then !(x.fmt == .fp64 || x.fmt == .fp32 || x.fmt == .int32) || field (x.w 1) 26 25 != 0 || x.w 2 != 0
   else if x.kind = 2 then x.fmt.isMx || x.w 2 / 2 ^ x.fmt.bits != 0
   else if x.fmt.isMx then field (x.w 2) 63 59 != 0 else x.w 2 != 0)

/-- Elements of a row of a stream of `count` elements (R290). -/
def VStream.row (x : VStream) (count : Nat) : Nat := if x.rowLen = 0 then max count 1 else x.rowLen

/-- The offset of element e (R291). -/
def VStream.addr (x : VStream) (count e : Nat) : Int :=
  x.base + (e % x.row count : Nat) * x.eStride * x.size + (e / x.row count : Nat) * x.rStride

/-- The offsets of the block and of the scale of element e of an MX stream (R297). -/
def VStream.blockAddr (x : VStream) (count e : Nat) : Int :=
  x.base + (e / x.row count : Nat) * x.rStride + (e % x.row count / 32 * (4 * x.fmt.bits) : Nat)
def VStream.scaleAddr (x : VStream) (count e : Nat) : Int :=
  x.sBase + (e / x.row count : Nat) * x.sStride + (e % x.row count / 32 : Nat)

/-- The byte ranges that element e lies in: the element, or its block and its scale. -/
def VStream.spans (x : VStream) (count e : Nat) : List (Int × Nat) :=
  if x.kind = 2 then []
  else if x.fmt.isMx then [(x.blockAddr count e, 4 * x.fmt.bits), (x.scaleAddr count e, 1)]
  else [(x.addr count e, x.size)]

/-- The lowest byte and the end of some ranges. -/
def extent (l : List (Int × Nat)) : Option (Int × Int) :=
  match l with
  | [] => none
  | r :: rest => some (rest.foldl (fun a q => (min a.1 q.1, max a.2 (q.1 + q.2))) (r.1, r.1 + r.2))

/-- The byte ranges of a stream (R296, R298): of its elements, and of its scales. -/
def VStream.ranges (x : VStream) (count : Nat) : List (Int × Int) :=
  let sp := (List.range count).map (x.spans count)
  (extent (sp.filterMap List.head?)).toList ++ (extent (sp.filterMap fun l => l[1]?)).toList

/-- The checks of a stream at issue (R293 to R296, R408). -/
def State.streamChecks (s : State) (t p : Nat) (x : VStream) (isDst : Bool) (count : Nat) : List Check :=
  if x.rsvd isDst then [some (F_RSVD, x.fmtCode)]
  else if x.kind = 2 then []
  else
    let rows := (count + x.row count - 1) / x.row count
    let g := if x.fmt.isMx then 32 else x.size
    let top := if x.kind = 1 then 2 ^ 23 else s.spmBytes t
    [failIf (x.kind == 1 && !(bitN (s.part p).arrays (4 * t + x.array))) F_BOUNDS x.array,
     failIf (decide (x.base % g ≠ 0) || (decide (1 < rows) && decide (x.rStride % g ≠ 0)) || (x.fmt.isMx && x.eStride != 1)) F_ALIGN x.base] ++
    (x.ranges count).map fun r => failIf (decide (r.1 < 0) || decide ((top : Int) < r.2)) F_BOUNDS (r.1 % 2 ^ 64).toNat

/-- The memory key of an offset of a stream. -/
def VStream.key (x : VStream) (t : Nat) (off : Int) : Nat := if x.kind = 1 then acmKey t x.array off.toNat else spmBase t + off.toNat

/-- The granules that a range touches. -/
def granulesOf (k n : Nat) : List Nat :=
  let g := granule k
  (List.range ((k + n + g - 1) / g - k / g)).map fun i => (k / g + i) * g

/-- The granules of a stream's elements, each once, with the first element that touches it. -/
def VStream.granules (x : VStream) (t count : Nat) : List (Nat × Nat) :=
  (List.range count).foldl (fun acc e =>
    ((x.spans count e).flatMap fun r => granulesOf (x.key t r.1) r.2).foldl (fun acc g => if acc.any fun q => q.2 == g then acc else acc ++ [(e, g)]) acc) []

/-- Read granules in order until one returns no data: the element and the granule. -/
def State.scan (s : State) (mf : MemFaults) : List (Nat × Nat) → Option (Nat × Nat) × State
  | [] => (none, s)
  | q :: rest => match s.readErr mf q.2 (granule q.2) with
    | (some _, s) => (some q, s)
    | (none, s) => State.scan s mf rest

/-- The code of element e of a stream. -/
def State.streamCode (s : State) (t : Nat) (x : VStream) (count e : Nat) : Nat :=
  if x.kind = 2 then x.w 2
  else if x.fmt.isMx then
    (unpackFrom x.fmt.bits 0 32 (s.peek (x.key t (x.blockAddr count e)) (4 * x.fmt.bits))).getD (e % x.row count % 32) 0
  else s.peekN (x.key t (x.addr count e)) x.size

/-- The value of element e of a stream. -/
def State.streamVal (s : State) (t : Nat) (x : VStream) (count e : Nat) : FVal :=
  let scale := if x.kind = 0 ∧ x.fmt.isMx then s.peekN (x.key t (x.scaleAddr count e)) 1 else 0x7F
  x.fmt.value scale (s.streamCode t x count e)

/-- An element as an integer. -/
def State.streamInt (s : State) (t : Nat) (x : VStream) (count e : Nat) : Int := toSigned x.fmt.bits (s.streamCode t x count e)

/-- The first element of an output whose write would replace part of an uncorrectable word, and the code (R1113,
R1108). -/
def State.writeFail (s : State) (mf : MemFaults) (t : Nat) (x : VStream) (count : Nat) : Option (Nat × Nat) × State :=
  match (List.range count).findSome? fun e =>
      (x.spans count e).findSome? fun r => if (s.writeErr mf (x.key t r.1) r.2).isSome then some (e, x.key t r.1, r.2) else none with
  | some q => (some (q.1, eccCode q.2.1), (s.mergeErr mf q.2.1 q.2.2).2)
  | none => (none, s)

/-- Write codes to elements 0, 1, … of a non-MX output (R301). -/
def State.putCodes (s : State) (t : Nat) (x : VStream) (count : Nat) (codes : List Nat) : State :=
  codes.zipIdx.foldl (fun s c => s.poke (x.key t (x.addr count c.2)) (leBytes x.size c.1)) s

/-- Write values to an MX output: each block of its rows that lies wholly below element `cut` is encoded once
(R252, R297). -/
def State.putBlocks (s : State) (t : Nat) (x : VStream) (count cut conv : Nat) (vals : List FVal) : FFlags × State :=
  let (rm, rule) := (convControl x.fmt conv).getD (.rne, .ieee)
  let row := x.row count
  ((List.range cut).filter fun e => e % row % 32 == 0).foldl (fun (acc : FFlags × State) e =>
    let n := min 32 (min (row - e % row) (count - e))
    if cut < e + n then acc
    else
      let r := mxEncode x.fmt rm rule ((vals.drop e).take n)
      (acc.1.or r.2.2,
       (acc.2.poke (x.key t (x.blockAddr count e)) (leBytes (4 * x.fmt.bits) (((r.2.1.zipIdx).map fun c => c.1 * 2 ^ (x.fmt.bits * c.2)).sum))).poke
         (x.key t (x.scaleAddr count e)) [BitVec.ofNat 8 r.1])) (FFlags.none, s)

/-! ### Instructions -/

/-- What an instruction reads at issue: its fields and streams. -/
structure VJob where
  n : Nat
  fn : Nat
  rm : RMode
  conv : Nat
  acc : Bool
  desc : Nat
  dst : VStream
  srcs : List VStream
  pos : VStream

def VJob.src (j : VJob) (i : Nat) : VStream := j.srcs.getD i ⟨[]⟩

/-- The rounding modes of the VE (R299). -/
def veMode (n : Nat) : RMode := if n = 1 then .rtz else if n = 2 then .rdn else if n = 3 then .rup else .rne

/-- The fields that an opcode does not use are not 0 (R379, R394). -/
def veRsvd (v : FmtV) (o : Nat) : Bool :=
  let red := decide (0x7A ≤ o ∧ o ≤ 0x7D)
  v.rsvd != 0 || (v.rm != 0 && !(decide (o ≤ 0x66) || o == 0x79 || red)) || (v.conv != 0 && o != 0x80) || (v.acc != 0 && !red) ||
  (v.alt != 0 && !decide (0x74 ≤ o ∧ o ≤ 0x77)) || (v.fn != 0 && !(o == 0x6C || decide (0x78 ≤ o ∧ o ≤ 0x7F)))

/-- The lanes of a format (R283), for the widest float among some formats, or integers (R284). -/
def veLanes (l : List Fmt) : Nat :=
  if l.contains .fp64 then 512
  else if l.contains .fp32 || (l.contains .fp16 && l.contains .bf16) then 1024
  else if l.any fun f => f.isMx || f == .fp16 || f == .bf16 then 2048
  else 1024

/-- The compute format of floating-point streams (R284). -/
def veCompute (l : List Fmt) : Fmt :=
  if l.contains .fp64 then .fp64
  else if l.contains .fp32 || (l.contains .fp16 && l.contains .bf16) then .fp32
  else if l.contains .bf16 then .bf16 else .fp16

def Fmt.isInt (f : Fmt) : Bool := f == .int8 || f == .int32

/-- A VE instruction fails: it is counted, and a stop on an uncorrectable word sets ECC (R341, R344). -/
def State.failVe (s : State) (t : Nat) (e : QEntry) (code done info : Nat) : State :=
  ((s.setFlagIf (code == F_SPM_ECC || code == F_ACM_ECC) (lnVe t) 6).modTile t fun x => { x with veFailed := sat32 (x.veFailed + 1) }).failEntry t 4 e code done info false

/-- Set the sticky flags of the VE (R341). -/
def State.veFlags (s : State) (t : Nat) (f : FFlags) : State :=
  (((((s.setFlagIf f.nv (lnVe t) 0).setFlagIf f.dz (lnVe t) 1).setFlagIf f.of (lnVe t) 2).setFlagIf f.uf (lnVe t) 3).setFlagIf f.nx (lnVe t) 4).setFlagIf
    f.iov (lnVe t) 5

/-- Read the slots of a descriptor block at issue (R289): none where a word is uncorrectable. -/
def State.readSlots (s : State) (mf : MemFaults) (key : Nat) : List Nat → (Except Nat (List VStream)) × State
  | [] => (.ok [], s)
  | i :: rest => match s.load mf (key + 32 * i) 32 with
    | (.error g, s) => (.error g, s)
    | (.ok bs, s) => match State.readSlots s mf key rest with
      | (.ok l, s) => (.ok (⟨(chunksOf 8 4 bs).map (BitVec.ofNat 64)⟩ :: l), s)
      | (.error g, s) => (.error g, s)

/-- Issue the head of the VE's queue, where it is opcode o with this ALT: the streams it uses are read (`nsrc` sources
by FN, slot 3 where `pos`), the checks made, and `run` performs it. -/
def State.takeVe (s : State) (t : Nat) (mf : MemFaults) (o alt : Nat) (nsrc : Nat → Nat) (pos : Bool)
    (checks : State → Nat → VJob → List Check) (run : State → QEntry → VJob → State) : State :=
  match (s.queue t 4).waiting with
  | [] => s
  | e :: _ =>
    let v := fmtV e.word
    if decide (opc e.word = o) && (decide (v.alt = alt) || !decide (0x74 ≤ o ∧ o ≤ 0x77)) then
      match s.popHead t 4 (· == o) with
      | none => s
      | some (e, s) =>
        let p := s.partOf t e
        let n := if v.rn = 0 then v.n else gaddr e.g v.rn
        let desc := v.desc + gaddr e.g v.rds
        let pre := [failIf (veRsvd v o) F_RSVD 0, failIf (decide (desc % 32 ≠ 0)) F_ALIGN desc, failIf (decide (65535 < n)) F_BOUNDS n,
          failIf (!(s.spmRangeOk t desc 128)) F_BOUNDS desc, s.incCheck p v.ctr v.ri]
        if decide (desc % 32 ≠ 0) || !(s.spmRangeOk t desc 128) then
          match firstCheck pre with
          | some (code, info) => s.failVe t e code 0 info
          | none => s
        else
          let k := nsrc v.fn
          match s.readSlots mf (spmBase t + desc) (0 :: (List.range k).map (· + 1) ++ (if pos then [3] else [])) with
          | (.error g, s) => match firstCheck (pre ++ [some (F_SPM_ECC, g - spmBase t)]) with
            | some (code, info) => s.failVe t e code 0 info
            | none => s
          | (.ok l, s) =>
            let j : VJob := { n := if 65535 < n then 0 else n, fn := v.fn, rm := veMode v.rm, conv := v.conv, acc := v.acc == 1, desc := desc,
                              dst := l.getD 0 ⟨[]⟩, srcs := (l.drop 1).take k, pos := if pos then l.getD (k + 1) ⟨[]⟩ else ⟨[]⟩ }
            match firstCheck (pre ++ checks s p j) with
            | some (code, info) => s.failVe t e code 0 info
            | none => run (s.activate t 4 e) e j
    else s

/-- The overlap check (R298): an output range against every scratchpad source whose descriptor is not the output's. -/
def overlapCheck (outs : List (VStream × Nat)) (srcs : List (VStream × Nat)) : Check :=
  match (outs.flatMap fun o => (o.1.ranges o.2).map fun r => (o.1, r)).find? fun o =>
      srcs.any fun x => x.1.kind == 0 && x.1 != o.1 && (x.1.ranges x.2).any fun q => decide (o.2.1 < q.2 ∧ q.1 < o.2.2) with
  | some o => some (F_OVERLAP, (o.2.1 % 2 ^ 64).toNat)
  | none => none

/-- Scan the sources of an instruction: the first element (by number, then by source) that returns no data, with
its fault code. Sources with identical descriptors are read once (R286). -/
def State.scanAll (s : State) (mf : MemFaults) (t : Nat) : List (VStream × Nat) → List VStream → Option (Nat × Nat) → Option (Nat × Nat) × State
  | [], _, best => (best, s)
  | (x, n) :: rest, seen, best =>
    if seen.contains x then State.scanAll s mf t rest seen best
    else
      let (r, s) := s.scan mf (x.granules t n)
      let best := match r, best with
        | some q, some b => if q.1 < b.1 then some (q.1, eccCode q.2) else some b
        | some q, none => some (q.1, eccCode q.2)
        | none, b => b
      State.scanAll s mf t rest (seen ++ [x]) best

/-- The earlier of two failing elements. -/
def earlier (a b : Option (Nat × Nat)) : Option (Nat × Nat) :=
  match a, b with
  | some x, some y => if y.1 < x.1 then some y else some x
  | some x, none => some x
  | none, y => y

/-! ### Element-wise instructions -/

/-- An element-wise operation: its opcode and ALT, sources, what it computes on floats and on integers (none where it
does not take them), and whether its integer result never sets IOV. -/
structure VSpec where
  op : Nat
  alt : Nat
  nsrc : Nat
  flt : Option (VJob → FLayout → List FVal → Nat × FFlags)
  int : Option (VJob → List Int → Int)
  bits : Bool

/-- An integer result in its destination (R311): wrapped to 32 bits, then saturated to INT8. -/
def intOut (d : Fmt) (r : Int) : Nat × FFlags :=
  let wrapped := decide (r < -(2 ^ 31)) || decide (2 ^ 31 ≤ r)
  let x := toSigned 32 (ofSigned 32 r)
  if d = .int8 then
    if x < -128 then (0x80, { FFlags.none with iov := true })
    else if 127 < x then (0x7F, { FFlags.none with iov := true })
    else (ofSigned 8 x, { FFlags.none with iov := wrapped })
  else (ofSigned 32 x, { FFlags.none with iov := wrapped })

def okFloats (l : List Fmt) : Bool := l.all Fmt.isIeee
def okInts (l : List Fmt) : Bool := l.all Fmt.isInt

/-- Perform elements below the cut of R338: `val` gives the codes, `blocks` the values of an MX output. -/
def State.veElems (s : State) (mf : MemFaults) (t : Nat) (e : QEntry) (j : VJob) (counts : List Nat) (lanes : Nat)
    (val : State → Nat → Nat × FFlags) (blocks : State → Nat → FVal) : State :=
  let (fail, s) := s.scanAll mf t (j.srcs.zip counts) [] none
  let (wf, s) := s.writeFail mf t j.dst j.n
  let fail := earlier fail wf
  let cut := match fail with
    | some q => q.1 / lanes * lanes
    | none => j.n
  let (fl, s) := if j.dst.fmt.isMx then s.putBlocks t j.dst j.n cut j.conv ((List.range cut).map (blocks s))
    else
      let rs := (List.range cut).map (val s)
      (orFlags rs, s.putCodes t j.dst j.n (rs.map (·.1)))
  let s := s.veFlags t fl
  match fail with
  | some q => s.failVe t e q.2 cut q.1
  | none => s

/-- The checks that every element-wise instruction makes of its streams. -/
def State.elemChecks (s : State) (t p : Nat) (j : VJob) (counts : List Nat) : List Check :=
  s.streamChecks t p j.dst true j.n ++ ((j.srcs.zip counts).flatMap fun x => s.streamChecks t p x.1 false x.2) ++
  [overlapCheck [(j.dst, j.n)] (j.srcs.zip counts)]

/-- An element-wise instruction of floats or integers. -/
def State.veElem (s : State) (t : Nat) (mf : MemFaults) (x : VSpec) : State :=
  s.takeVe t mf x.op x.alt (fun _ => x.nsrc) false
    (fun s p j =>
      let fmts := j.dst.fmt :: j.srcs.map VStream.fmt
      failIf (!((x.flt.isSome && okFloats fmts) || (x.int.isSome && okInts fmts))) F_RSVD j.dst.fmtCode :: s.elemChecks t p j (List.replicate x.nsrc j.n))
    (fun s e j =>
      let fmts := j.dst.fmt :: j.srcs.map VStream.fmt
      s.veElems mf t e j (List.replicate x.nsrc j.n) (veLanes fmts)
        (fun s i =>
          if okInts fmts then match x.int with
            | some f =>
              let r := intOut j.dst.fmt (f j (j.srcs.map fun y => s.streamInt t y j.n i))
              (r.1, if x.bits then FFlags.none else r.2)
            | none => (0, FFlags.none)
          else match x.flt, j.dst.fmt.layout? with
            | some f, some l => f j l (j.srcs.map fun y => s.streamVal t y j.n i)
            | _, _ => (0, FFlags.none))
        (fun _ _ => .num false 0 0))

/-! ### Reductions (R316 to R324) -/

/-- Combine neighbours of one level of the tree of R318. -/
def combineLevel {α : Type} (f : α → α → α × FFlags) : List α → List α × FFlags
  | a :: b :: rest =>
    let r := f a b
    let q := combineLevel f rest
    (r.1 :: q.1, r.2.or q.2)
  | l => (l, FFlags.none)

/-- The whole tree. -/
def combineTree {α : Type} (f : α → α → α × FFlags) : Nat → List α → List α × FFlags
  | 0, l => (l, FFlags.none)
  | k + 1, l => let r := combineLevel f l; let q := combineTree f k r.1; (q.1, r.2.or q.2)

/-- Reduce a row's terms (R318): lane l takes terms l, l + L, …; then log2 L levels. `first` makes a lane's first
value, `step` adds a term to it. -/
def reduceRow {α β : Type} (lanes : Nat) (first : β → α × FFlags) (step : α → β → α × FFlags) (comb : α → α → α × FFlags) (xs : List β) :
    Option α × FFlags :=
  let lane := fun l => (xs.zipIdx.filter fun q => q.2 % lanes == l).foldl (fun (acc : Option α × FFlags) q => match acc.1 with
    | none => let r := first q.1; (some r.1, acc.2.or r.2)
    | some a => let r := step a q.1; (some r.1, acc.2.or r.2)) (none, FFlags.none)
  let ps := (List.range (min lanes xs.length)).map lane
  let r := combineTree comb 11 (ps.filterMap (·.1))
  (r.1.head?, (ps.foldl (fun f p => f.or p.2) FFlags.none).or r.2)

/-- A reduction: its opcode, sources, the terms' first value, step and combination on floats of accumulation layout A,
and on integers. -/
structure RSpec where
  op : Nat
  nsrc : Nat
  first : FLayout → RMode → List FVal → FVal × FFlags
  step : FLayout → RMode → FVal → List FVal → FVal × FFlags
  comb : FLayout → RMode → FVal → FVal → FVal × FFlags
  firstI : List Int → Int × FFlags
  stepI : Int → List Int → Int × FFlags
  combI : Int → Int → Int × FFlags

/-- One row of a reduction, in its destination format. -/
def State.reduceOne (s : State) (t : Nat) (x : RSpec) (j : VJob) (int : Bool) (acc : FLayout) (lanes row r rows : Nat) : Nat × FFlags :=
  let es := (List.range (min row (j.n - r * row))).map (r * row + ·)
  if int then
    let q := reduceRow lanes x.firstI x.stepI x.combI (es.map fun i => j.srcs.map fun y => s.streamInt t y j.n i)
    let v := q.1.getD 0
    let w := if j.acc then x.combI (s.streamInt t j.dst rows r) v else (v, FFlags.none)
    let o := intOut j.dst.fmt w.1
    (o.1, (q.2.or w.2).or o.2)
  else match j.dst.fmt.layout? with
    | none => (0, FFlags.none)
    | some l =>
      let q := reduceRow lanes (x.first acc j.rm) (x.step acc j.rm) (x.comb acc j.rm) (es.map fun i => j.srcs.map fun y => s.streamVal t y j.n i)
      let v := q.1.getD (.num false 0 0)
      let w := if j.acc then x.comb acc j.rm (s.streamVal t j.dst rows r) v else (v, FFlags.none)
      let o := l.rnd j.rm w.1
      (o.1, (q.2.or w.2).or o.2)

/-- A reduction instruction. -/
def State.veReduce (s : State) (t : Nat) (mf : MemFaults) (x : RSpec) : State :=
  s.takeVe t mf x.op 0 (fun _ => x.nsrc) false
    (fun s p j =>
      let fmts := j.dst.fmt :: j.srcs.map VStream.fmt
      let row := (j.src 0).row j.n
      let rows := (j.n + row - 1) / row
      [failIf (!(okFloats fmts || okInts fmts)) F_RSVD j.dst.fmtCode, failIf (decide (2 ≤ j.fn) || (j.fn == 1 && okInts fmts)) F_RSVD j.fn,
       failIf (j.srcs.any fun y => y.rowLen != (j.src 0).rowLen) F_RSVD 0] ++
      s.streamChecks t p j.dst true rows ++ (j.srcs.flatMap fun y => s.streamChecks t p y false j.n) ++
      [overlapCheck [(j.dst, rows)] (j.srcs.map fun y => (y, j.n))])
    (fun s e j =>
      let fmts := j.dst.fmt :: j.srcs.map VStream.fmt
      let row := (j.src 0).row j.n
      let rows := (j.n + row - 1) / row
      let int := okInts fmts
      let acc := if fmts.contains .fp64 || j.fn == 1 then fp64 else fp32
      let lanes := if int then 1024 else if acc.width = 64 then 512 else 1024
      let (fail, s) := s.scanAll mf t (j.srcs.map fun y => (y, j.n)) [] none
      let fail := fail.map fun q => (q.1 / row, q.2)
      let (pf, s) := if j.acc then s.scan mf (j.dst.granules t rows) else (none, s)
      let (wf, s) := s.writeFail mf t j.dst rows
      let fail := earlier (earlier fail (pf.map fun q => (q.1, eccCode q.2))) wf
      let stop := match fail with
        | some q => q.1
        | none => rows
      let rs := (List.range stop).map fun r => s.reduceOne t x j int acc lanes row r rows
      let s := (s.putCodes t j.dst rows (rs.map (·.1))).veFlags t (orFlags rs)
      match fail with
      | some q => s.failVe t e q.2 stop stop
      | none => s)

end Sys2Proof.Machine
end

