-- ==== Sys2Proof/Machine/Vector.lean ====
section
/-!
DEFINITION. The instructions of the vector engine (spec/06_vector_engine.md) and the slice cutter of the convert unit
(R176 to R185).
-/
namespace Sys2Proof.Machine

open Sys2Proof

/-! ### Arithmetic (R307, R308) -/

def v0 (l : List FVal) : FVal := l.getD 0 (.num false 0 0)
def v1 (l : List FVal) : FVal := l.getD 1 (.num false 0 0)
def v2 (l : List FVal) : FVal := l.getD 2 (.num false 0 0)
def i0 (l : List Int) : Int := l.getD 0 0
def i1 (l : List Int) : Int := l.getD 1 0
def i2 (l : List Int) : Int := l.getD 2 0

/-- a + b. -/
def execVadd (t : Fin 4) (mf : MemFaults) (s : State) : Out :=
  .next (s.veElem t mf ⟨0x60, 0, 2, some fun j l x => l.rnd j.rm (FVal.add j.rm (v0 x) (v1 x)), some fun _ x => i0 x + i1 x, false⟩)

/-- a − b. -/
def execVsub (t : Fin 4) (mf : MemFaults) (s : State) : Out :=
  .next (s.veElem t mf ⟨0x61, 0, 2, some fun j l x => l.rnd j.rm (FVal.add j.rm (v0 x) (v1 x).neg), some fun _ x => i0 x - i1 x, false⟩)

/-- a × b. -/
def execVmul (t : Fin 4) (mf : MemFaults) (s : State) : Out :=
  .next (s.veElem t mf ⟨0x62, 0, 2, some fun j l x => l.rnd j.rm (FVal.mul (v0 x) (v1 x)), some fun _ x => i0 x * i1 x, false⟩)

/-- a × b + c, one rounding. -/
def execVfma (t : Fin 4) (mf : MemFaults) (s : State) : Out :=
  .next (s.veElem t mf ⟨0x63, 0, 3, some fun j l x => l.rnd j.rm (FVal.fma j.rm (v0 x) (v1 x) (v2 x)), none, false⟩)

/-- a × b − c, one rounding. -/
def execVfms (t : Fin 4) (mf : MemFaults) (s : State) : Out :=
  .next (s.veElem t mf ⟨0x64, 0, 3, some fun j l x => l.rnd j.rm (FVal.fma j.rm (v0 x) (v1 x) (v2 x).neg), none, false⟩)

/-- a / b. -/
def execVdiv (t : Fin 4) (mf : MemFaults) (s : State) : Out :=
  .next (s.veElem t mf ⟨0x65, 0, 2, some fun j l x => l.div j.rm (v0 x) (v1 x), none, false⟩)

/-- √a. -/
def execVsqrt (t : Fin 4) (mf : MemFaults) (s : State) : Out :=
  .next (s.veElem t mf ⟨0x66, 0, 1, some fun j l x => l.sqrt j.rm (v0 x), none, false⟩)

/-! ### Bounded functions (R309, R314, R315) -/

/-- The bound of a bounded instruction in units of the last place of its destination (R307, R309). -/
def veBound (op : Nat) (l : FLayout) : Nat := if l = fp32 ∧ op ≠ 0x67 then 2 else 1

/-- The open value of a bounded function of an operand's code. -/
def boundedFree (op : Nat) (src dst : Fmt) (x mcode : Nat) : Nat := Config.boundedFn op (src.code * 16 + dst.code) x mcode

/-- A bounded instruction on a number that is not in *Special inputs*; an exponential that overflows gives +Inf (R314). -/
def veBoundedNum (op alt : Nat) (l : FLayout) (v : FVal) (free : Nat) : Nat × FFlags :=
  let y := veNear op alt v
  if op = 0x74 ∧ l.exceeds y then ((l.rnd .rne (.inf false)).1, { FFlags.none with of := true, nx := true })
  else boundedRes l y (veBound op l) (decide (y.1 < 0)) false (l.exceeds y) free

/-- The special inputs of R314: an exact value and its flags. -/
def boundedSpecial (op alt : Nat) (v : FVal) : Option (FVal × FFlags) :=
  let nv : Option (FVal × FFlags) := some (.nan false, FFlags.invalid)
  let dz : FFlags := { FFlags.none with dz := true }
  let one : FVal := .num false 1 0
  match v with
  | .nan sg => some (.nan false, { FFlags.none with nv := sg })
  | .inf n =>
    if op = 0x74 then some (if n then .num false 0 0 else .inf false, FFlags.none)
    else if op = 0x75 then (if n then nv else some (.inf false, FFlags.none))
    else if op = 0x76 then nv
    else if op = 0x67 then (if n then nv else some (.num false 0 0, FFlags.none))
    else some (.num n 1 0, FFlags.none)
  | .num n m e =>
    if m = 0 then
      if op = 0x74 then some (one, FFlags.none)
      else if op = 0x75 then some (.inf true, dz)
      else if op = 0x76 then some (if alt = 0 then v else one, FFlags.none)
      else if op = 0x67 then some (.inf n, dz)
      else some (v, FFlags.none)
    else if n ∧ (op = 0x75 ∨ op = 0x67) then nv
    else if op = 0x75 ∧ FVal.eq v one then some (.num false 0 e, FFlags.none)
    else none

/-- A bounded instruction of one source. -/
def State.veBounded (s : State) (t : Nat) (mf : MemFaults) (op alt : Nat) : State :=
  s.takeVe t mf op alt (fun _ => 1) false
    (fun s p j => failIf (!(okFloats [j.dst.fmt, (j.src 0).fmt])) F_RSVD j.dst.fmtCode :: s.elemChecks t p j [j.n])
    (fun s e j => s.veElems mf t e j [j.n] (veLanes [j.dst.fmt, (j.src 0).fmt])
      (fun s i => match j.dst.fmt.layout? with
        | none => (0, FFlags.none)
        | some l => match boundedSpecial op alt (s.streamVal t (j.src 0) j.n i) with
          | some (v, f) => ((l.rnd .rne v).1, f)
          | none => veBoundedNum op alt l (s.streamVal t (j.src 0) j.n i)
              (boundedFree (2 * op + alt) (j.src 0).fmt j.dst.fmt (s.streamCode t (j.src 0) j.n i) (s.arr t 0).mcode))
      (fun _ _ => .num false 0 0))

/-- 1 / √a. -/
def execVrsqrt (t : Fin 4) (mf : MemFaults) (s : State) : Out := .next (s.veBounded t mf 0x67 0)
/-- e^a. -/
def execVexp (t : Fin 4) (mf : MemFaults) (s : State) : Out := .next (s.veBounded t mf 0x74 0)
/-- 2^a. -/
def execVexp2 (t : Fin 4) (mf : MemFaults) (s : State) : Out := .next (s.veBounded t mf 0x74 1)
/-- ln a. -/
def execVlog (t : Fin 4) (mf : MemFaults) (s : State) : Out := .next (s.veBounded t mf 0x75 0)
/-- log2 a. -/
def execVlog2 (t : Fin 4) (mf : MemFaults) (s : State) : Out := .next (s.veBounded t mf 0x75 1)
/-- sin a. -/
def execVsin (t : Fin 4) (mf : MemFaults) (s : State) : Out := .next (s.veBounded t mf 0x76 0)
/-- cos a. -/
def execVcos (t : Fin 4) (mf : MemFaults) (s : State) : Out := .next (s.veBounded t mf 0x76 1)
/-- tanh a. -/
def execVtanh (t : Fin 4) (mf : MemFaults) (s : State) : Out := .next (s.veBounded t mf 0x77 0)
/-- erf a. -/
def execVerf (t : Fin 4) (mf : MemFaults) (s : State) : Out := .next (s.veBounded t mf 0x77 1)

/-! ### Comparison and selection (R94, R95, R307, R313) -/

/-- maximumNumber or minimumNumber of two values: a NaN of both marked signalling only if one is. -/
def pickVal (isMax : Bool) (a b : FVal) : FVal × FFlags :=
  let f : FFlags := { FFlags.none with nv := a.isSig || b.isSig }
  if a.isNan && b.isNan then (.nan false, f)
  else if a.isNan then (b, f)
  else if b.isNan then (a, f)
  else (if FVal.ltTotal a b then (if isMax then b else a) else (if isMax then a else b), f)

/-- A value with flags, rounded. -/
def rndWith (l : FLayout) (r : FVal × FFlags) : Nat × FFlags := ((l.rnd .rne r.1).1, r.2.or (l.rnd .rne r.1).2)

/-- The larger under R94. -/
def execVmax (t : Fin 4) (mf : MemFaults) (s : State) : Out :=
  .next (s.veElem t mf ⟨0x68, 0, 2, some fun _ l x => rndWith l (pickVal true (v0 x) (v1 x)), some fun _ x => max (i0 x) (i1 x), false⟩)

/-- The smaller under R94. -/
def execVmin (t : Fin 4) (mf : MemFaults) (s : State) : Out :=
  .next (s.veElem t mf ⟨0x69, 0, 2, some fun _ l x => rndWith l (pickVal false (v0 x) (v1 x)), some fun _ x => min (i0 x) (i1 x), false⟩)

/-- The magnitude. -/
def execVabs (t : Fin 4) (mf : MemFaults) (s : State) : Out :=
  .next (s.veElem t mf ⟨0x6A, 0, 1, some fun _ l x => l.rnd .rne (if (v0 x).sign then (v0 x).neg else v0 x), some fun _ x => ((i0 x).natAbs : Int), false⟩)

/-- The negation. -/
def execVneg (t : Fin 4) (mf : MemFaults) (s : State) : Out :=
  .next (s.veElem t mf ⟨0x6B, 0, 1, some fun _ l x => l.rnd .rne (v0 x).neg, some fun _ x => -(i0 x), false⟩)

/-- The predicates (R313). -/
def predInt (fn : Nat) (a b : Int) : Bool :=
  match fn with
  | 0 => decide (a = b) | 1 => decide (a ≠ b) | 2 => decide (a < b) | 3 => decide (a ≤ b) | 4 => decide (b < a) | 5 => decide (b ≤ a)
  | 6 => false | _ => true

def predFlt (fn : Nat) (a b : FVal) : Bool × FFlags :=
  let nan := a.isNan || b.isNan
  let r := if nan then fn == 1 || fn == 6
    else match fn with
      | 0 => FVal.eq a b | 1 => !FVal.eq a b | 2 => FVal.lt a b | 3 => !FVal.lt b a | 4 => FVal.lt b a | 5 => !FVal.lt a b
      | 6 => false | _ => true
  (r, { FFlags.none with nv := a.isSig || b.isSig || (nan && decide (2 ≤ fn ∧ fn ≤ 5)) })

/-- A predicate of two elements, as INT8 1 or 0. -/
def execVcmp (t : Fin 4) (mf : MemFaults) (s : State) : Out :=
  .next (s.takeVe t mf 0x6C 0 (fun _ => 2) false
    (fun s p j =>
      let fmts := j.srcs.map VStream.fmt
      [failIf (j.dst.fmt != .int8 || !(okFloats fmts || okInts fmts)) F_RSVD j.dst.fmtCode, failIf (decide (8 ≤ j.fn)) F_RSVD j.fn] ++ s.elemChecks t p j [j.n, j.n])
    (fun s e j => s.veElems mf t e j [j.n, j.n] (veLanes (j.srcs.map VStream.fmt))
      (fun s i =>
        if okInts (j.srcs.map VStream.fmt) then (b2n (predInt j.fn (s.streamInt t (j.src 0) j.n i) (s.streamInt t (j.src 1) j.n i)), FFlags.none)
        else let r := predFlt j.fn (s.streamVal t (j.src 0) j.n i) (s.streamVal t (j.src 1) j.n i); (b2n r.1, r.2))
      (fun _ _ => .num false 0 0)))

/-- a where the INT8 mask is not 0, else b. -/
def execVsel (t : Fin 4) (mf : MemFaults) (s : State) : Out :=
  .next (s.takeVe t mf 0x6D 0 (fun _ => 3) false
    (fun s p j =>
      let fmts := [j.dst.fmt, (j.src 0).fmt, (j.src 1).fmt]
      failIf ((j.src 2).fmt != .int8 || !(okFloats fmts || okInts fmts)) F_RSVD j.dst.fmtCode :: s.elemChecks t p j [j.n, j.n, j.n])
    (fun s e j => s.veElems mf t e j [j.n, j.n, j.n] (veLanes [j.dst.fmt, (j.src 0).fmt, (j.src 1).fmt])
      (fun s i =>
        let x := if s.streamInt t (j.src 2) j.n i = 0 then j.src 1 else j.src 0
        match j.dst.fmt.layout? with
        | some l => l.rnd .rne (s.streamVal t x j.n i)
        | none => intOut j.dst.fmt (s.streamInt t x j.n i))
      (fun _ _ => .num false 0 0)))

/-! ### Bit operations (R307, R311) -/

/-- A bit operation on 32-bit patterns. -/
def bitOp (f : Nat → Nat → Nat) (x : List Int) : Int := toSigned 32 (f (ofSigned 32 (i0 x)) (ofSigned 32 (i1 x)))

/-- Bitwise AND. -/
def execVand (t : Fin 4) (mf : MemFaults) (s : State) : Out := .next (s.veElem t mf ⟨0x6E, 0, 2, none, some fun _ x => bitOp Nat.land x, true⟩)
/-- Bitwise OR. -/
def execVor (t : Fin 4) (mf : MemFaults) (s : State) : Out := .next (s.veElem t mf ⟨0x6F, 0, 2, none, some fun _ x => bitOp Nat.lor x, true⟩)
/-- Bitwise exclusive OR. -/
def execVxor (t : Fin 4) (mf : MemFaults) (s : State) : Out := .next (s.veElem t mf ⟨0x70, 0, 2, none, some fun _ x => bitOp Nat.xor x, true⟩)

/-- A shift of INT32 elements by b mod 32. -/
def State.veShift (s : State) (t : Nat) (mf : MemFaults) (op : Nat) (f : Int → Nat → Int) : State :=
  s.takeVe t mf op 0 (fun _ => 2) false
    (fun s p j => failIf (!((j.dst.fmt :: j.srcs.map VStream.fmt).all (· == .int32))) F_RSVD j.dst.fmtCode :: s.elemChecks t p j [j.n, j.n])
    (fun s e j => s.veElems mf t e j [j.n, j.n] 1024
      (fun s i => (ofSigned 32 (f (s.streamInt t (j.src 0) j.n i) (s.streamCode t (j.src 1) j.n i % 32)), FFlags.none)) (fun _ _ => .num false 0 0))

/-- Shift left. -/
def execVshl (t : Fin 4) (mf : MemFaults) (s : State) : Out := .next (s.veShift t mf 0x71 fun a n => a * 2 ^ n)
/-- Shift right, arithmetic. -/
def execVsra (t : Fin 4) (mf : MemFaults) (s : State) : Out := .next (s.veShift t mf 0x72 fun a n => a / 2 ^ n)
/-- Shift right, logical. -/
def execVsrl (t : Fin 4) (mf : MemFaults) (s : State) : Out := .next (s.veShift t mf 0x73 fun a n => ((ofSigned 32 a / 2 ^ n : Nat) : Int))

/-! ### VACT and VPOLY (R248, R310, R315, R1109) -/

/-- An activation on a value, into a format (R248, R315). -/
def actVal (j : VJob) (src : Fmt) (l : FLayout) (mcode : Nat) (x : Nat) (v : FVal) : Nat × FFlags :=
  let p0 := fp32.decode ((j.src 1).w 2 % 2 ^ 32)
  let p1 := fp32.decode ((j.src 1).w 2 / 2 ^ 32)
  let zero : FVal := .num false 0 0
  match v with
  | .nan sg => (l.nanCode, { FFlags.none with nv := sg })
  | _ =>
    if j.fn = 0x0 then ((l.rnd .rne v).1, FFlags.none)
    else if j.fn = 0x1 then ((l.rnd .rne (if FVal.lt zero v then v else zero)).1, FFlags.none)
    else if j.fn = 0x2 then (if FVal.lt v zero then l.rnd .rne (FVal.mul p0 v) else l.rnd .rne v)
    else if j.fn = 0xA then ((l.rnd .rne (pickVal false (pickVal true v p0).1 p1).1).1, FFlags.none)
    else if j.fn = 0xB then l.rnd .rne (FVal.mul v v)
    else match v with
      | .inf n => ((l.rnd .rne (fp32.decode (if j.fn = 0x8 then (if n then 0 else 0x7F800000) else actInf j.fn n))).1, { FFlags.none with nx := true })
      | _ =>
        if j.fn = 0x8 ∧ !v.sign ∧ !FVal.lt v (fp32.decode 0x42B17218) then
          ((l.rnd .rne (.inf false)).1, { FFlags.none with of := true, nx := true })
        else
          let y := actNear j.fn v
          boundedRes l y (if l = fp32 then actBound j.fn else 1) v.sign (v.isZero && (j.fn == 3 || j.fn == 4 || j.fn == 5 || j.fn == 7))
            (l.exceeds y || (j.fn == 9 && !(FVal.lt v (l.decode l.maxCode)))) (boundedFree (0x200 + j.fn) src j.dst.fmt x mcode)

/-- An activation of each element. -/
def execVact (t : Fin 4) (mf : MemFaults) (s : State) : Out :=
  .next (s.takeVe t mf 0x78 0 (fun fn => if fn = 0x2 ∨ fn = 0xA then 2 else 1) false
    (fun s p j =>
      let ok := fun (f : Fmt) => f == .fp32 || f == .fp16 || f == .bf16
      let w := (j.src 1).w 2
      let p0 := fp32.decode (w % 2 ^ 32)
      let p1 := fp32.decode (w / 2 ^ 32)
      [failIf (!(ok j.dst.fmt && ok (j.src 0).fmt)) F_RSVD j.dst.fmtCode, failIf (decide (0xC ≤ j.fn)) F_RSVD j.fn,
       failIf (j.srcs.length == 2 && ((j.src 1).kind != 2 || (j.src 1).fmt != .fp64)) F_RSVD (j.src 1).fmtCode,
       failIf (j.fn == 0x2 && decide (2 ^ 32 ≤ w)) F_RSVD w, failIf (j.fn == 0xA && (p0.isNan || p1.isNan || FVal.lt p1 p0)) F_RSVD w] ++
      s.elemChecks t p j [j.n, j.n])
    (fun s e j => s.veElems mf t e j [j.n, j.n] (veLanes [j.dst.fmt, (j.src 0).fmt])
      (fun s i => match j.dst.fmt.layout? with
        | none => (0, FFlags.none)
        | some l => actVal j (j.src 0).fmt l (s.arr t 0).mcode (s.streamCode t (j.src 0) j.n i) (s.streamVal t (j.src 0) j.n i))
      (fun _ _ => .num false 0 0)))

/-- Horner's rule with fused multiply-add, in the compute format: coefficients from the highest down. -/
def horner (l : FLayout) (rm : RMode) (a : FVal) : List FVal → Nat × FFlags
  | [] => (0, FFlags.none)
  | c :: cs => cs.foldl (fun (acc : Nat × FFlags) c => let r := l.rnd rm (FVal.fma rm (l.decode acc.1) a c); (r.1, acc.2.or r.2)) ((l.rnd rm c).1, FFlags.none)

/-- A polynomial of each element, its coefficients in source 1. -/
def execVpoly (t : Fin 4) (mf : MemFaults) (s : State) : Out :=
  .next (s.takeVe t mf 0x79 0 (fun _ => 2) false
    (fun s p j =>
      let fmts := [j.dst.fmt, (j.src 0).fmt, (j.src 1).fmt]
      let cf := veCompute fmts
      [failIf (!(okFloats fmts)) F_RSVD j.dst.fmtCode, failIf (decide (j.fn = 0 ∨ 16 ≤ j.fn)) F_RSVD j.fn,
       failIf (j.dst.fmt != cf || (j.src 1).fmt != cf) F_RSVD j.dst.fmtCode] ++ s.elemChecks t p j [j.n, if j.n = 0 then 0 else j.fn + 1])
    (fun s e j =>
      if j.n = 0 then s
      else
        let (cfail, s) := s.scan mf ((j.src 1).granules t (j.fn + 1))
        match cfail with
        | some q => s.failVe t e (eccCode q.2) 0 0
        | none => s.veElems mf t e { j with srcs := [j.src 0] } [j.n] (veLanes [j.dst.fmt])
          (fun s i => match j.dst.fmt.layout? with
            | none => (0, FFlags.none)
            | some l => horner l j.rm (s.streamVal t (j.src 0) j.n i)
                (((List.range (j.fn + 1)).map fun k => s.streamVal t (j.src 1) (j.fn + 1) k).reverse))
          (fun _ _ => .num false 0 0)))

/-! ### VCVT (R312) -/

/-- One element converted to a format without a shared scale (R69, R91, R107). -/
def cvtVal (src dst : Fmt) (conv : Nat) (v : FVal) : Nat × FFlags :=
  let (rm, rule) := (convControl dst conv).getD (.rne, .ieee)
  let big := match v with
    | .num _ m e => m != 0 && decide (128 ≤ expOf m e)
    | _ => false
  if src.isMx && dst == .fp32 && big then (if v.sign then 0xFF800000 else 0x7F800000, { FFlags.none with of := true })
  else convPlain dst rm rule v

/-- Conversion between any two formats. -/
def execVcvt (t : Fin 4) (mf : MemFaults) (s : State) : Out :=
  .next (s.takeVe t mf 0x80 0 (fun _ => 1) false
    (fun s p j => failIf (convControl j.dst.fmt j.conv).isNone F_RSVD j.conv :: s.elemChecks t p j [j.n])
    (fun s e j => s.veElems mf t e j [j.n] (veLanes [j.dst.fmt, (j.src 0).fmt])
      (fun s i => cvtVal (j.src 0).fmt j.dst.fmt j.conv (s.streamVal t (j.src 0) j.n i))
      (fun s i => s.streamVal t (j.src 0) j.n i)))

/-! ### Reductions -/

/-- A rounded value, decoded again. -/
def rndVal (l : FLayout) (rm : RMode) (v : FVal) : FVal × FFlags := let r := l.rnd rm v; (l.decode r.1, r.2)

/-- An INT32 result that wraps (R311). -/
def wrap32 (i : Int) : Int × FFlags := (toSigned 32 (ofSigned 32 i), { FFlags.none with iov := decide (i < -(2 ^ 31)) || decide (2 ^ 31 ≤ i) })

/-- The sum of each row. -/
def execVrsum (t : Fin 4) (mf : MemFaults) (s : State) : Out :=
  .next (s.veReduce t mf
    { op := 0x7A, nsrc := 1, first := fun _ _ x => (v0 x, FFlags.none), step := fun l rm a x => rndVal l rm (FVal.add rm a (v0 x)),
      comb := fun l rm a b => rndVal l rm (FVal.add rm a b), firstI := fun x => (i0 x, FFlags.none), stepI := fun a x => wrap32 (a + i0 x),
      combI := fun a b => wrap32 (a + b) })

/-- The dot product of each row. -/
def execVrdot (t : Fin 4) (mf : MemFaults) (s : State) : Out :=
  .next (s.veReduce t mf
    { op := 0x7B, nsrc := 2, first := fun l rm x => rndVal l rm (FVal.mul (v0 x) (v1 x)),
      step := fun l rm a x => rndVal l rm (FVal.fma rm (v0 x) (v1 x) a), comb := fun l rm a b => rndVal l rm (FVal.add rm a b),
      firstI := fun x => wrap32 (i0 x * i1 x),
      stepI := fun a x => let p := wrap32 (i0 x * i1 x); let r := wrap32 (p.1 + a); (r.1, p.2.or r.2),
      combI := fun a b => wrap32 (a + b) })

/-- The largest of each row. -/
def execVrmax (t : Fin 4) (mf : MemFaults) (s : State) : Out :=
  .next (s.veReduce t mf
    { op := 0x7C, nsrc := 1, first := fun _ _ x => (v0 x, FFlags.none), step := fun _ _ a x => pickVal true a (v0 x),
      comb := fun _ _ a b => pickVal true a b, firstI := fun x => (i0 x, FFlags.none), stepI := fun a x => (max a (i0 x), FFlags.none),
      combI := fun a b => (max a b, FFlags.none) })

/-- The smallest of each row. -/
def execVrmin (t : Fin 4) (mf : MemFaults) (s : State) : Out :=
  .next (s.veReduce t mf
    { op := 0x7D, nsrc := 1, first := fun _ _ x => (v0 x, FFlags.none), step := fun _ _ a x => pickVal false a (v0 x),
      comb := fun _ _ a b => pickVal false a b, firstI := fun x => (i0 x, FFlags.none), stepI := fun a x => (min a (i0 x), FFlags.none),
      combI := fun a b => (min a b, FFlags.none) })

/-! ### VTOPK (R325 to R330) -/

/-- Entry x ranks before entry y (R327). -/
def ranksBefore (smallest : Bool) (x y : FVal × Nat) : Bool :=
  if x.1.isNan then y.1.isNan && decide (x.2 < y.2)
  else if y.1.isNan then true
  else
    let a := if smallest then x.1 else y.1
    let b := if smallest then y.1 else x.1
    FVal.ltTotal a b || (!FVal.ltTotal b a && decide (x.2 < y.2))

def rankInsert (smallest : Bool) (x : FVal × Nat) : List (FVal × Nat) → List (FVal × Nat)
  | [] => [x]
  | y :: rest => if ranksBefore smallest x y then x :: y :: rest else y :: rankInsert smallest x rest

/-- The k best of a row, filled with NaN and position 0xFFFF_FFFF (R329). -/
def topK (smallest : Bool) (k : Nat) (xs : List (FVal × Nat)) : List (FVal × Nat) :=
  ((xs.foldl (fun acc x => rankInsert smallest x acc) []) ++ List.replicate k (FVal.nan false, 0xFFFFFFFF)).take k

/-- The k best values of each row with their positions. -/
def execVtopk (t : Fin 4) (mf : MemFaults) (s : State) : Out :=
  .next (s.takeVe t mf 0x7E 0 (fun fn => if bitN fn 5 then 2 else 1) true
    (fun s p j =>
      let k := j.fn % 16
      let row := (j.src 0).row j.n
      let count := (j.n + row - 1) / row * k
      let srcs := j.srcs.map fun y => (y, j.n)
      [failIf (decide (k = 0 ∨ 8 < k ∨ 64 ≤ j.fn)) F_RSVD j.fn, failIf (!(okFloats [(j.src 0).fmt]) || j.dst.fmt != (j.src 0).fmt) F_RSVD j.dst.fmtCode,
       failIf (j.pos.fmt != .int32 || (j.srcs.length == 2 && (j.src 1).fmt != .int32)) F_RSVD j.pos.fmtCode] ++
      s.streamChecks t p j.dst true count ++ s.streamChecks t p j.pos true count ++ (srcs.flatMap fun y => s.streamChecks t p y.1 false y.2) ++
      [overlapCheck [(j.dst, count), (j.pos, count)] srcs])
    (fun s e j =>
      let k := j.fn % 16
      let row := (j.src 0).row j.n
      let rows := (j.n + row - 1) / row
      let count := rows * k
      let (fail, s) := s.scanAll mf t (j.srcs.map fun y => (y, j.n)) [] none
      let (wd, s) := s.writeFail mf t j.dst count
      let (wp, s) := s.writeFail mf t j.pos count
      let inRow := fun (q : Nat × Nat) => (q.1 / k, q.2)
      let fail := earlier (earlier (fail.map fun q => (q.1 / row, q.2)) (wd.map inRow)) (wp.map inRow)
      let stop := match fail with
        | some q => q.1
        | none => rows
      let res := (List.range stop).flatMap fun r => topK (bitN j.fn 4) k ((List.range (min row (j.n - r * row))).map fun i =>
        (s.streamVal t (j.src 0) j.n (r * row + i), if bitN j.fn 5 then s.streamCode t (j.src 1) j.n (r * row + i) else i))
      let sig := (List.range (min (stop * row) j.n)).any fun i => (s.streamVal t (j.src 0) j.n i).isSig
      let l := (j.dst.fmt.layout?).getD fp32
      let s := ((s.putCodes t j.dst count (res.map fun q => (l.rnd .rne q.1).1)).putCodes t j.pos count (res.map (·.2))).veFlags t { FFlags.none with nv := sig }
      match fail with
      | some q => s.failVe t e q.2 stop stop
      | none => s))

/-! ### VRNG (R331 to R335) -/

def rotl32 (x n : Nat) : Nat := (x * 2 ^ n + x / 2 ^ (32 - n)) % 2 ^ 32

/-- The generator's state after ten rounds. -/
def rngRounds (k0 k1 : Nat) : Nat → Nat → Nat × Nat × Nat × Nat → Nat × Nat × Nat × Nat
  | 0, _, x => x
  | n + 1, r, (x0, x1, x2, x3) =>
    let x0 := (x0 + k0 + r * 0x9E3779B9) % 2 ^ 32
    let x2 := Nat.xor x2 ((k1 + r * 0xBB67AE85) % 2 ^ 32)
    let x0 := (x0 + x1) % 2 ^ 32
    let x1 := Nat.xor (rotl32 x1 ([13, 15, 26, 6].getD (r % 4) 0)) x0
    let x2 := (x2 + x3) % 2 ^ 32
    let x3 := Nat.xor (rotl32 x3 ([16, 23, 17, 29].getD (r % 4) 0)) x2
    rngRounds k0 k1 n (r + 1) (x0, x3, x2, x1)

/-- The four output words of a key and a counter (R331). -/
def rngWords (key ctr : Nat) : List Nat :=
  let k0 := key % 2 ^ 32
  let k1 := key / 2 ^ 32 % 2 ^ 32
  let w := fun i => ctr / 2 ^ (32 * i) % 2 ^ 32
  let x := rngRounds k0 k1 10 0 (w 0, w 1, w 2, w 3)
  [(x.1 + k0) % 2 ^ 32, Nat.xor x.2.1 k1, (x.2.2.1 + k1) % 2 ^ 32, Nat.xor x.2.2.2 k0]

/-- The value of element e (R332, R333). -/
def rngElem (d : Fmt) (open_ : Bool) (key ctr e : Nat) : Nat :=
  let o := b2n open_
  match d with
  | .fp64 =>
    let y := rngWords key ((ctr + e / 2) % 2 ^ 128)
    let w := y.getD (e % 2 * 2) 0 + y.getD (e % 2 * 2 + 1) 0 * 2 ^ 32
    (fp64.rnd .rne (.num false (w / 2 ^ 11 + o) (-53))).1
  | _ =>
    let w := (rngWords key ((ctr + e / 4) % 2 ^ 128)).getD (e % 4) 0
    match d with
    | .fp32 => (fp32.rnd .rne (.num false (w / 2 ^ 8 + o) (-24))).1
    | .fp16 => (fp16.rnd .rne (.num false (w / 2 ^ 21 + o) (-11))).1
    | .bf16 => (bf16.rnd .rne (.num false (w / 2 ^ 24 + o) (-8))).1
    | _ => w

/-- Random numbers from a key and a counter. -/
def execVrng (t : Fin 4) (mf : MemFaults) (s : State) : Out :=
  .next (s.takeVe t mf 0x7F 0 (fun _ => 1) false
    (fun s p j =>
      let wb := (spmBase t, j.desc + 40)
      [failIf (!(okFloats [j.dst.fmt] || j.dst.fmt == .int32)) F_RSVD j.dst.fmtCode, failIf (decide (2 ≤ j.fn % 128)) F_RSVD j.fn,
       failIf ((j.src 0).w 3 != 0) F_RSVD ((j.src 0).w 3)] ++ s.streamChecks t p j.dst true j.n ++
      [failIf (decide (128 ≤ j.fn) && (j.dst.ranges j.n).any fun r => decide (r.1 < (wb.2 + 16 : Nat) ∧ (wb.2 : Int) < r.2)) F_OVERLAP wb.2])
    (fun s e j =>
      let g := j.src 0
      let ctr := g.w 1 + g.w 2 * 2 ^ 64
      let per := if j.dst.fmt = .fp64 then 2 else 4
      let lanes := veLanes [j.dst.fmt]
      let (fail, s) := s.writeFail mf t j.dst j.n
      let cut := match fail with
        | some i => i.1 / lanes * lanes
        | none => j.n
      let s := s.putCodes t j.dst j.n ((List.range cut).map fun i => rngElem j.dst.fmt (j.fn % 2 == 1) (g.w 0) ctr i)
      match fail with
      | some i => s.failVe t e i.2 cut i.1
      | none =>
        if 128 ≤ j.fn then
          match s.storeChecked mf (spmBase t + j.desc + 40) (leBytes 16 ((ctr + (j.n + per - 1) / per) % 2 ^ 128)) with
          | (some _, s) => s.failVe t e F_SPM_ECC cut cut
          | (none, s) => s
        else s))

/-- The oldest VE instruction completes: it is counted and its INC is added (R303, R344). -/
def execVeInstrDone (t : Fin 4) (s : State) : Out :=
  .next <| if (s.queue t 4).active = [] then s
  else (s.modTile t fun x => { x with veDone := sat32 (x.veDone + 1) }).completeFirst t 4 fun _ => true

/-! ### CSLC (R176 to R185) -/

/-- The exponent of a row (R177): none for the non-finite marker. -/
def sliceExp (vs : List FVal) : Option Int :=
  if vs.any fun v => !v.isFinite then none
  else match blockExps vs with
    | [] => some 0
    | x :: xs => some (xs.foldl max x + 1)

/-- Slice i of s of an element (R177), as a byte. -/
def sliceOf (sl : Nat) (e : Option Int) (i : Nat) (v : FVal) : Nat :=
  match e, v with
  | some e, .num n m x =>
    let k : Int := x + 7 * sl - e
    let big := if 0 ≤ k then m * 2 ^ k.toNat else m / 2 ^ (-k).toNat
    let d := big / 2 ^ (7 * (sl - 1 - i)) % 128
    ofSigned 8 (if n then -(d : Int) else d)
  | _, _ => 0

/-- Cut rows in order until one fails: the rows cut, and the code. -/
def State.cutRows (s : State) (mf : MemFaults) (t : Nat) (e : QEntry) (x : FmtX) : Nat → Nat → Nat × Option Nat × State
  | 0, r => (r, none, s)
  | n + 1, r =>
    let src := (gaddr e.g x.ra + r * gstride e.g x.rb).toNat
    match s.load mf (spmBase t + src) (8 * x.l) with
    | (.error g, s) => (r, some (eccCode g), s)
    | (.ok bs, s) =>
      let vs := (chunksOf 8 x.l bs).map fp64.decode
      let ex := sliceExp vs
      let writes := ((List.range x.s).map fun (i : Nat) =>
          ((gaddr e.g x.rc + i * gstride e.g x.re + r * gstride e.g x.rd).toNat, vs.map (fun v => BitVec.ofNat 8 (sliceOf x.s ex i v)) ++
            List.replicate ((32 - x.l % 32) % 32) 0)) ++
        [(gaddr e.g x.rf + 2 * r, leBytes 2 (match ex with
          | none => 0x7FFF
          | some k => ofSigned 16 k))]
      match writes.find? fun w => (s.writeErr mf (spmBase t + w.1) w.2.length).isSome with
      | some w => (r, some (eccCode (spmBase t + w.1)), (s.mergeErr mf (spmBase t + w.1) w.2.length).2)
      | none => State.cutRows (writes.foldl (fun s w => s.poke (spmBase t + w.1) w.2) s) mf t e x n (r + 1)

/-- A range at a signed offset of the scratchpad (R31, R183). -/
def State.spmCheck (s : State) (t : Nat) (off : Int) (n : Nat) : Check :=
  failIf (n != 0 && (decide (off < 0) || !(s.spmRangeOk t off.toNat n))) F_BOUNDS (off % 2 ^ 64).toNat

/-- Cuts FP64 rows into slices. A row that fails leaves the slices and exponents of the later rows undefined (R416). -/
def execCslc (t : Fin 4) (mf : MemFaults) (s : State) : Out :=
  .next <| match s.popHead t 5 (· == 0x81) with
  | none => s
  | some (e, s) =>
    let x := fmtX e.word
    let p := s.partOf t e
    let rows := List.range x.rows
    let pad := (x.l + 31) / 32 * 32
    let idle := x.rows = 0 ∨ x.l = 0
    let checks : List Check := [failIf (x.rsvd != 0 || decide (x.s < 3 ∨ 8 < x.s)) F_RSVD x.s, failIf (decide (1024 < x.rows)) F_BOUNDS x.rows,
      failIf (decide (131072 < x.l)) F_BOUNDS x.l, s.incCheck p x.ctr x.ri]
    let more : List Check := if idle ∨ 1024 < x.rows ∨ 131072 < x.l then [] else
      [failIf (decide (gaddr e.g x.ra % 8 ≠ 0) || decide (gstride e.g x.rb % 8 ≠ 0)) F_ALIGN (gaddr e.g x.ra),
       failIf (decide (gaddr e.g x.rc % 32 ≠ 0) || decide (gstride e.g x.rd % 32 ≠ 0) || decide (gstride e.g x.re % 32 ≠ 0)) F_ALIGN (gaddr e.g x.rc),
       failIf (decide (gaddr e.g x.rf % 2 ≠ 0)) F_ALIGN (gaddr e.g x.rf)] ++
      (rows.flatMap fun (r : Nat) => s.spmCheck t (gaddr e.g x.ra + r * gstride e.g x.rb) (8 * x.l) ::
        s.spmCheck t (gaddr e.g x.rf + 2 * r) 2 ::
        (List.range x.s).map fun (i : Nat) => s.spmCheck t (gaddr e.g x.rc + i * gstride e.g x.re + r * gstride e.g x.rd) pad)
    match firstCheck (checks ++ more) with
    | some (code, info) => s.failEntry t 5 e code 0 info false
    | none =>
      let s := s.activate t 5 e
      if idle then s
      else match s.cutRows mf t e x x.rows 0 with
        | (_, none, s) => s
        | (r, some code, s) =>
          let lost := (List.range (x.rows - r)).flatMap fun k => (spmBase t + gaddr e.g x.rf + 2 * (r + k), 2) ::
            (List.range x.s).map fun (i : Nat) => (spmBase t + (gaddr e.g x.rc + i * gstride e.g x.re + (r + k : Nat) * gstride e.g x.rd).toNat, pad)
          (s.scrambleAll lost).failEntry t 5 e code r r false

/-- A CSLC completes and adds its INC (R402). -/
def execCslcDone (t : Fin 4) (s : State) : Out := .next <| s.completeFirst t 5 fun _ => true

end Sys2Proof.Machine
end

