-- ==== Sys2Proof/Machine/ViewAccess.lean ====
section
/-!
DEFINITION. Accesses of a master of the package through a Winnow view window (R493 to R516): the convert
units' effect, whichever master asks.
-/
namespace Sys2Proof.Machine

open Sys2Proof

/-- VIEW_READ: a master of partition p on Tiller t reads `len` bytes of view v's window from `off` (R493, R495 to R504).
The bytes returned are shown; of a block that returns no data, nothing. -/
def execViewRead (t : Fin 4) (p : Fin 8) (v : Fin 256) (off len : Nat) (mf : MemFaults) (s : State) : Out :=
  .next <|
    if !(s.viewReadOk p v off len) then s.viewRefused t
    else
      let r := s.viewRead mf v off len
      r.2.2.emit (.bytes r.2.1)

/-- A write of whole, naturally aligned elements of a non-MX view (R493, R512, R514). -/
def State.viewWriteRow (s : State) (t p v off : Nat) (data : List Byte) (mf : MemFaults) : State :=
  let e := (vTgt (s.view v)).bits / 8
  if !(s.viewWriteOk p v off data.length) then s.viewRefused t
  else if off % e ≠ 0 ∨ data.length % e ≠ 0 then s
  else (s.viewWrite mf v off data).2.2

/-- VIEW_WRITE_REPLACE: a write through a view in replace mode (R507). -/
def execViewWriteReplace (t : Fin 4) (p : Fin 8) (v : Fin 256) (off : Nat) (data : List Byte) (mf : MemFaults) (s : State) : Out :=
  .next <| if vAccum (s.view v) then s else s.viewWriteRow t p v off data mf

/-- VIEW_WRITE_ACCUMULATE: a write through a view in accumulate mode (R508). -/
def execViewWriteAccumulate (t : Fin 4) (p : Fin 8) (v : Fin 256) (off : Nat) (data : List Byte) (mf : MemFaults) (s : State) : Out :=
  .next <| if vAccum (s.view v) then s.viewWriteRow t p v off data mf else s

end Sys2Proof.Machine
end

