-- ==== Sys2Proof/Machine/Dispatch.lean ====
section
/-! DEFINITION. The dispatch: one arm for each command, a direct call of its meaning. -/

namespace Sys2Proof.Machine

open Sys2Proof

/-- The effect of one command on everything but the queue. -/
def exec (i : Instr) (s : State) : Host.Outcome State Fault Refusal :=
  match i with
  | .pwrgdRise fuses latchLow => Sys2Proof.Machine.execPwrgdRise fuses latchLow s
  | .pwrgdFall => Sys2Proof.Machine.execPwrgdFall s
  | .resetAssert => Sys2Proof.Machine.execResetAssert s
  | .resetRelease => Sys2Proof.Machine.execResetRelease s
  | .refclkLoss => Sys2Proof.Machine.execRefclkLoss s
  | .refclkReturn => Sys2Proof.Machine.execRefclkReturn s
  | .latchOpen => Sys2Proof.Machine.execLatchOpen s
  | .latchClose => Sys2Proof.Machine.execLatchClose s
  | .buttonPress => Sys2Proof.Machine.execButtonPress s
  | .serviceButton ms => Sys2Proof.Machine.execServiceButton ms s
  | .buttonStuck => Sys2Proof.Machine.execButtonStuck s
  | .overcurrent t => Sys2Proof.Machine.execOvercurrent t s
  | .railSample samples watts => Sys2Proof.Machine.execRailSample samples watts s
  | .thermalSample temps => Sys2Proof.Machine.execThermalSample temps s
  | .thermtrip stack idx temp => Sys2Proof.Machine.execThermtrip stack idx temp s
  | .thermtripRelease => Sys2Proof.Machine.execThermtripRelease s
  | .vackWrite k v => Sys2Proof.Machine.execVackWrite k v s
  | .vsetTimeout k => Sys2Proof.Machine.execVsetTimeout k s
  | .islandSample samples requests => Sys2Proof.Machine.execIslandSample samples requests s
  | .i3cAddressAssign addr => Sys2Proof.Machine.execI3cAddressAssign addr s
  | .i3cEnec => Sys2Proof.Machine.execI3cEnec s
  | .i3cPrivateWrite off data => Sys2Proof.Machine.execI3cPrivateWrite off data s
  | .i3cPrivateRead len => Sys2Proof.Machine.execI3cPrivateRead len s
  | .extest data => Sys2Proof.Machine.execExtest data s
  | .samplePreload data => Sys2Proof.Machine.execSamplePreload data s
  | .idcode data => Sys2Proof.Machine.execIdcode data s
  | .mbacc off write => Sys2Proof.Machine.execMbacc off write s
  | .bypass opcode data => Sys2Proof.Machine.execBypass opcode data s
  | .trst => Sys2Proof.Machine.execTrst s
  | .stage1ImageVerify sigA sigB journalOk failedCores modules => Sys2Proof.Machine.execStage1ImageVerify sigA sigB journalOk failedCores modules s
  | .stage2Hbm up => Sys2Proof.Machine.execStage2Hbm up s
  | .stage3Boot image => Sys2Proof.Machine.execStage3Boot image s
  | .stage4TillerBringup t banks defects => Sys2Proof.Machine.execStage4TillerBringup t banks defects s
  | .stage4Complete => Sys2Proof.Machine.execStage4Complete s
  | .domainJoin => Sys2Proof.Machine.execDomainJoin s
  | .stageBudgetExpiry => Sys2Proof.Machine.execStageBudgetExpiry s
  | .scarabLockstep => Sys2Proof.Machine.execScarabLockstep s
  | .scarabRestartDone => Sys2Proof.Machine.execScarabRestartDone s
  | .fwReverted => Sys2Proof.Machine.execFwReverted s
  | .status m => Sys2Proof.Machine.execStatus m s
  | .nodeReady m => Sys2Proof.Machine.execNodeReady m s
  | .restart m => Sys2Proof.Machine.execRestart m s
  | .coreStart m => Sys2Proof.Machine.execCoreStart m s
  | .join m => Sys2Proof.Machine.execJoin m s
  | .placeSet m => Sys2Proof.Machine.execPlaceSet m s
  | .notifySet m => Sys2Proof.Machine.execNotifySet m s
  | .partSet m => Sys2Proof.Machine.execPartSet m s
  | .partStart m => Sys2Proof.Machine.execPartStart m s
  | .partStop m => Sys2Proof.Machine.execPartStop m s
  | .partReset m => Sys2Proof.Machine.execPartReset m s
  | .keySet m => Sys2Proof.Machine.execKeySet m s
  | .keyGet m => Sys2Proof.Machine.execKeyGet m s
  | .memInterleave m => Sys2Proof.Machine.execMemInterleave m s
  | .memRegulator m => Sys2Proof.Machine.execMemRegulator m s
  | .memBlockMode m => Sys2Proof.Machine.execMemBlockMode m s
  | .memUeLimit m => Sys2Proof.Machine.execMemUeLimit m s
  | .memScrub m => Sys2Proof.Machine.execMemScrub m s
  | .rowAck m => Sys2Proof.Machine.execRowAck m s
  | .retireRead m => Sys2Proof.Machine.execRetireRead m s
  | .portRoles m => Sys2Proof.Machine.execPortRoles m s
  | .laneLimit m => Sys2Proof.Machine.execLaneLimit m s
  | .portRetrain m => Sys2Proof.Machine.execPortRetrain m s
  | .laserEvacuate m => Sys2Proof.Machine.execLaserEvacuate m s
  | .tableSet m peer => Sys2Proof.Machine.execTableSet m peer s
  | .exportSet m => Sys2Proof.Machine.execExportSet m s
  | .replicaSet m => Sys2Proof.Machine.execReplicaSet m s
  | .domainTimeout m => Sys2Proof.Machine.execDomainTimeout m s
  | .windowSet m => Sys2Proof.Machine.execWindowSet m s
  | .connOpen m => Sys2Proof.Machine.execConnOpen m s
  | .connClose m => Sys2Proof.Machine.execConnClose m s
  | .connTimeout m => Sys2Proof.Machine.execConnTimeout m s
  | .viewSet m => Sys2Proof.Machine.execViewSet m s
  | .viewCounts m => Sys2Proof.Machine.execViewCounts m s
  | .huskConfig m => Sys2Proof.Machine.execHuskConfig m s
  | .huskFreeze m => Sys2Proof.Machine.execHuskFreeze m s
  | .huskAbandon m => Sys2Proof.Machine.execHuskAbandon m s
  | .huskCommit m => Sys2Proof.Machine.execHuskCommit m s
  | .huskRollback m => Sys2Proof.Machine.execHuskRollback m s
  | .huskRestore m => Sys2Proof.Machine.execHuskRestore m s
  | .ringSet m => Sys2Proof.Machine.execRingSet m s
  | .groupSet m => Sys2Proof.Machine.execGroupSet m s
  | .groupReset m => Sys2Proof.Machine.execGroupReset m s
  | .sensors m => Sys2Proof.Machine.execSensors m s
  | .tillerCap m => Sys2Proof.Machine.execTillerCap m s
  | .tillerState m o => Sys2Proof.Machine.execTillerState m o s
  | .fwInfo m => Sys2Proof.Machine.execFwInfo m s
  | .fwWrite m o => Sys2Proof.Machine.execFwWrite m o s
  | .fwVerify m o => Sys2Proof.Machine.execFwVerify m o s
  | .fwActivate m => Sys2Proof.Machine.execFwActivate m s
  | .fwCommit m => Sys2Proof.Machine.execFwCommit m s
  | .ucodeApply m => Sys2Proof.Machine.execUcodeApply m s
  | .logInfo m => Sys2Proof.Machine.execLogInfo m s
  | .logRead m => Sys2Proof.Machine.execLogRead m s
  | .hbm1500 m o => Sys2Proof.Machine.execHbm1500 m o s
  | .hbmBist m o => Sys2Proof.Machine.execHbmBist m o s
  | .hbmModereg m o => Sys2Proof.Machine.execHbmModereg m o s
  | .hbmRepair m o => Sys2Proof.Machine.execHbmRepair m o s
  | .arrayMap m => Sys2Proof.Machine.execArrayMap m s
  | .maintStatus m => Sys2Proof.Machine.execMaintStatus m s
  | .maintCancel m => Sys2Proof.Machine.execMaintCancel m s
  | .maintDeferredStart n o => Sys2Proof.Machine.execMaintDeferredStart n o s
  | .logProgram n erases worn => Sys2Proof.Machine.execLogProgram n erases worn s
  | .pinnedWrite erases worn => Sys2Proof.Machine.execPinnedWrite erases worn s
  | .entryStart t mf => Sys2Proof.Machine.execEntryStart t mf s
  | .collSlotRelease t c => Sys2Proof.Machine.execCollSlotRelease t c s
  | .timeSlice t c => Sys2Proof.Machine.execTimeSlice t c s
  | .contextWake t c => Sys2Proof.Machine.execContextWake t c s
  | .queueSpaceFreed t c => Sys2Proof.Machine.execQueueSpaceFreed t c s
  | .queueEntry t c mf => Sys2Proof.Machine.execQueueEntry t c mf s
  | .entryTimeout t c => Sys2Proof.Machine.execEntryTimeout t c s
  | .entryComplete t c => Sys2Proof.Machine.execEntryComplete t c s
  | .nop t c mf => Sys2Proof.Machine.execNop t c mf s
  | .endEntry t c mf => Sys2Proof.Machine.execEnd t c mf s
  | .endAbort t c mf => Sys2Proof.Machine.execEndAbort t c mf s
  | .li t c mf => Sys2Proof.Machine.execLi t c mf s
  | .alu t c mf => Sys2Proof.Machine.execAlu t c mf s
  | .alui t c mf => Sys2Proof.Machine.execAlui t c mf s
  | .ld t c mf => Sys2Proof.Machine.execLd t c mf s
  | .st t c mf => Sys2Proof.Machine.execSt t c mf s
  | .br t c mf => Sys2Proof.Machine.execBr t c mf s
  | .jal t c mf => Sys2Proof.Machine.execJal t c mf s
  | .jalr t c mf => Sys2Proof.Machine.execJalr t c mf s
  | .yield t c mf => Sys2Proof.Machine.execYield t c mf s
  | .csrr t c mf => Sys2Proof.Machine.execCsrr t c mf s
  | .sfenceQueue t c mf => Sys2Proof.Machine.execSfenceQueue t c mf s
  | .sfenceAll t c mf => Sys2Proof.Machine.execSfenceAll t c mf s
  | .sqwait t c mf => Sys2Proof.Machine.execSqwait t c mf s
  | .sqwaitRelease t q => Sys2Proof.Machine.execSqwaitRelease t q s
  | .sqwaitTimeout t q => Sys2Proof.Machine.execSqwaitTimeout t q s
  | .tadd t c mf => Sys2Proof.Machine.execTadd t c mf s
  | .tset t c mf => Sys2Proof.Machine.execTset t c mf s
  | .tcas t c mf => Sys2Proof.Machine.execTcas t c mf s
  | .tread t c mf => Sys2Proof.Machine.execTread t c mf s
  | .twait t c mf => Sys2Proof.Machine.execTwait t c mf s
  | .twaitTimeout t c => Sys2Proof.Machine.execTwaitTimeout t c s
  | .ccopy t q mf => Sys2Proof.Machine.execCcopy t q mf s
  | .cfill t q mf => Sys2Proof.Machine.execCfill t q mf s
  | .cgather t q mf => Sys2Proof.Machine.execCgather t q mf s
  | .copyDone t q => Sys2Proof.Machine.execCopyDone t q s
  | .rstore t q mf => Sys2Proof.Machine.execRstore t q mf s
  | .rfstore t q mf => Sys2Proof.Machine.execRfstore t q mf s
  | .rload t q mf => Sys2Proof.Machine.execRload t q mf s
  | .ratom t q mf => Sys2Proof.Machine.execRatom t q mf s
  | .rput t q mf => Sys2Proof.Machine.execRput t q mf s
  | .rget t q mf => Sys2Proof.Machine.execRget t q mf s
  | .rtadd t q mf => Sys2Proof.Machine.execRtadd t q mf s
  | .remoteOpDone op => Sys2Proof.Machine.execRemoteOpDone op s
  | .flaggedStoreRelease op mf => Sys2Proof.Machine.execFlaggedStoreRelease op mf s
  | .counterAdditionSend op => Sys2Proof.Machine.execCounterAdditionSend op s
  | .planeHoldRelease op mf => Sys2Proof.Machine.execPlaneHoldRelease op mf s
  | .domainStorePiece slot piece job addr data mf => Sys2Proof.Machine.execDomainStorePiece slot piece job addr data mf s
  | .domainLoadRequest slot piece job addr len mf => Sys2Proof.Machine.execDomainLoadRequest slot piece job addr len mf s
  | .domainAtomicPiece slot piece job addr atop w64 x cmp mf => Sys2Proof.Machine.execDomainAtomicPiece slot piece job addr atop w64 x cmp mf s
  | .domainCounterAddition slot piece job ctr x => Sys2Proof.Machine.execDomainCounterAddition slot piece job ctr x s
  | .domainAck op piece => Sys2Proof.Machine.execDomainAck op piece s
  | .domainLoadData op piece data mf => Sys2Proof.Machine.execDomainLoadData op piece data mf s
  | .domainAtomicResult op prior mf => Sys2Proof.Machine.execDomainAtomicResult op prior mf s
  | .domainRefusal op piece code => Sys2Proof.Machine.execDomainRefusal op piece code s
  | .domainAccessTimeout op piece => Sys2Proof.Machine.execDomainAccessTimeout op piece s
  | .putPiece c psn w gen off data mf => Sys2Proof.Machine.execPutPiece c psn w gen off data mf s
  | .getRequest c psn w gen off len mf => Sys2Proof.Machine.execGetRequest c psn w gen off len mf s
  | .getResponse op piece data mf => Sys2Proof.Machine.execGetResponse op piece data mf s
  | .transportCounterAddition c psn w ctr x => Sys2Proof.Machine.execTransportCounterAddition c psn w ctr x s
  | .transportAck c psn srttUs => Sys2Proof.Machine.execTransportAck c psn srttUs s
  | .transportNak c => Sys2Proof.Machine.execTransportNak c s
  | .transportRefusal c psn code => Sys2Proof.Machine.execTransportRefusal c psn code s
  | .retransmissionTimeout c => Sys2Proof.Machine.execRetransmissionTimeout c s
  | .connectionFailure c => Sys2Proof.Machine.execConnectionFailure c s
  | .windowFetch c w => Sys2Proof.Machine.execWindowFetch c w s
  | .windowDescriptor c w valid job rights len cntBase cntCount gen mf => Sys2Proof.Machine.execWindowDescriptor c w valid job rights len cntBase cntCount gen mf s
  | .windowInvalidation c w => Sys2Proof.Machine.execWindowInvalidation c w s
  | .mldb t a mf => Sys2Proof.Machine.execMldb t a mf s
  | .mmul t a mf mism => Sys2Proof.Machine.execMmul t a mf mism s
  | .macm t a mf => Sys2Proof.Machine.execMacm t a mf s
  | .mfld t a mf => Sys2Proof.Machine.execMfld t a mf s
  | .mcmb t a mf => Sys2Proof.Machine.execMcmb t a mf s
  | .msetp t a mf => Sys2Proof.Machine.execMsetp t a mf s
  | .msete t a mf => Sys2Proof.Machine.execMsete t a mf s
  | .mepi t a mf => Sys2Proof.Machine.execMepi t a mf s
  | .mchn t a mf => Sys2Proof.Machine.execMchn t a mf s
  | .mwait t a => Sys2Proof.Machine.execMwait t a s
  | .mwaitRelease t a => Sys2Proof.Machine.execMwaitRelease t a s
  | .mwaitTimeout t a => Sys2Proof.Machine.execMwaitTimeout t a s
  | .arrayOpDone t a => Sys2Proof.Machine.execArrayOpDone t a s
  | .arrayAbist t a defects mism mf => Sys2Proof.Machine.execArrayAbist t a defects mism mf s
  | .vadd t mf => Sys2Proof.Machine.execVadd t mf s
  | .vsub t mf => Sys2Proof.Machine.execVsub t mf s
  | .vmul t mf => Sys2Proof.Machine.execVmul t mf s
  | .vfma t mf => Sys2Proof.Machine.execVfma t mf s
  | .vfms t mf => Sys2Proof.Machine.execVfms t mf s
  | .vdiv t mf => Sys2Proof.Machine.execVdiv t mf s
  | .vsqrt t mf => Sys2Proof.Machine.execVsqrt t mf s
  | .vrsqrt t mf => Sys2Proof.Machine.execVrsqrt t mf s
  | .vmax t mf => Sys2Proof.Machine.execVmax t mf s
  | .vmin t mf => Sys2Proof.Machine.execVmin t mf s
  | .vabs t mf => Sys2Proof.Machine.execVabs t mf s
  | .vneg t mf => Sys2Proof.Machine.execVneg t mf s
  | .vcmp t mf => Sys2Proof.Machine.execVcmp t mf s
  | .vsel t mf => Sys2Proof.Machine.execVsel t mf s
  | .vand t mf => Sys2Proof.Machine.execVand t mf s
  | .vor t mf => Sys2Proof.Machine.execVor t mf s
  | .vxor t mf => Sys2Proof.Machine.execVxor t mf s
  | .vshl t mf => Sys2Proof.Machine.execVshl t mf s
  | .vsra t mf => Sys2Proof.Machine.execVsra t mf s
  | .vsrl t mf => Sys2Proof.Machine.execVsrl t mf s
  | .vexp t mf => Sys2Proof.Machine.execVexp t mf s
  | .vexp2 t mf => Sys2Proof.Machine.execVexp2 t mf s
  | .vlog t mf => Sys2Proof.Machine.execVlog t mf s
  | .vlog2 t mf => Sys2Proof.Machine.execVlog2 t mf s
  | .vsin t mf => Sys2Proof.Machine.execVsin t mf s
  | .vcos t mf => Sys2Proof.Machine.execVcos t mf s
  | .vtanh t mf => Sys2Proof.Machine.execVtanh t mf s
  | .verf t mf => Sys2Proof.Machine.execVerf t mf s
  | .vact t mf => Sys2Proof.Machine.execVact t mf s
  | .vpoly t mf => Sys2Proof.Machine.execVpoly t mf s
  | .vrsum t mf => Sys2Proof.Machine.execVrsum t mf s
  | .vrdot t mf => Sys2Proof.Machine.execVrdot t mf s
  | .vrmax t mf => Sys2Proof.Machine.execVrmax t mf s
  | .vrmin t mf => Sys2Proof.Machine.execVrmin t mf s
  | .vtopk t mf => Sys2Proof.Machine.execVtopk t mf s
  | .vrng t mf => Sys2Proof.Machine.execVrng t mf s
  | .vcvt t mf => Sys2Proof.Machine.execVcvt t mf s
  | .veInstrDone t => Sys2Proof.Machine.execVeInstrDone t s
  | .cslc t mf => Sys2Proof.Machine.execCslc t mf s
  | .cslcDone t => Sys2Proof.Machine.execCslcDone t s
  | .spmBankCopy t => Sys2Proof.Machine.execSpmBankCopy t s
  | .hbmRequestGrant k => Sys2Proof.Machine.execHbmRequestGrant k s
  | .hbmEpoch k => Sys2Proof.Machine.execHbmEpoch k s
  | .hbmPatrolScrub k n mf => Sys2Proof.Machine.execHbmPatrolScrub k n mf s
  | .hbmRefresh k bank => Sys2Proof.Machine.execHbmRefresh k bank s
  | .hbmTempRead k temp => Sys2Proof.Machine.execHbmTempRead k temp s
  | .hbmSoftRepair k mf => Sys2Proof.Machine.execHbmSoftRepair k mf s
  | .hbmRowFence k row => Sys2Proof.Machine.execHbmRowFence k row s
  | .viewRead t p v off len mf => Sys2Proof.Machine.execViewRead t p v off len mf s
  | .viewWriteReplace t p v off data mf => Sys2Proof.Machine.execViewWriteReplace t p v off data mf s
  | .viewWriteAccumulate t p v off data mf => Sys2Proof.Machine.execViewWriteAccumulate t p v off data mf s
  | .huskTrigger p => Sys2Proof.Machine.execHuskTrigger p s
  | .huskFrozen p => Sys2Proof.Machine.execHuskFrozen p s
  | .huskCowCopy p addr data mf => Sys2Proof.Machine.execHuskCowCopy p addr data mf s
  | .huskReserveFreed p => Sys2Proof.Machine.execHuskReserveFreed p s
  | .huskOverflow p => Sys2Proof.Machine.execHuskOverflow p s
  | .huskShardDrained p j mf => Sys2Proof.Machine.execHuskShardDrained p j mf s
  | .huskManifestSend p => Sys2Proof.Machine.execHuskManifestSend p s
  | .huskComplete p => Sys2Proof.Machine.execHuskComplete p s
  | .huskRolledBack p => Sys2Proof.Machine.execHuskRolledBack p s
  | .huskManifestCheck p manifest verified => Sys2Proof.Machine.execHuskManifestCheck p manifest verified s
  | .huskShardRestore p j data => Sys2Proof.Machine.execHuskShardRestore p j data s
  | .huskRestored p => Sys2Proof.Machine.execHuskRestored p s
  | .dataFrame k f => Sys2Proof.Machine.execDataFrame k f s
  | .idleFrame k f => Sys2Proof.Machine.execIdleFrame k f s
  | .nakFrame k f => Sys2Proof.Machine.execNakFrame k f s
  | .lanemapFrame k f => Sys2Proof.Machine.execLanemapFrame k f s
  | .trainFrame k f => Sys2Proof.Machine.execTrainFrame k f s
  | .badFrame k crc codewords => Sys2Proof.Machine.execBadFrame k crc codewords s
  | .replayTimeout k => Sys2Proof.Machine.execReplayTimeout k s
  | .linkDownTimeout k => Sys2Proof.Machine.execLinkDownTimeout k s
  | .detectSuccess k => Sys2Proof.Machine.execDetectSuccess k s
  | .detectTimeout k => Sys2Proof.Machine.execDetectTimeout k s
  | .alignSuccess k goodTx goodRx => Sys2Proof.Machine.execAlignSuccess k goodTx goodRx s
  | .alignTimeout k => Sys2Proof.Machine.execAlignTimeout k s
  | .exchangeTimeout k => Sys2Proof.Machine.execExchangeTimeout k s
  | .backoffExpiry k => Sys2Proof.Machine.execBackoffExpiry k s
  | .darkProbe k => Sys2Proof.Machine.execDarkProbe k s
  | .fibreOut k => Sys2Proof.Machine.execFibreOut k s
  | .fibreIn k => Sys2Proof.Machine.execFibreIn k s
  | .lightLoss k => Sys2Proof.Machine.execLightLoss k s
  | .laneFailing k lane => Sys2Proof.Machine.execLaneFailing k lane s
  | .sparingTimeout k => Sys2Proof.Machine.execSparingTimeout k s
  | .laneFailed k lane => Sys2Proof.Machine.execLaneFailed k lane s
  | .laserSourceFail k b => Sys2Proof.Machine.execLaserSourceFail k b s
  | .laserPoll m powers temp10 alarm lost => Sys2Proof.Machine.execLaserPoll m powers temp10 alarm lost s
  | .laserModulePull m => Sys2Proof.Machine.execLaserModulePull m s
  | .laserModuleInsert m ok vendor => Sys2Proof.Machine.execLaserModuleInsert m ok vendor s
  | .laserSetpointReached m => Sys2Proof.Machine.execLaserSetpointReached m s
  | .feedOut m => Sys2Proof.Machine.execFeedOut m s
  | .feedIn m ok vendor => Sys2Proof.Machine.execFeedIn m ok vendor s
  | .cacheCe owner => Sys2Proof.Machine.execCacheCe owner s
  | .cacheUe owner addr => Sys2Proof.Machine.execCacheUe owner addr s
  | .coreLoad h w signed fp short rd rs1 imm mf => Sys2Proof.Machine.execCoreLoad h w signed fp short rd rs1 imm mf s
  | .coreStore h w fp short rs2 rs1 imm mf => Sys2Proof.Machine.execCoreStore h w fp short rs2 rs1 imm mf s
  | .coreAmo h op w64 aq rl rd rs1 rs2 mf => Sys2Proof.Machine.execCoreAmo h op w64 aq rl rd rs1 rs2 mf s
  | .coreLrSc h sc w64 rd rs1 rs2 mf => Sys2Proof.Machine.execCoreLrSc h sc w64 rd rs1 rs2 mf s
  | .coreFence h pred succ => Sys2Proof.Machine.execCoreFence h pred succ s
  | .coreCsrAccess h csr kind imm rd src => Sys2Proof.Machine.execCoreCsrAccess h csr kind imm rd src s
  | .svadd h sz pg rd rs1 rs2 => Sys2Proof.Machine.execSvadd h sz pg rd rs1 rs2 s
  | .svsub h sz pg rd rs1 rs2 => Sys2Proof.Machine.execSvsub h sz pg rd rs1 rs2 s
  | .svadds h sz pg rd rs1 rs2 => Sys2Proof.Machine.execSvadds h sz pg rd rs1 rs2 s
  | .svaddsu h sz pg rd rs1 rs2 => Sys2Proof.Machine.execSvaddsu h sz pg rd rs1 rs2 s
  | .svsubs h sz pg rd rs1 rs2 => Sys2Proof.Machine.execSvsubs h sz pg rd rs1 rs2 s
  | .svsubsu h sz pg rd rs1 rs2 => Sys2Proof.Machine.execSvsubsu h sz pg rd rs1 rs2 s
  | .svmul h sz pg rd rs1 rs2 => Sys2Proof.Machine.execSvmul h sz pg rd rs1 rs2 s
  | .svmulhr h sz pg rd rs1 rs2 => Sys2Proof.Machine.execSvmulhr h sz pg rd rs1 rs2 s
  | .svsrar h sz pg rd rs1 rs2 => Sys2Proof.Machine.execSvsrar h sz pg rd rs1 rs2 s
  | .svslls h sz pg rd rs1 rs2 => Sys2Proof.Machine.execSvslls h sz pg rd rs1 rs2 s
  | .svsll h sz pg rd rs1 rs2 => Sys2Proof.Machine.execSvsll h sz pg rd rs1 rs2 s
  | .svsrl h sz pg rd rs1 rs2 => Sys2Proof.Machine.execSvsrl h sz pg rd rs1 rs2 s
  | .svsra h sz pg rd rs1 rs2 => Sys2Proof.Machine.execSvsra h sz pg rd rs1 rs2 s
  | .svmin h sz pg rd rs1 rs2 => Sys2Proof.Machine.execSvmin h sz pg rd rs1 rs2 s
  | .svmax h sz pg rd rs1 rs2 => Sys2Proof.Machine.execSvmax h sz pg rd rs1 rs2 s
  | .svminu h sz pg rd rs1 rs2 => Sys2Proof.Machine.execSvminu h sz pg rd rs1 rs2 s
  | .svmaxu h sz pg rd rs1 rs2 => Sys2Proof.Machine.execSvmaxu h sz pg rd rs1 rs2 s
  | .svand h sz pg rd rs1 rs2 => Sys2Proof.Machine.execSvand h sz pg rd rs1 rs2 s
  | .svor h sz pg rd rs1 rs2 => Sys2Proof.Machine.execSvor h sz pg rd rs1 rs2 s
  | .svxor h sz pg rd rs1 rs2 => Sys2Proof.Machine.execSvxor h sz pg rd rs1 rs2 s
  | .svavgr h sz pg rd rs1 rs2 => Sys2Proof.Machine.execSvavgr h sz pg rd rs1 rs2 s
  | .svcmpeq h sz pg rd rs1 rs2 => Sys2Proof.Machine.execSvcmpeq h sz pg rd rs1 rs2 s
  | .svcmplt h sz pg rd rs1 rs2 => Sys2Proof.Machine.execSvcmplt h sz pg rd rs1 rs2 s
  | .svcmpltu h sz pg rd rs1 rs2 => Sys2Proof.Machine.execSvcmpltu h sz pg rd rs1 rs2 s
  | .svsel h sz pg rd rs1 rs2 => Sys2Proof.Machine.execSvsel h sz pg rd rs1 rs2 s
  | .svfadd h sz pg rd rs1 rs2 => Sys2Proof.Machine.execSvfadd h sz pg rd rs1 rs2 s
  | .svfmul h sz pg rd rs1 rs2 => Sys2Proof.Machine.execSvfmul h sz pg rd rs1 rs2 s
  | .svfma h sz pg rd rs1 rs2 => Sys2Proof.Machine.execSvfma h sz pg rd rs1 rs2 s
  | .svmv h sz pg rd rs1 rs2 => Sys2Proof.Machine.execSvmv h sz pg rd rs1 rs2 s
  | .svld h sz pg rd rs1 rs2 mf => Sys2Proof.Machine.execSvld h sz pg rd rs1 rs2 mf s
  | .svst h sz pg rd rs1 rs2 mf => Sys2Proof.Machine.execSvst h sz pg rd rs1 rs2 mf s
  | .svpop h sz pg rd rs1 rs2 => Sys2Proof.Machine.execSvpop h sz pg rd rs1 rs2 s
  | .lvfadd h sz rm rd rs1 rs2 => Sys2Proof.Machine.execLvfadd h sz rm rd rs1 rs2 s
  | .lvfsub h sz rm rd rs1 rs2 => Sys2Proof.Machine.execLvfsub h sz rm rd rs1 rs2 s
  | .lvfmul h sz rm rd rs1 rs2 => Sys2Proof.Machine.execLvfmul h sz rm rd rs1 rs2 s
  | .lvfma h sz rm rd rs1 rs2 => Sys2Proof.Machine.execLvfma h sz rm rd rs1 rs2 s
  | .lvfnms h sz rm rd rs1 rs2 => Sys2Proof.Machine.execLvfnms h sz rm rd rs1 rs2 s
  | .lvfdiv h sz rm rd rs1 rs2 => Sys2Proof.Machine.execLvfdiv h sz rm rd rs1 rs2 s
  | .lvfsqrt h sz rm rd rs1 rs2 => Sys2Proof.Machine.execLvfsqrt h sz rm rd rs1 rs2 s
  | .lvfmin h sz rm rd rs1 rs2 => Sys2Proof.Machine.execLvfmin h sz rm rd rs1 rs2 s
  | .lvfmax h sz rm rd rs1 rs2 => Sys2Proof.Machine.execLvfmax h sz rm rd rs1 rs2 s
  | .lvfsum h sz rm rd rs1 rs2 => Sys2Proof.Machine.execLvfsum h sz rm rd rs1 rs2 s
  | .lvfcvt h sz rm rd rs1 rs2 => Sys2Proof.Machine.execLvfcvt h sz rm rd rs1 rs2 s
  | .lvadd h sz rm rd rs1 rs2 => Sys2Proof.Machine.execLvadd h sz rm rd rs1 rs2 s
  | .lvsub h sz rm rd rs1 rs2 => Sys2Proof.Machine.execLvsub h sz rm rd rs1 rs2 s
  | .lvand h sz rm rd rs1 rs2 => Sys2Proof.Machine.execLvand h sz rm rd rs1 rs2 s
  | .lvor h sz rm rd rs1 rs2 => Sys2Proof.Machine.execLvor h sz rm rd rs1 rs2 s
  | .lvxor h sz rm rd rs1 rs2 => Sys2Proof.Machine.execLvxor h sz rm rd rs1 rs2 s
  | .lvld h sz rm rd rs1 rs2 mf => Sys2Proof.Machine.execLvld h sz rm rd rs1 rs2 mf s
  | .lvldff h sz rm rd rs1 rs2 mf => Sys2Proof.Machine.execLvldff h sz rm rd rs1 rs2 mf s
  | .lvst h sz rm rd rs1 rs2 mf => Sys2Proof.Machine.execLvst h sz rm rd rs1 rs2 mf s
  | .lvins h sz rm rd rs1 rs2 => Sys2Proof.Machine.execLvins h sz rm rd rs1 rs2 s
  | .lvext h sz rm rd rs1 rs2 => Sys2Proof.Machine.execLvext h sz rm rd rs1 rs2 s
  | .lvsplat h sz rm rd rs1 rs2 => Sys2Proof.Machine.execLvsplat h sz rm rd rs1 rs2 s
  | .ctPortRead t h => Sys2Proof.Machine.execCtPortRead t h s
  | .ctPortAdd t h => Sys2Proof.Machine.execCtPortAdd t h s
  | .ctPortSet t h => Sys2Proof.Machine.execCtPortSet t h s
  | .ctPortCas t h => Sys2Proof.Machine.execCtPortCas t h s
  | .ctPortArm t h => Sys2Proof.Machine.execCtPortArm t h s
  | .ctPortDisarm t h => Sys2Proof.Machine.execCtPortDisarm t h s
  | .ctPResLoRead t h => Sys2Proof.Machine.execCtPResLoRead t h s
  | .dbTailWrite m t r v => Sys2Proof.Machine.execDbTailWrite m t r v s
  | .dbCheadWrite m t r v => Sys2Proof.Machine.execDbCheadWrite m t r v s
  | .dbRpendRead m t w => Sys2Proof.Machine.execDbRpendRead m t w s
  | .acCohDataWrite m v => Sys2Proof.Machine.execAcCohDataWrite m v s
  | .maRepairDataWrite m t a kind v => Sys2Proof.Machine.execMaRepairDataWrite m t a kind v s
  | .maRepairDataRead m t a => Sys2Proof.Machine.execMaRepairDataRead m t a s
  | .hcScrubCfgWrite m k kind v => Sys2Proof.Machine.execHcScrubCfgWrite m k kind v s
  | .hcLastUeLoRead m k => Sys2Proof.Machine.execHcLastUeLoRead m k s
  | .acMtimeLoRead m => Sys2Proof.Machine.execAcMtimeLoRead m s
  | .idSerialLoRead m => Sys2Proof.Machine.execIdSerialLoRead m s
  | .flNewestLoRead m => Sys2Proof.Machine.execFlNewestLoRead m s
  | .rkDataRead m => Sys2Proof.Machine.execRkDataRead m s
  | .sqRingDataRead m t => Sys2Proof.Machine.execSqRingDataRead m t s
  | .sqCtxDataRead m t => Sys2Proof.Machine.execSqCtxDataRead m t s
  | .hcRegDataRead m k => Sys2Proof.Machine.execHcRegDataRead m k s
  | .hcRepairDataRead m k => Sys2Proof.Machine.execHcRepairDataRead m k s
  | .wvDataRead m t => Sys2Proof.Machine.execWvDataRead m t s
  | .acCoreDataRead m => Sys2Proof.Machine.execAcCoreDataRead m s
  | .dmSlotDataRead m => Sys2Proof.Machine.execDmSlotDataRead m s
  | .xpConnDataRead m => Sys2Proof.Machine.execXpConnDataRead m s
  | .opLaneDataRead m k => Sys2Proof.Machine.execOpLaneDataRead m k s
  | .lsDataRead m => Sys2Proof.Machine.execLsDataRead m s
  | .plTblDataRead m => Sys2Proof.Machine.execPlTblDataRead m s
  | .hkDataRead m => Sys2Proof.Machine.execHkDataRead m s
  | .stDataRead m => Sys2Proof.Machine.execStDataRead m s
  | .flDataRead m => Sys2Proof.Machine.execFlDataRead m s
  | .ckDataRead m => Sys2Proof.Machine.execCkDataRead m s
  | .pwDataRead m => Sys2Proof.Machine.execPwDataRead m s
  | .icLineDataAccess m write => Sys2Proof.Machine.execIcLineDataAccess m write s
  | .maFlagsRead m t a => Sys2Proof.Machine.execMaFlagsRead m t a s
  | .veFlagsRead m t => Sys2Proof.Machine.execVeFlagsRead m t s
  | .sqFlagsRead m t => Sys2Proof.Machine.execSqFlagsRead m t s
  | .hcFlagsRead m k => Sys2Proof.Machine.execHcFlagsRead m k s
  | .wvFlagsRead m t => Sys2Proof.Machine.execWvFlagsRead m t s
  | .acFlagsRead m => Sys2Proof.Machine.execAcFlagsRead m s
  | .dmFlagsRead m => Sys2Proof.Machine.execDmFlagsRead m s
  | .ctFlagsRead m t => Sys2Proof.Machine.execCtFlagsRead m t s
  | .ctHitRead m t hi => Sys2Proof.Machine.execCtHitRead m t hi s
  | .xpFlagsRead m => Sys2Proof.Machine.execXpFlagsRead m s
  | .opFlagsRead m k => Sys2Proof.Machine.execOpFlagsRead m k s
  | .lsFlagsRead m => Sys2Proof.Machine.execLsFlagsRead m s
  | .plFlagsRead m => Sys2Proof.Machine.execPlFlagsRead m s
  | .rkFlagsRead m => Sys2Proof.Machine.execRkFlagsRead m s
  | .hkFlagsRead m => Sys2Proof.Machine.execHkFlagsRead m s
  | .stFlagsRead m => Sys2Proof.Machine.execStFlagsRead m s
  | .mbFlagsRead m mb => Sys2Proof.Machine.execMbFlagsRead m mb s
  | .idFlagsRead m => Sys2Proof.Machine.execIdFlagsRead m s
  | .flFlagsRead m => Sys2Proof.Machine.execFlFlagsRead m s
  | .ckFlagsRead m => Sys2Proof.Machine.execCkFlagsRead m s
  | .pwFlagsRead m => Sys2Proof.Machine.execPwFlagsRead m s
  | .registerWrite m addr v => Sys2Proof.Machine.execRegisterWrite m addr v s
  | .beacon frame time echo diff => Sys2Proof.Machine.execBeacon frame time echo diff s
  | .beaconMiss => Sys2Proof.Machine.execBeaconMiss s
  | .memberSlot => Sys2Proof.Machine.execMemberSlot s
  | .joinSlot => Sys2Proof.Machine.execJoinSlot s
  | .joinRetry => Sys2Proof.Machine.execJoinRetry s
  | .assign serial member delay advance => Sys2Proof.Machine.execAssign serial member delay advance s
  | .place place site => Sys2Proof.Machine.execPlace place site s
  | .mailbox seq frag frags data => Sys2Proof.Machine.execMailbox seq frag frags data s
  | .pinnedReturn frag frags data => Sys2Proof.Machine.execPinnedReturn frag frags data s
  | .offset ns => Sys2Proof.Machine.execOffset ns s
  | .release => Sys2Proof.Machine.execRelease s
  | .pinnedAck seq => Sys2Proof.Machine.execPinnedAck seq s
  | .pinnedResend => Sys2Proof.Machine.execPinnedResend s
  | .muteTimeout => Sys2Proof.Machine.execMuteTimeout s
  | .cricketFibreOut => Sys2Proof.Machine.execCricketFibreOut s
  | .cricketFibreIn => Sys2Proof.Machine.execCricketFibreIn s
  | .cricketBurst ok second => Sys2Proof.Machine.execCricketBurst ok second s
  | .powerOn slotA slotB active mode => Sys2Proof.Machine.execPowerOn slotA slotB active mode s
  | .machineTimerInterrupt h => Sys2Proof.Machine.execMachineTimerInterrupt h s
  | .acCohDataRead m => Sys2Proof.Machine.execAcCohDataRead m s
  | .liveHandOver => Sys2Proof.Machine.execLiveHandOver s
  | .undefinedOpcode t c mf => Sys2Proof.Machine.execUndefinedOpcode t c mf s
  | .illegalInstruction h => Sys2Proof.Machine.execIllegalInstruction h s

end Sys2Proof.Machine
end

