-- ==== Sys2Proof/Machine/Step.lean ====
section
/-!
DEFINITION. The step of the package: the command at the front of the queue is performed; an empty queue
lets package time pass.
-/
namespace Sys2Proof.Machine

open Sys2Proof

/-- What the package does while no command waits: package time advances by 1 ns and nothing else
changes (DESIGN CHOICE, log entry 2). -/
def idleTick (s : State) : State := { s with timeNs := s.timeNs + 1 }

/-- One step. -/
def step (s : State) : Host.Outcome State Fault Refusal :=
  match s.pending with
  | [] => .next (idleTick s)
  | c :: rest => exec c { s with pending := rest }

/-- The state with the command that a word spells at the front of its queue; unchanged where the word
spells none. -/
def State.withFetchWord (s : State) (nbits w : Nat) : State :=
  match decodeTableWord nbits w with
  | some c => { s with pending := c :: s.pending }
  | none => s

end Sys2Proof.Machine
end

