-- ==== Sys2Proof/Safety.lean ====
section
/-!
DEFINITION. The terms in which the claims speak of runs and of states.
-/
namespace Sys2Proof

open Sys2Proof.Machine

/-- The command answers the state `t`. -/
def Runs (c : Instr) (s t : State) : Prop := exec c s = .next t

/-- The command answers a next state: it neither stops the machine nor is refused. -/
def Completes (c : Instr) (s : State) : Prop := ∃ t, Runs c s t

/-- Context c of Tiller t can issue, and fetches the word w; `s'` is the state after the fetch (R348, R389, R390). -/
def Issues (s : State) (mf : MemFaults) (t : Fin 4) (c : Fin 128) (w : W128) (s' : State) : Prop :=
  s.canIssue t c = true ∧ s.fetch mf t c = (.ok w, s')

/-- Entry e is the oldest that waits in queue q of Tiller t, `rest` wait behind it, and its opcode is `o` (R351). -/
def HeadIs (s : State) (t q o : Nat) (e : QEntry) (rest : List QEntry) : Prop :=
  (s.queue t q).waiting = e :: rest ∧ opc e.word = o

/-- Entry e heads the queue of code q of Tiller t with opcode `o`; `s'` is the state without it in the queue (R353). -/
def Takes (s : State) (t q o : Nat) (e : QEntry) (s' : State) : Prop := s.popHead t q (· == o) = some (e, s')

/-- Entry e heads copy queue q of Tiller t with the remote opcode `o`, and no local copy of that queue is in progress;
`s'` is the state without it in the queue (R356). -/
def TakesRemote (s : State) (t q o : Nat) (e : QEntry) (s' : State) : Prop := s.popRemote t q (· == o) = some (e, s')

/-- None of the checks at issue fails (R404). -/
def Passes (cs : List Check) : Prop := firstCheck cs = none

/-- Array a of Tiller t, in service and held by no test, starts the operation `o` of entry e: no reserved field is set,
the array is the partition's and so is the counter; `s'` is the state with the entry out of the queue (R160, R162). -/
def StartsArray (s : State) (t a o : Nat) (rsvd : FmtM → Bool) (e : QEntry) (s' : State) : Prop :=
  (s.arr t a).repairing = false ∧ Takes s t a o e s' ∧ (s'.arr t a).retired = false ∧ (fmtM e.word).rsvd = 0 ∧
  rsvd (fmtM e.word) = false ∧ bitN (s'.part (s'.partOf t e)).arrays (4 * t + a) = true ∧
  s'.incCheck (s'.partOf t e) (fmtM e.word).ctr (fmtM e.word).ri = none

/-- `u 0`, `u 1`, … is the state before row 0, row 1, … of n rows, each row being performed by `row`. -/
def Rows (n : Nat) (u : Nat → State) (row : Nat → State → State → Prop) : Prop := ∀ i < n, row i (u i) (u (i + 1))

/-- The vector engine of Tiller t takes entry e of opcode `o` and ALT `alt` with k sources, none of its reserved fields
set, its descriptor block in the scratchpad, its counter the partition's, and no granule uncorrectable: `j` is what its
fields and its descriptors name, and `s'` the state with the entry out of the queue (R286 to R289, R404). -/
def StartsVector (s : State) (t o alt k : Nat) (pos : Bool) (e : QEntry) (j : VJob) (s' : State) : Prop :=
  let v := fmtV e.word
  let n := if v.rn = 0 then v.n else gaddr e.g v.rn
  let desc := v.desc + gaddr e.g v.rds
  let slot := fun (i : Nat) => VStream.mk ((chunksOf 8 4 (s'.peek (spmBase t + desc + 32 * i) 32)).map (BitVec.ofNat 64))
  Takes s t 4 o e s' ∧ v.alt = alt ∧ veRsvd v o = false ∧ desc % 32 = 0 ∧ s'.spmRangeOk t desc 128 = true ∧ n ≤ 65535 ∧
  s'.incCheck (s'.partOf t e) v.ctr v.ri = none ∧ s'.bad = [] ∧
  j = { n := n, fn := v.fn, rm := veMode v.rm, conv := v.conv, acc := v.acc == 1, desc := desc, dst := slot 0,
        srcs := (List.range k).map fun i => slot (i + 1), pos := if pos then slot 3 else ⟨[]⟩ }

/-- The state after a vector instruction that writes `rs`, codes with their flags, to the elements of its output, `n` of
them, and goes on to its completion (R301, R341). -/
def vectorWrites (s : State) (t : Nat) (e : QEntry) (j : VJob) (n : Nat) (rs : List (Nat × FFlags)) : State :=
  ((s.activate t 4 e).putCodes t j.dst n (rs.map (·.1))).veFlags t (orFlags rs)

/-- Core h is in service, waits for nothing and has no interrupt to take; `s'` is the state in which it executes an
instruction of `len` bytes (R529, R589). -/
def Executes (s : State) (h len : Nat) (s' : State) : Prop :=
  (s.core h).runs = true ∧ s.pendingIntr h = none ∧ s' = s.modCore h fun c => { c with ilen := len }

/-- Core h executes an instruction of four bytes with VXS not Off (R530, R566). -/
def ExecutesVector (s : State) (h : Nat) : Prop :=
  (s.core h).runs = true ∧ s.pendingIntr h = none ∧ (s.core h).vxs ≠ 0

/-- The instruction of four bytes has the effect `f` on core h and completes: no other core and nothing outside the cores
changes. -/
def coreDone (s : State) (h : Nat) (f : Core → Core) : State :=
  s.modCore h fun c => { f c with pc := c.pc + 4, ilen := 4, wait := .none }

/-- The command of mailbox m is the one that Sunas performs next; it is the command c of k, and it passes every check
that commands have in common. `t` is the state in which its own rules are applied (R929 to R936). -/
def Serves (s : State) (k : CmdSpec) (m : Nat) (c : Cmd) (t : State) : Prop :=
  let w0 := headerWord (s.mbox m).header 0
  s.nextMbox = some m ∧ (s.mbox m).opcode = k.op ∧ t = s.takeMbox m ∧ c = k.read m (s.mbox m).header (s.mbox m).payload ∧
  k.allowed c = true ∧ k.lenOk c (field w0 56 32) (bitN w0 17) = true ∧ t.badHeader c = [] ∧ k.badPayload c = [] ∧ t.gated c = false

/-- The state after mailbox m is answered: commands of unknown opcodes whose turn it then is are answered too (R934). -/
def answered (t : State) (m status detail : Nat) (payload : List Byte) : State := (t.respond m status detail payload).drainBad

/-- An activity conflicts with nothing that is in progress or waits (R943). -/
def Unblocked (t : State) (act : Activity) (res : List Res) : Prop := t.actBlocked act res t.sunas.nextTicket = false

end Sys2Proof
end

