-- ==== Sys2Proof/Certificates/Slice0/Obligations.lean ====
section
/-!
DEFINITION. The statements for the provers.
-/
open Sys2Proof Sys2Proof.Machine

/-! ### The queue, and what every command keeps -/

/-- One step takes the command at the front of the queue and performs it with the rest of the queue in its place; on
an empty queue package time advances by 1 ns and nothing else changes (the model's choice, log entry 2). -/
def Obligations.StepTakesTheFrontCommand : Prop :=
  (∀ (c : Instr) (rest : List Instr) (s : State), s.pending = c :: rest → step s = exec c { s with pending := rest }) ∧
  (∀ s : State, s.pending = [] → step s = .next { s with timeNs := s.timeNs + 1 })

/-- No command touches the queue: it is the sender's. -/
def Obligations.CommandsLeaveTheQueue : Prop :=
  ∀ (c : Instr) (s t : State), exec c s = .next t → t.pending = s.pending

/-- Every step keeps memory in its canonical form: rising addresses, and no entry equal to what an unlisted address
reads as. -/
def Obligations.MemoryStaysCanonical : Prop :=
  ∀ s t : State, s.mem.wf = true → step s = .next t → t.mem.wf = true

/-- R1053: package time never goes backward, whatever the command, and over steps. -/
def Obligations.PackageTimeNeverGoesBack : Prop :=
  (∀ (c : Instr) (s t : State), exec c s = .next t → s.timeNs ≤ t.timeNs) ∧
  (∀ s t : State, step s = .next t → s.timeNs ≤ t.timeNs)

/-- R973: STEPPING, GRADE, TILLER_MHZ and SERIAL are loaded at stage 0 and never change: no command but the rise of
PWRGD_IN, which is stage 0, writes them. -/
def Obligations.IdentityNeverChanges : Prop :=
  ∀ (c : Instr) (s t : State), (∀ f l, c ≠ .pwrgdRise f l) → exec c s = .next t →
    t.start.grade = s.start.grade ∧ t.start.stepping = s.start.stepping ∧ t.start.tillerMhz = s.start.tillerMhz ∧
    t.start.serial = s.start.serial

/-- R954: the anti-rollback version in the fuses only rises. -/
def Obligations.RollbackVersionOnlyRises : Prop :=
  ∀ (c : Instr) (s t : State), exec c s = .next t → s.sunas.fuseVersion ≤ t.sunas.fuseVersion

/-- What reset leaves: no command waits, memory lists nothing and is canonical, package time and every tally counter are
0 (R626), no Tiller or stack is in service, every ring is disabled, every partition is UNSET (R938), every mailbox is
idle, and the start has not begun. -/
def Obligations.ResetState : Prop :=
  State.reset.pending = [] ∧ State.reset.mem.wf = true ∧ (∀ a, Memory.read State.reset.mem a = 0) ∧
  State.reset.timeNs = 0 ∧ (∀ n, State.reset.ctr n = 0) ∧ (∀ t, (State.reset.tile t).inService = false) ∧
  (∀ k, (State.reset.stack k).serves = false) ∧ (∀ t r, (State.reset.ring t r).enable = false) ∧
  (∀ p, (State.reset.part p).st = .unset) ∧ (∀ m, (State.reset.mbox m).st = 0) ∧ State.reset.start.begun = false

/-! ### The sequencer (R345 to R425) -/

/-- R387, R388: NOP, LI, ALU, ALUI, BR, JAL, JALR and YIELD, with every reserved field 0: the register they write, the
program counter and the count of issued instructions, and nothing else of the state that their fetch leaves. A jump
whose target the program may not run is not one of these. -/
def Obligations.ControlInstructions : Prop :=
  ∀ (s s' : State) (mf : MemFaults) (t : Fin 4) (c : Fin 128) (w : W128), Issues s mf t c w s' →
    let f := fmtC w
    let g := (s'.ctx t c).g
    let pc := (s'.ctx t c).pc
    let goes := fun (rd : Nat) (v target : W64) => s'.modCtx t c fun x => { x with g := gset x.g rd v, pc := target, issued := x.issued + 1 }
    let legal := fun (a : W64) => s'.inProgRange t (s'.ctx t c).partition a.toNat 16 = true ∧ a.toNat % 16 = 0
    (opc w = 0x00 → fld w 127 8 = 0 → Runs (.nop t c mf) s (goes 0 0 (pc + 16))) ∧
    (opc w = 0x02 → f.rsvd = 0 → f.fn = 0 → f.rs1 = 0 → f.rs2 = 0 → Runs (.li t c mf) s (goes f.rd f.imm (pc + 16))) ∧
    (∀ v, opc w = 0x03 → aluFn f.fn (greg g f.rs1) (greg g f.rs2) = some v → f.rsvd = 0 → f.imm = 0 →
      Runs (.alu t c mf) s (goes f.rd v (pc + 16))) ∧
    (∀ v, opc w = 0x04 → aluFn f.fn (greg g f.rs1) f.imm = some v → f.rsvd = 0 → f.rs2 = 0 →
      Runs (.alui t c mf) s (goes f.rd v (pc + 16))) ∧
    (∀ taken, opc w = 0x07 → brFn f.fn (greg g f.rs1) (greg g f.rs2) = some taken → f.rsvd = 0 → f.rd = 0 →
      (taken = true → legal (pc + f.imm * 16)) → Runs (.br t c mf) s (goes 0 (pc + 16) (if taken then pc + f.imm * 16 else pc + 16))) ∧
    (opc w = 0x08 → f.rsvd = 0 → f.fn = 0 → f.rs1 = 0 → f.rs2 = 0 → legal (pc + f.imm * 16) →
      Runs (.jal t c mf) s (goes f.rd (pc + 16) (pc + f.imm * 16))) ∧
    (opc w = 0x09 → f.rsvd = 0 → f.fn = 0 → f.rs2 = 0 → legal (greg g f.rs1 + f.imm) →
      Runs (.jalr t c mf) s (goes f.rd (pc + 16) (greg g f.rs1 + f.imm))) ∧
    (opc w = 0x0A → fld w 127 8 = 0 → Runs (.yield t c mf) s ((goes 0 0 (pc + 16)).leave t c .ready .idle))

/-- R387, R388: END and END with ABORT: the context leaves its core and ends once its entries have completed; ABORT
keeps g[RS1] as the entry's detail. -/
def Obligations.EndInstructions : Prop :=
  ∀ (s s' : State) (mf : MemFaults) (t : Fin 4) (c : Fin 128) (w : W128), Issues s mf t c w s' →
    let f := fmtC w
    let x := s'.ctx t c
    let off := (x.pc.toNat + 2 ^ 64 - x.prog) % 2 ^ 32
    let ends := fun (a : Option Nat) =>
      (s'.modCtx t c fun x => { x with ended := some off, abort := a }).leave t c .ending .idle
    opc w = 0x01 → f.rsvd = 0 → f.imm = 0 → f.rd = 0 → f.rs2 = 0 →
    (f.fn = 0 → f.rs1 = 0 → Runs (.endEntry t c mf) s (ends none)) ∧
    (f.fn = 1 → Runs (.endAbort t c mf) s (ends (some (greg x.g f.rs1).toNat)))

/-- R358: LD and ST of 1, 2, 4 or 8 bytes at an offset that is a multiple of the size and lies in the scratchpad's
banks in service: LD writes the zero-extended bytes to its register; ST writes the low bytes of g[RS2] at that offset of
this Tiller's scratchpad and no other byte. -/
def Obligations.ScratchpadAccess : Prop :=
  ∀ (s s' : State) (t : Fin 4) (c : Fin 128) (w : W128), Issues s MemFaults.none t c w s' →
    let f := fmtC w
    let g := (s'.ctx t c).g
    let off := (greg g f.rs1 + f.imm).toNat
    let n := 2 ^ f.fn
    f.rsvd = 0 → f.fn ≤ 3 → off % n = 0 → off + n ≤ s'.spmBytes t → s'.bad = [] →
    (opc w = 0x05 → f.rs2 = 0 →
      Runs (.ld t c MemFaults.none) s (s'.next t c f.rd (BitVec.ofNat 64 (Memory.readNat s'.mem (spmBase t + off) n)))) ∧
    (opc w = 0x06 → f.rd = 0 → ∃ u, Runs (.st t c MemFaults.none) s u ∧ u.tiles = (s'.next t c 0 0).tiles ∧
      u.mem = Memory.writeNat s'.mem (spmBase t + off) n (greg g f.rs2).toNat ∧
      (s'.mem.wf = true → ∀ a, (a < spmBase t + off ∨ spmBase t + off + n ≤ a) → Memory.read u.mem a = Memory.read s'.mem a))

/-- R388: CSRR writes the value that its FN names: package time, Tiller, context, partition, the arrays of the partition,
the free entries of a queue, or the context's outstanding entries. CYCLE is a value left open. -/
def Obligations.CsrrReads : Prop :=
  ∀ (s s' : State) (mf : MemFaults) (t : Fin 4) (c : Fin 128) (w : W128), Issues s mf t c w s' →
    let f := fmtC w
    opc w = 0x0B → f.rsvd = 0 → f.imm = 0 → f.rs2 = 0 → (f.fn ≠ 6 → f.rs1 = 0) →
    let reads := fun (v : Nat) => Runs (.csrr t c mf) s (s'.next t c f.rd (BitVec.ofNat 64 v))
    (f.fn = 0 → ∃ v, Runs (.csrr t c mf) s ({ s' with freeCtr := s'.freeCtr + 1 }.next t c f.rd v)) ∧
    (f.fn = 1 → reads s'.timeNs) ∧ (f.fn = 2 → reads t) ∧ (f.fn = 3 → reads c) ∧
    (f.fn = 4 → reads (s'.ctx t c).partition) ∧ (f.fn = 5 → reads (s'.arrayMask t (s'.ctx t c).partition)) ∧
    (f.fn = 6 → reads (s'.qfree t ((greg (s'.ctx t c).g f.rs1).toNat % 16))) ∧ (f.fn = 7 → reads (s'.outstanding t c))

/-- R627, R391: TADD, TSET, TCAS and TREAD on a counter of the context's partition: the register gets the counter's prior
value; TADD adds g[RS2] modulo 2^64, TSET sets the counter to it, TCAS sets it where the prior value equals g[RS3],
TREAD changes no counter. R47: where the memory island that holds the counter has stopped, each stops with F_ISLAND. -/
def Obligations.CounterInstructions : Prop :=
  ∀ (s s' : State) (mf : MemFaults) (t : Fin 4) (c : Fin 128) (w : W128), Issues s mf t c w s' →
    let f := fmtS w
    let g := (s'.ctx t c).g
    let n := f.ctr + (greg g f.rs1).toNat
    let u := s'.next t c f.rd (s'.ctr n)
    f.rsvd = 0 → f.fn = 0 → f.queue = 0 → f.tout = 0 → s'.ownsCtr (s'.ctx t c).partition n = true →
    (s'.hcStopped (n / 32768) = false →
      (opc w = 0x12 → f.rs3 = 0 → Runs (.tadd t c mf) s (u.ctrAdd n (greg g f.rs2))) ∧
      (opc w = 0x13 → f.rs3 = 0 → Runs (.tset t c mf) s (u.ctrSet n (greg g f.rs2))) ∧
      (opc w = 0x14 → Runs (.tcas t c mf) s (if s'.ctr n = greg g f.rs3 then u.ctrSet n (greg g f.rs2) else u)) ∧
      (opc w = 0x15 → f.rs3 = 0 → f.rs2 = 0 → Runs (.tread t c mf) s u)) ∧
    (s'.hcStopped (n / 32768) = true →
      (opc w = 0x12 → f.rs3 = 0 → Runs (.tadd t c mf) s (s'.seqFault t c F_ISLAND n)) ∧
      (opc w = 0x13 → f.rs3 = 0 → Runs (.tset t c mf) s (s'.seqFault t c F_ISLAND n)) ∧
      (opc w = 0x14 → Runs (.tcas t c mf) s (s'.seqFault t c F_ISLAND n)) ∧
      (opc w = 0x15 → f.rs3 = 0 → f.rs2 = 0 → Runs (.tread t c mf) s (s'.seqFault t c F_ISLAND n)))

/-- R630, R387: TWAIT on a counter at or above its threshold completes at once with the counter's value; otherwise the
context leaves its core to wait for it. R392: an SFENCE with no entry left to cover completes at once; otherwise the
context leaves its core to wait for those entries. -/
def Obligations.WaitsAndFences : Prop :=
  ∀ (s s' : State) (mf : MemFaults) (t : Fin 4) (c : Fin 128) (w : W128), Issues s mf t c w s' →
    let f := fmtS w
    let g := (s'.ctx t c).g
    let n := f.ctr + (greg g f.rs1).toNat
    let fence := fun (ids : List Nat) => if ids = [] then s'.next t c 0 0 else s'.leave t c .waitFence (.fence ids)
    f.rsvd = 0 →
    (opc w = 0x16 → f.fn = 0 → f.queue = 0 → f.rs3 = 0 → s'.ownsCtr (s'.ctx t c).partition n = true → s'.hcStopped (n / 32768) = false →
      Runs (.twait t c mf) s (if greg g f.rs2 ≤ s'.ctr n then s'.next t c f.rd (s'.ctr n)
        else s'.leave t c .waitCounter (.counter n (greg g f.rs2) f.rd (f.tout != 0) none))) ∧
    (opc w = 0x10 → f.fn = 0 → f.queue ≠ 6 → f.queue ≠ 7 → f.tout = 0 → f.ctr = 0 → f.rs1 = 0 → f.rs2 = 0 → f.rs3 = 0 →
      f.rd = 0 → Runs (.sfenceQueue t c mf) s (fence (s'.fenceIds t c (· == f.queue)))) ∧
    (opc w = 0x10 → f.fn = 1 → f.queue = 0 → f.tout = 0 → f.ctr = 0 → f.rs1 = 0 → f.rs2 = 0 → f.rs3 = 0 → f.rd = 0 →
      Runs (.sfenceAll t c mf) s (fence (s'.fenceIds t c fun _ => true)))

/-- R351, R355, R392: an engine instruction, and an SQWAIT on a counter of the partition, are queued with a copy of the
context's registers where their queue has room, and the context goes on; where it has none the context waits for
space. -/
def Obligations.EngineEntriesAreQueued : Prop :=
  ∀ (s s' : State) (mf : MemFaults) (t : Fin 4) (c : Fin 128) (w : W128), Issues s mf t c w s' →
    let x := s'.ctx t c
    let f := fmtS w
    let e : QEntry := { id := (s'.tile t).nextId, ctx := c, pcOff := (x.pc.toNat + 2 ^ 64 - x.prog) % 2 ^ 32, word := w, g := x.g, met := false }
    let queued := fun (q : Nat) =>
      if queueDepth q ≤ (s'.queue t q).waiting.length then s'.leave t c .waitQueue (.queue q)
      else ((s'.modTile t fun y => { y with nextId := y.nextId + 1 }).modQueue t q fun z => { z with waiting := z.waiting ++ [e] }).next t c 0 0
    (∀ q, queueOf w = some q → Runs (.queueEntry t c mf) s (queued q)) ∧
    (opc w = 0x11 → f.rsvd = 0 → f.fn = 0 → f.rs3 = 0 → f.rd = 0 → f.queue ≠ 6 → f.queue ≠ 7 →
      s'.ownsCtr x.partition (f.ctr + (greg x.g f.rs1).toNat) = true → Runs (.sqwait t c mf) s (queued f.queue))

/-- R387, R388: an opcode that the table does not list stops its context with F_ILLOP, and so does any instruction
with a nonzero reserved field with F_RSVD, and a fetch outside the program's memory with F_FETCH. R1111, R389: a branch that is taken, JAL or JALR to an address outside the partition's HBM and its own Tiller's
scratchpad stops with F_FETCH, and to one that is not a multiple of 16 with F_ALIGN; the link register keeps its
value, and INFO is the target. -/
def Obligations.SequencerStops : Prop :=
  (∀ (s s' : State) (mf : MemFaults) (t : Fin 4) (c : Fin 128) (w : W128),
    (Issues s mf t c w s' → illegalOp w = true → Runs (.undefinedOpcode t c mf) s (s'.seqFault t c F_ILLOP 0)) ∧
    (Issues s mf t c w s' → (fmtC w).rsvd ≠ 0 → opc w = 0x02 → Runs (.li t c mf) s (s'.seqFault t c F_RSVD 0)) ∧
    (s.canIssue t c = true → s.inProgRange t (s.ctx t c).partition (s.ctx t c).pc.toNat 16 = false →
      Runs (.nop t c mf) s (s.seqFault t c F_FETCH (s.ctx t c).pc.toNat))) ∧
  (∀ (s s' : State) (mf : MemFaults) (t : Fin 4) (c : Fin 128) (w : W128), Issues s mf t c w s' →
    let f := fmtC w
    let g := (s'.ctx t c).g
    let pc := (s'.ctx t c).pc
    let stops := fun (i : Instr) (a : W64) =>
      (s'.inProgRange t (s'.ctx t c).partition a.toNat 16 = false → Runs i s (s'.seqFault t c F_FETCH a.toNat)) ∧
      (s'.inProgRange t (s'.ctx t c).partition a.toNat 16 = true → a.toNat % 16 ≠ 0 → Runs i s (s'.seqFault t c F_ALIGN a.toNat))
    (opc w = 0x07 → brFn f.fn (greg g f.rs1) (greg g f.rs2) = some true → f.rsvd = 0 → f.rd = 0 → stops (.br t c mf) (pc + f.imm * 16)) ∧
    (opc w = 0x08 → f.rsvd = 0 → f.fn = 0 → f.rs1 = 0 → f.rs2 = 0 → stops (.jal t c mf) (pc + f.imm * 16)) ∧
    (opc w = 0x09 → f.rsvd = 0 → f.fn = 0 → f.rs2 = 0 → stops (.jalr t c mf) (greg g f.rs1 + f.imm)))

/-- R348, R349, R630, R392, R355, R697: what ends a context's time on its core or its wait: 4,096 instructions; the counter
at its threshold; the last of the fenced entries; space in the queue; the group slot. R273, R278, R392, R417, R418: an SQWAIT at the head of a queue whose counter has reached its threshold leaves the
queue; one whose timeout expires first, a TWAIT whose timeout expires, and an entry whose TIMEOUT_MS expires stop the
program with F_TIMEOUT. -/
def Obligations.ContextEvents : Prop :=
  (∀ (s : State) (t : Fin 4) (c : Fin 128),
    let x := s.ctx t c
    (x.st = .running → 4096 ≤ x.issued → Runs (.timeSlice t c) s (s.leave t c .ready .idle)) ∧
    (∀ n thr rd tm, x.wait = .counter n thr rd tm none → thr ≤ s.ctr n →
      Runs (.contextWake t c) s (s.wake t c fun x => { x with g := gset x.g rd (s.ctr n), pc := x.pc + 16 })) ∧
    (∀ ids, x.wait = .fence ids → (∀ i ∈ s.fenceIds t c fun _ => true, i ∉ ids) →
      Runs (.contextWake t c) s (s.wake t c fun x => { x with pc := x.pc + 16 })) ∧
    (∀ q, x.wait = .queue q → (s.queue t q).waiting.length < queueDepth q →
      ∃ u, Runs (.queueSpaceFreed t c) s u ∧
        u = (((s.modCtx t c fun x => { x with wait := .idle, st := .ready }).enqueue t c q
          (BitVec.ofNat 128 (Memory.readNat s.mem x.pc.toNat 16))).coreNext t (coreOf c))) ∧
    (x.wait = .slot → s.slotHeld t c x.group x.gseq = false → Runs (.collSlotRelease t c) s (s.wake t c id))) ∧
  (∀ (s : State) (t : Fin 4) (c : Fin 128) (q : Fin 16),
    (∀ e rest, HeadIs s t q 0x11 e rest → condThr e ≤ s.ctr (condCtr e) →
      Runs (.sqwaitRelease t q) s (s.modQueue t q fun x => { x with waiting := rest })) ∧
    (∀ e rest, HeadIs s t q 0x11 e rest → e.met = false → condTout e ≠ 0 → s.ctr (condCtr e) < condThr e →
      Runs (.sqwaitTimeout t q) s (((s.modQueue t q fun x => { x with waiting := rest }).ctxFault t e.ctx
        ⟨F_TIMEOUT, e.pcOff, 0, condCtr e, q⟩ false).coreNext t (coreOf e.ctx))) ∧
    (∀ n thr rd, (s.ctx t c).wait = .counter n thr rd true none → Runs (.twaitTimeout t c) s (s.seqFault t c F_TIMEOUT n)) ∧
    ((s.ctx t c).st ≠ .free → (s.ctx t c).timeoutMs ≠ 0 → (s.ctx t c).fault = none → (s.ctx t c).cancelled = false →
      Runs (.entryTimeout t c) s ((s.ctxFault t c ⟨F_TIMEOUT, 0xFFFFFFFF, 0, 0, 6⟩ false).coreNext t (coreOf c))))

/-- R364 to R366, R369: the scheduler starts the next entry of the ring it picks, and moves a collective entry that finds
no context into the FIFO. R373, R375, R413: an ending context whose entries have all completed ends its ring entry: OK
after END; FAILED with F_ABORT after ABORT; FAILED, or FAILED_UNCONFIRMED, with the first fault; CANCELLED. -/
def Obligations.EntriesStartAndEnd : Prop :=
  ∀ (s : State) (t : Fin 4) (c : Fin 128) (mf : MemFaults),
    let x := s.ctx t c
    let ret := (greg x.g 1).toNat
    (∀ r u, s.pickRing t = some (r, u) → s.startKind t r = .start → Runs (.entryStart t mf) s (u.startEntry t r mf)) ∧
    (∀ r u, s.pickRing t = some (r, u) → s.startKind t r = .queueColl →
      Runs (.entryStart t mf) s (u.modTile t fun y => { y with collFifo := y.collFifo ++ [r] })) ∧
    (x.st = .ending → s.outstanding t c = 0 → ∀ off, x.ended = some off →
      (x.cancelled = true → Runs (.entryComplete t c) s ((s.openRecord F_CANCELLED).2.endEntry t c 3 (s.openRecord F_CANCELLED).1 ret)) ∧
      (∀ f, x.cancelled = false → x.fault = some f →
        Runs (.entryComplete t c) s (s.endEntry t c (if x.unconfirmed then 2 else 1) f ret)) ∧
      (∀ i, x.cancelled = false → x.fault = none → x.abort = some i →
        Runs (.entryComplete t c) s (s.endEntry t c 1 ⟨F_ABORT, off, 0, i, 6⟩ ret)) ∧
      (x.cancelled = false → x.fault = none → x.abort = none →
        Runs (.entryComplete t c) s ((s.openRecord 0).2.endEntry t c 0 (s.openRecord 0).1 ret)))


/-! ### Copies and remote operations (R396 to R403, R594 to R690) -/

/-- R396, R397, R398, R402: the local copies, taken at a copy queue with none in progress, with every check at issue
passed and every row copied: CCOPY copies row r from g[RA] + r × g[RC] to g[RB] + r × g[RD]; CFILL writes rows of the
repeated bytes of g[RC]; CGATHER writes row r from the source row that its index names, and zeros for the index
0xFFFF_FFFF. The entry is then in progress, and its completion adds its INC. R402: a local copy in progress completes: it leaves its queue and its INC is added, and nothing else changes. -/
def Obligations.LocalCopies : Prop :=
  (∀ (s s1 s2 s3 : State) (t : Fin 4) (q : Fin 8) (mf : MemFaults) (e : QEntry),
    let k := fmtK e.word
    let p := s1.partOf t e
    let out := fun (r : Nat) => rowAddr (gaddr e.g k.rb) (gstride e.g k.rd) r
    let copies := fun (i : Instr) (extra : List Check) (fill : List Byte) (sa sb : State) (rows : List CopyRow) =>
      Passes (extra ++ sa.copyChecks t p rows k.len ++ [sa.incCheck p k.ctr k.ri]) →
      sa.copyRows mf t p k.len fill rows 0 = (none, sb) → Runs i s (sb.activate t (8 + q) e)
    (s.queue t (8 + q)).active = [] → k.rsvd = 0 →
    (Takes s t (8 + q) 0x20 e s1 → k.re = 0 →
      copies (.ccopy t q mf) [] (fillBytes 0 k.len) s1 s2
        ((List.range k.rows).map fun r => ⟨some (rowAddr (gaddr e.g k.ra) (gstride e.g k.rc) r), out r⟩)) ∧
    (Takes s t (8 + q) 0x21 e s1 → k.re = 0 → k.ra = 0 →
      copies (.cfill t q mf) [] (fillBytes (greg e.g k.rc) k.len) s1 s2 ((List.range k.rows).map fun r => ⟨none, out r⟩)) ∧
    (∀ ix : List Nat, Takes s t (8 + q) 0x22 e s1 → k.len ≠ 0 → s1.spmRangeOk t (gaddr e.g k.re) (4 * k.rows) = true →
      s1.readIndices mf t (gaddr e.g k.re) 0 k.rows = (ix.map .ok, s3) →
      copies (.cgather t q mf) (ix.map fun v => failIf (decide (0x80000000 ≤ v ∧ v ≠ 0xFFFFFFFF)) F_BOUNDS v)
        (fillBytes 0 k.len) s3 s2
        (ix.zipIdx.map fun x => ⟨if x.1 = 0xFFFFFFFF then none else some (rowAddr (gaddr e.g k.ra) (gstride e.g k.rc) x.1), out x.2⟩))) ∧
  (∀ (s : State) (t : Fin 4) (q : Fin 8) (e : QEntry) (rest : List QEntry),
    (s.queue t (8 + q)).active = e :: rest → opc e.word / 16 = 2 →
    Runs (.copyDone t q) s ((s.modQueue t (8 + q) fun x => { x with active := x.active.filter fun y => y.id != e.id }).addInc e))

/-- R607, R671: an operation is split at every 256-byte boundary of its range: each piece lies in one 256-byte block, no
piece is empty, each begins where the one before it ends, and together they are the whole range. An atomic, of 4 or 8
aligned bytes, is one piece. -/
def Obligations.PiecesCoverTheRange : Prop :=
  ∀ a n : Nat, let ps := splitPieces a n
    (∀ p ∈ ps, 0 < p.2 ∧ p.1 + p.2 ≤ n ∧ (a + p.1) / 256 = (a + p.1 + p.2 - 1) / 256) ∧
    (ps.map (·.2)).sum = n ∧ (∀ x < n, ∃ p ∈ ps, p.1 ≤ x ∧ x < p.1 + p.2) ∧ (ps.Pairwise fun p q => p.1 + p.2 ≤ q.1) ∧
    (n = 4 ∨ n = 8 → a % n = 0 → ps = [(0, n)])

/-- R400, R607, R609, R611, R620: RSTORE, RFSTORE, RLOAD and RATOM, with every check at issue passed: their entry is in
progress, a new operation of its pieces stands in the table, and the pieces are sent; those of a flagged store wait for
every earlier operation of its queue to that package. -/
def Obligations.DomainOperationsIssue : Prop :=
  ∀ (s s1 s2 : State) (t : Fin 4) (q : Fin 8) (mf : MemFaults) (e : QEntry) (bs : List Byte),
    let f := fmtR e.word
    let p := s1.partOf t e
    let a := gaddr e.g f.rb
    let l := gaddr e.g f.ra
    let n := if f.w64 = 1 then 8 else 4
    let rsvd := f.rsvd = 0 ∧ f.w64 = 0 ∧ f.atop = 0 ∧ f.rc = 0 ∧ f.rd = 0
    let inc := s1.incCheck p f.ctr f.ri
    (TakesRemote s t q 0x30 e s1 → rsvd →
      Passes ([s1.localCheck t p false l f.len, apertureCheck a f.len, inc] ++ s1.domainChecks p rightW a f.len ((f.add e).map (·.1))) →
      s1.localRead mf t p l f.len = (none, bs, s2) →
      let o := { s2.mkOp t q e .store a (f.add e) with len := f.len, data := bs, pieces := heldPieces a f.len }
      Runs (.rstore t q mf) s (((s2.activate t (8 + q) e).newOp o).sendPieces mf o.id)) ∧
    (TakesRemote s t q 0x31 e s1 → rsvd →
      Passes ([s1.localCheck t p false l f.len, apertureCheck a f.len, inc] ++ s1.domainChecks p rightW a f.len ((f.add e).map (·.1))) →
      s1.localRead mf t p l f.len = (none, bs, s2) →
      let after := s2.holdFor t q (apSlot a) fun k => k == .store || k == .flagged || k == .atomic || k == .tadd
      let o := { s2.mkOp t q e .flagged a (f.add e) with len := f.len, data := bs, pieces := heldPieces a f.len, after := after }
      let u := (s2.activate t (8 + q) e).newOp o
      Runs (.rfstore t q mf) s (if after = [] then u.sendPieces mf o.id else u)) ∧
    (TakesRemote s t q 0x32 e s1 → rsvd → f.rri = 0 → s1.replicasAt p a f.len = [] →
      Passes ([s1.localCheck t p true l f.len, apertureCheck a f.len, inc] ++ s1.domainChecks p rightR a f.len none) →
      let o := { s1.mkOp t q e .load a none with len := f.len, local_ := l, pieces := heldPieces a f.len }
      Runs (.rload t q mf) s (((s1.activate t (8 + q) e).newOp o).sendPieces mf o.id)) ∧
    (TakesRemote s t q 0x33 e s1 → f.rsvd = 0 → f.rri = 0 → f.len = 0 → f.atop < 10 → l % n = 0 → a % n = 0 →
      Passes ([s1.localCheck t p true l 8, apertureCheck a n, inc] ++ s1.domainChecks p rightA a n none) →
      let o := { s1.mkOp t q e .atomic a none with
                 len := n, local_ := l, data := leBytes 8 (greg e.g f.rc).toNat, cmp := (greg e.g f.rd).toNat, atop := f.atop,
                 w64 := f.w64 == 1, pieces := [⟨0, n, 0, .held, 0⟩] }
      Runs (.ratom t q mf) s (((s1.activate t (8 + q) e).newOp o).sendPieces mf o.id))

/-- R661, R668 to R672: RPUT and RGET with the window's descriptor in the cache of the connection to its place, and RTADD
beyond the domain: with every check passed their entry is in progress and their pieces, or the addition, enter the
connection. Without the descriptor the entry stays at its queue and the descriptor is asked for. -/
def Obligations.TransportOperationsIssue : Prop :=
  ∀ (s s1 s2 : State) (t : Fin 4) (q : Fin 8) (mf : MemFaults) (e : QEntry) (bs : List Byte) (c : Nat) (w : Window),
    let f := fmtR e.word
    let p := s.partOf t e
    let l := gaddr e.g f.ra
    let pw := gaddr e.g f.rb
    let off := gaddr e.g f.rc
    let rsvd := f.rsvd = 0 ∧ f.w64 = 0 ∧ f.atop = 0 ∧ f.rd = 0 ∧ placeRsvd pw = false
    s.connTo p (placeOf pw) = some c → s.connVersion (placeOf pw) = 2 → rsvd →
    (TakesRemote s t q 0x34 e s1 → Passes [s.localCheck t p false l f.len, s.incCheck p f.ctr f.ri] →
      (s.cachedWindow c (placeOf pw) (windowOf pw) = none → Runs (.rput t q mf) s (s.emit (.xpWindow c (windowOf pw)))) ∧
      (s.cachedWindow c (placeOf pw) (windowOf pw) = some w → w.check (s.jobOf p) none rightP off f.len = none →
        (∀ x ∈ f.add e, w.opens x.1 = true) → s1.localRead mf t p l f.len = (none, bs, s2) →
        let o := { s2.mkOp t q e .put off (f.add e) with
                   target := placeOf pw, conn := c, window := windowOf pw, len := f.len, local_ := l, data := bs, pieces := heldPieces off f.len }
        Runs (.rput t q mf) s ((((s2.modConn c fun x => x.touch (windowOf pw)).activate t (8 + q) e).newOp o).enterNext mf o.id))) ∧
    (TakesRemote s t q 0x35 e s1 → Passes [s.localCheck t p true l f.len, s.incCheck p f.ctr f.ri] → f.rri = 0 →
      (s.cachedWindow c (placeOf pw) (windowOf pw) = none → Runs (.rget t q mf) s (s.emit (.xpWindow c (windowOf pw)))) ∧
      (s.cachedWindow c (placeOf pw) (windowOf pw) = some w → w.check (s.jobOf p) none rightG off f.len = none →
        let o := { s1.mkOp t q e .get off none with
                   target := placeOf pw, conn := c, window := windowOf pw, len := f.len, local_ := l, data := [], pieces := heldPieces off f.len }
        Runs (.rget t q mf) s ((((s1.modConn c fun x => x.touch (windowOf pw)).activate t (8 + q) e).newOp o).enterNext mf o.id))) ∧
    (TakesRemote s t q 0x36 e s1 → f.ra = 0 → f.rc = 0 → f.len = 0 → windowOf pw = 0 → s1.places.valid = false →
      s1.connTo (s1.partOf t e) (placeOf pw) = some c → Passes [s1.incCheck (s1.partOf t e) f.ctr f.ri] →
      let o := { s1.mkOp t q e .tadd 0 (f.add e) with target := placeOf pw, conn := c }
      Runs (.rtadd t q mf) s (((s1.activate t (8 + q) e).newOp o).enterNext MemFaults.none o.id))

/-- R402, R608, R609, R611, R620 to R622, R641, R643, R646, R647, R675: what happens to an operation in the table: the
answers of its target, the access timeout, the release of what it held, and its end. -/
def Obligations.DomainOperationEvents : Prop :=
  ∀ (s : State) (id : Nat) (o : RemOp), s.op id = some o →
    (∀ t q entry e, o.good = true → o.src = .queue t q entry → ((s.queue t (8 + q)).active.find? fun x => x.id == entry) = some e →
      Runs (.remoteOpDone id) s (((((s.forgetOp id false).retire t (8 + q) entry).addInc e)).connSettle o.conn)) ∧
    (∀ mf, o.kind = .flagged → o.after = [] → o.broken = false → Runs (.flaggedStoreRelease id mf) s (s.sendPieces mf id)) ∧
    (∀ mf, o.kind = .flagged → o.after = [] → o.broken = true →
      Runs (.flaggedStoreRelease id mf) s ((s.modOp id fun x => x.fail F_REMOTE_LOST).opSettle id)) ∧
    (∀ mf, o.domain = true → o.after = [] → o.broken = false → Runs (.planeHoldRelease id mf) s (s.sendPieces mf id)) ∧
    (∀ c x h k, o.addSt = .held → o.after = [] → (∀ p ∈ o.pieces, p.st = .done) → o.addTo = some (c, x) →
      s.ownSlot ≠ some (apSlot o.addr) → planeOf (s.slot (apSlot o.addr)).mask o.addr = some h → s.portOfPlane h = some k →
      Runs (.counterAdditionSend id) s
        (((((s.modOp id fun y => { y with addSt := .sent }).emit (.domAdd id))).portSend k 0 id o.pieces.length).opSettle id)) ∧
    (∀ i, o.domain = true → o.isSent i = true →
      (i = o.pieces.length → Runs (.domainAck id i) s ((s.modOp id fun x => { x with addSt := .done }).opSettle id)) ∧
      (i ≠ o.pieces.length → Runs (.domainAck id i) s ((s.pieceDone id i).sendPieces MemFaults.none id)) ∧
      (∀ data mf, o.kind = .load → Runs (.domainLoadData id i data mf) s ((s.land mf o i data).sendPieces mf id)) ∧
      (∀ code, i ≠ o.pieces.length → Runs (.domainRefusal id i code) s ((s.pieceFail id i (.refused code) code).opSettle id)) ∧
      (∀ code, i = o.pieces.length →
        Runs (.domainRefusal id i code) s ((s.modOp id fun x => RemOp.fail { x with addSt := .refused code } code).opSettle id)) ∧
      (i ≠ o.pieces.length → Runs (.domainAccessTimeout id i) s
        (((s.modNet fun n => { n with timeouts := sat32 (n.timeouts + 1) }).pieceFail id i .lost F_REMOTE_LOST).opSettle id))) ∧
    (∀ prior mf, o.domain = true → o.kind = .atomic → o.isSent 0 = true →
      Runs (.domainAtomicResult id prior mf) s
        (((s.modOp id fun x => { x with data := [] }).land mf { o with pieces := o.pieces.map fun q => { q with len := 8 } } 0
          (leBytes 8 prior.toNat)).opSettle id))

/-- R600, R604, R608, R609, R646: the target of domain traffic, with every sector of the access readable: a store piece that
an export entry grants is written and acknowledged; a load piece returns its bytes; an atomic returns the prior value
and writes the operation's result; a counter addition to an open counter is made. Without a grant each is refused with
F_REMOTE_BOUNDS and nothing but the answer changes, and outside HBM in service, or at a counter whose memory island has
stopped (R47), with F_ISLAND. -/
def Obligations.DomainTarget : Prop :=
  ∀ (s : State) (slot : Fin 128) (piece job a n : Nat) (data : List Byte) (atop : Fin 10) (w64 : Bool) (x cmp : Nat) (ctr : Nat) (v : W64),
    let answer := fun (u : State) (m : OutMsg) => u.emit m
    let refused := fun (c : Nat) => s.emit (.domRefused slot piece c)
    let m := if w64 then 8 else 4
    let old := leNat (s.peek a m)
    let new := leBytes m (atomicFn atop m old (x % 2 ^ (8 * m)) (cmp % 2 ^ (8 * m)))
    (∀ e, s.grantFor job rightW a data.length = some e → s.hbmOk a data.length = true → s.writeErr MemFaults.none a data.length = none →
      Runs (.domainStorePiece slot piece job a data MemFaults.none) s
        (answer ((s.store a data).chargeHbm e.partition true a data.length) (.domAck slot piece))) ∧
    (∀ e, s.grantFor job rightR a n = some e → s.hbmOk a n = true → s.badIn a n = [] → s.fencedIn a n = [] →
      Runs (.domainLoadRequest slot piece job a n MemFaults.none) s
        (answer (s.chargeHbm e.partition false a n) (.domData slot piece (s.peek a n)))) ∧
    (∀ e, s.grantFor job rightA a m = some e → s.hbmOk a m = true → s.badIn a m = [] → s.fencedIn a m = [] →
      Runs (.domainAtomicPiece slot piece job a atop w64 x cmp MemFaults.none) s
        (answer (((s.store a new).chargeHbm e.partition false a m).chargeHbm e.partition true a m)
          (.domResult slot piece (BitVec.ofNat 64 old)))) ∧
    (((s.exportsOf job).any fun e => e.opens ctr) = true →
      (s.hcStopped (ctr / 32768) = false →
        Runs (.domainCounterAddition slot piece job ctr v) s (answer (s.ctrAdd ctr v) (.domAck slot piece))) ∧
      (s.hcStopped (ctr / 32768) = true → Runs (.domainCounterAddition slot piece job ctr v) s (refused F_ISLAND))) ∧
    (∀ mf, s.grantFor job rightW a data.length = none → Runs (.domainStorePiece slot piece job a data mf) s (refused F_REMOTE_BOUNDS)) ∧
    (∀ mf, s.grantFor job rightR a n = none → Runs (.domainLoadRequest slot piece job a n mf) s (refused F_REMOTE_BOUNDS)) ∧
    (∀ mf, s.grantFor job rightA a m = none → Runs (.domainAtomicPiece slot piece job a atop w64 x cmp mf) s (refused F_REMOTE_BOUNDS)) ∧
    (((s.exportsOf job).any fun e => e.opens ctr) = false →
      Runs (.domainCounterAddition slot piece job ctr v) s (refused F_REMOTE_BOUNDS)) ∧
    (∀ e mf, s.grantFor job rightW a data.length = some e → s.hbmOk a data.length = false →
      Runs (.domainStorePiece slot piece job a data mf) s (refused F_ISLAND))

/-- R661, R663, R673, R674, R677, R679 to R681: the receiver of an open connection. The expected packet is accepted and
performed, and acknowledged with its number; one ahead is answered by a NAK for the expected number and performed not
at all; a duplicate addition is answered from the kept results. Descriptors are fetched, cached and invalidated. -/
def Obligations.TransportReceiver : Prop :=
  ∀ (s : State) (c psn w gen off n ctr : Nat) (v : W64) (wo : Option Nat) (data : List Byte) (mf : MemFaults), (s.conn c).st = 1 →
    let u := s.modConn c fun x => { x with rxPsn := (x.rxPsn + 1) % 2 ^ 24 }
    let job := u.jobOf (u.conn c).partition
    (psnFate (s.conn c).rxPsn psn = .accept →
      (∀ s', u.targetPut mf job w (u.genOf c gen) off data = (none, s') → Runs (.putPiece c psn w gen off data mf) s (s'.emit (.xpAck c psn))) ∧
      (∀ code s', u.targetPut mf job w (u.genOf c gen) off data = (some code, s') →
        Runs (.putPiece c psn w gen off data mf) s ((s'.emit (.xpRefused c psn code)).emit (.xpAck c psn))) ∧
      (∀ bs s', u.targetGet mf job w (u.genOf c gen) off n = (.ok bs, s') →
        Runs (.getRequest c psn w gen off n mf) s
          ((splitPieces off n).foldl (fun s p => s.emit (.xpData c psn p.1 ((bs.drop p.1).take p.2))) (s'.emit (.xpAck c psn)))) ∧
      (∀ s', u.targetWinAdd job wo ctr v = (none, s') →
        Runs (.transportCounterAddition c psn wo ctr v) s
          ((s'.modConn c fun y => { y with results := ((psn, 0) :: y.results).take 4096 }).emit (.xpAck c psn)))) ∧
    (psnFate (s.conn c).rxPsn psn = .ahead →
      Runs (.putPiece c psn w gen off data mf) s (s.emit (.xpNak c (s.conn c).rxPsn)) ∧
      Runs (.getRequest c psn w gen off n mf) s (s.emit (.xpNak c (s.conn c).rxPsn)) ∧
      Runs (.transportCounterAddition c psn wo ctr v) s (s.emit (.xpNak c (s.conn c).rxPsn))) ∧
    (psnFate (s.conn c).rxPsn psn = .duplicate → ((s.conn c).results.find? fun r => r.1 == psn) = none →
      Runs (.transportCounterAddition c psn wo ctr v) s (s.emit (.xpRefused c psn F_REMOTE_LOST))) ∧
    Runs (.windowFetch c w) s ((s.modConn c fun x => { x with peerCaches := natInsert x.peerCaches w }).emit (.xpWindow c w)) ∧
    Runs (.windowInvalidation c w) s
      ((s.modConn c fun x => { x with cache := x.cache.filter fun y => y.1 != w }).emit (.xpInvalidated c w)) ∧
    (∀ job rights len cntBase cntCount, (∀ (t : Nat) (q : Nat), (s.queue t q).waiting = []) →
      Runs (.windowDescriptor c w true job rights len cntBase cntCount gen mf) s
        (s.modConn c fun x => { x with cache := ((w, ⟨true, false, 0, job, rights, 0, len, cntBase, cntCount, gen⟩) ::
          x.cache.filter fun y => y.1 != w).take 8 }))

/-- R675 to R678, R681, R683: the transmitter of a connection: get data lands; a cumulative acknowledgement completes
every packet up to its number and restarts what waits; a NAK and the timeout send again from the first packet not
acknowledged, the timeout doubling; a refusal fails its piece; a connection with no operation outstanding that fails loses its window
cache and must be opened again. -/
def Obligations.TransportTransmitter : Prop :=
  ∀ (s : State) (c psn : Nat),
    (∀ id o i data mf, s.op id = some o → o.domain = false → o.kind = .get → o.isSent i = true →
      Runs (.getResponse id i data mf) s (((s.land mf o i data).opSettle id).connSettle o.conn)) ∧
    (∀ i srtt, ((s.conn c).unacked.findIdx? fun k => k.psn == psn) = some i →
      Runs (.transportAck c psn srtt) s
        (((((s.conn c).unacked.take (i + 1)).foldl (fun s k => s.packetAcked c k)
          (s.modConn c fun x => { x with unacked := x.unacked.drop (i + 1), srttUs := srtt, rtoUs := 2 * srtt + 20 })).connPump c).connSettle c)) ∧
    ((s.conn c).st = 1 → Runs (.transportNak c) s (s.retransmit c)) ∧
    ((s.conn c).st = 1 → (s.conn c).unacked ≠ [] →
      Runs (.retransmissionTimeout c) s ((s.modConn c fun x => { x with rtoUs := 2 * x.rtoUs }).retransmit c)) ∧
    (∀ k code, ((s.conn c).unacked.find? fun k => k.psn == psn) = some k → k.part < 2 ^ 32 → code ≠ F_REMOTE_LOST →
      Runs (.transportRefusal c psn code) s
        ((((s.setFlag lnXp fXpRefused).modOp k.op fun o =>
          let o' := if k.part = o.pieces.length then { o with addSt := .refused code } else o.setSt k.part (.refused code)
          { o' with code := if o'.code = 0 then code else o'.code }).opSettle k.op).connSettle c)) ∧
    ((s.conn c).st = 1 → (s.conn c).closing = false → (∀ o ∈ s.net.ops, o.conn ≠ c) → (∀ m ∈ s.sunas.mboxes, m.2.wait = .none) →
      Runs (.connectionFailure c) s
        (((s.modConn c fun x => { x with st := 2, cache := [], unacked := [], peerCaches := [] }).modNet fun n =>
          { n with connFailed := sat32 (n.connFailed + 1) }).setFlag lnXp fXpConn))


/-! ### The matrix arrays (R108 to R170, R190 to R278) -/

/-- R119 to R127, R225, R230: MLDB loads the standby tile with NC columns of K elements from memory, by rows, by gathered
rows or by columns of a transposed operand; the active tile is untouched. -/
def Obligations.TileLoads : Prop :=
  ∀ (s s1 s2 s3 : State) (t a : Fin 4) (mf : MemFaults) (e : QEntry) (rows : List (Option Nat)) (ic : List Check) (cols : List (List Nat × List Nat)),
    StartsArray s t a 0x40 mldbRsvd e s1 →
    let m := fmtM e.word
    let p := s1.partOf t e
    let f := (Fmt.ofCode m.fmt).getD .fp32
    let o := sourceOf (s1.arr t a).prologueB f e
    let get := fun (s : State) (i : Nat) => if pMode o.d = 1 then s.fetchCol mf t p o m.m i else s.fetchRow mf t p o m.m (rows.getD i none)
    let loads := State.fetchAll get m.nc 0 (s2.activate t a e) = (.ok cols, s3) →
      Runs (.mldb t a mf) s ((s3.modArr t a fun x => { x with standby := tileOfCols f m.m m.nc cols }).arrBoundary t a)
    0 < m.m → m.m ≤ f.kPass.getD 512 → 0 < m.nc → m.nc ≤ 512 →
    (pMode o.d ≠ 1 → s1.readIdx mf t o.d 0 m.nc = (rows, ic, s2) → s2.parts = s1.parts →
      Passes ([o.alignCheck, s2.viewFmtCheck o] ++ ic ++ s2.rowChecks t p o m.m rows) → loads) ∧
    (pMode o.d = 1 → s2 = s1 → rows = [] → Passes ([o.alignCheck, s1.viewFmtCheck o] ++ s1.transChecks t p o m.m m.nc) → loads)

/-- R108 to R110, R128 to R135, R153: MMUL swaps the tiles where SWAP is set and performs its passes in order: pass i
reads A row i and, with ACC, the ACM row it writes, and writes row ROWB + i of its bank with the prior values and the
exact products. This is a run in which no pass check mismatches and every word is readable. -/
def Obligations.MatrixMultiply : Prop :=
  ∀ (s s1 s2 : State) (t a : Fin 4) (mf : MemFaults) (e : QEntry) (rows : List (Option Nat)) (ic : List Check) (u : Nat → State),
    StartsArray s t a 0x41 mmulRsvd e s1 →
    let m := fmtM e.word
    let p := s1.partOf t e
    let f := (Fmt.ofCode m.fmt).getD .fp32
    let o := sourceOf (s1.arr t a).prologueA f e
    let b := if m.swap = 1 then (s1.arr t a).standby else (s1.arr t a).active
    let run : MmulRun := ⟨e, p, o, rows⟩
    let passes :=
      u 0 = (if m.swap = 1 then (s2.activate t a e).modArr t a fun x => { x with active := x.standby, standby := x.active } else s2.activate t a e) →
      mmulStart ((u 0).arr t a).active f = none →
      (Rows m.m u fun i v v' => ∃ A prior v1 v2, let b := (v.arr t a).active
        v.fetchA mf t run b.kTile i = (.ok A, v1) ∧
        (if m.acc = 1 then v1.acmRead mf (acmWord t a m.bank (m.rowb + i) 0) 4 b.nc else (some (List.replicate b.nc 0), v1)) = (some prior, v2) ∧
        let res := prior.zipIdx.map fun x => passColumn b f A.1 (rowVals f A) x.1 x.2
        v' = (v2.acmWrite (acmWord t a m.bank (m.rowb + i) 0) 4 (res.map (·.1))).arrFlags t a (orFlags res)) →
      Runs (.mmul t a mf []) s ((u m.m).arrBoundary t a)
    0 < m.m → m.m ≤ 1024 → m.rowb + m.m ≤ 1024 →
    (pMode o.d ≠ 1 → s1.readIdx mf t o.d (m.bank * 1024 + m.rowb) m.m = (rows, ic, s2) → s2.parts = s1.parts →
      Passes ([o.alignCheck, s2.viewFmtCheck o] ++ ic ++ (if b.kTile = 0 then [] else s2.rowChecks t p o b.kTile rows)) → passes) ∧
    (pMode o.d = 1 → s2 = s1 → rows = [] → Passes ([o.alignCheck, s1.viewFmtCheck o] ++ s1.transChecks t p o b.kTile m.m) → passes)

/-- R166 to R169, R190 to R199, R267 to R268: MACM, MFLD, MCMB and MCHN, row by row: MACM adds the source row to the
target row; MFLD adds the shifted partial product to the 96-bit wide sum of banks 1 to 3; MCMB writes the combined FP64
row; MCHN writes O × f + X, or X for the first of a chain. -/
def Obligations.RowOperations : Prop :=
  ∀ (s s1 : State) (t a : Fin 4) (mf : MemFaults) (e : QEntry) (u : Nat → State),
    let m := fmtM e.word
    let p := s1.partOf t e
    let ends := (u m.m).arrBoundary t a
    u 0 = s1.activate t a e →
    (StartsArray s t a 0x42 macmRsvd e s1 → m.m ≤ 1024 → m.rowb + m.m ≤ 1024 → bitN (s1.part p).arrays (4 * t + m.srcArr) = true →
      (Rows m.m u fun i v v' => ∃ x y v1 v2,
        v.acmRead mf (acmWord t m.srcArr m.bank2 (m.rowb + i) 0) 4 512 = (some y, v1) ∧
        v1.acmRead mf (acmWord t a m.bank (m.rowb + i) 0) 4 512 = (some x, v2) ∧
        let r := List.zipWith (macmWord (m.fmt == 0xB)) x y
        v' = (v2.acmWrite (acmWord t a m.bank (m.rowb + i) 0) 4 (r.map (·.1))).arrFlags t a (orFlags r)) →
      Runs (.macm t a mf) s ends) ∧
    (StartsArray s t a 0x43 mfldRsvd e s1 → m.m ≤ 512 →
      (Rows m.m u fun i v v' => ∃ w pr v1 v2,
        v.acmRead mf (acmWord t a 0 i 0) 4 512 = (some pr, v1) ∧
        (if m.first = 1 then (some (List.replicate 512 0), v1) else v1.wideRead mf t a i 512) = (some w, v2) ∧
        let r := List.zipWith (fun x y => ofSigned 96 (toSigned 96 x + toSigned 32 y * 2 ^ (7 * (m.s - 1 - m.t)))) w pr
        v' = ((v2.acmWrite (acmWord t a 1 i 0) 4 (r.map (· % 2 ^ 32))).acmWrite (acmWord t a 2 i 0) 4 (r.map (· / 2 ^ 32 % 2 ^ 32))).acmWrite
          (acmWord t a 3 i 0) 4 (r.map (· / 2 ^ 64))) →
      Runs (.mfld t a mf) s ends) ∧
    (StartsArray s t a 0x44 mcmbRsvd e s1 → m.m ≤ 512 → 0 < m.nc → m.nc ≤ 512 → 0 < m.m →
      gaddr e.g m.ra % 2 = 0 → gaddr e.g m.rb % 2 = 0 → s1.spmRangeOk t (gaddr e.g m.ra) (2 * m.m) = true →
      s1.spmRangeOk t (gaddr e.g m.rb) (2 * m.nc) = true →
      (Rows m.m u fun i v v' => ∃ x y w c v1 v2 v3 v4, let key := acmDouble t a (1 + i / 256) (256 + i % 256) 0
        v.load mf (spmBase t + gaddr e.g m.ra + 2 * i) 2 = (.ok x, v1) ∧ v1.load mf (spmBase t + gaddr e.g m.rb) (2 * m.nc) = (.ok y, v2) ∧
        v2.wideRead mf t a i m.nc = (some w, v3) ∧
        (if m.acc = 1 then v3.acmRead mf key 8 m.nc else (some (List.replicate m.nc 0), v3)) = (some c, v4) ∧
        v' = v4.acmWrite key 8 ((List.range m.nc).map fun j =>
          mcmbElem m.s (w.getD j 0) (leNat x) ((chunksOf 2 m.nc y).getD j 0) (c.getD j 0))) →
      Runs (.mcmb t a mf) s ends) ∧
    (StartsArray s t a 0x48 mchnRsvd e s1 → m.m ≤ 1024 → 0 < m.nc → m.nc ≤ 512 → m.rowb + m.m ≤ 1024 →
      s1.spmRangeOk t (gaddr e.g m.ra) (16 * m.m) = true →
      (Rows m.m u fun i v v' => ∃ f x y v1 v2 v3,
        v.readIf mf (m.first != 1) (spmBase t + gaddr e.g m.ra + 16 * i + 8) 4 1 = (.ok f, v1) ∧
        v1.acmRead mf (acmWord t a m.bank2 (m.rowb + i) 0) 4 m.nc = (some x, v2) ∧
        (if m.first = 1 then (some x, v2) else v2.acmRead mf (acmWord t a m.bank (m.rowb + i) 0) 4 m.nc) = (some y, v3) ∧
        let r : List FRes := if m.first = 1 then x.map fun w => (w, FFlags.none) else List.zipWith (fun w z => fp32.fmaC .rne w (f.headD 0) z) y x
        v' = (v3.acmWrite (acmWord t a m.bank (m.rowb + i) 0) 4 (r.map (·.1))).arrFlags t a (orFlags r)) →
      Runs (.mchn t a mf) s ends)

/-- R211 to R216, R239, R242 to R254, R261, R265: MSETP and MSETE load the descriptor that they read; MEPI computes its
rows from the ACM words, writes the converted lines to its destination, writes the row state of each row and sets the
array's sticky flags. -/
def Obligations.FusedStages : Prop :=
  ∀ (s s1 s2 : State) (t a : Fin 4) (mf : MemFaults) (e : QEntry) (d : List W64),
    let m := fmtM e.word
    let p := s1.partOf t e
    (StartsArray s t a 0x45 msetRsvd e s1 → s2.parts = s1.parts → s1.readDesc mf t (gaddr e.g m.ra) = (d, [], s2) → pRsvd d = false → pLeaves d = false →
      Runs (.msetp t a mf) s (((s2.activate t a e).modArr t a fun x =>
        if m.path = 1 then { x with prologueB := d } else { x with prologueA := d }).arrBoundary t a)) ∧
    (StartsArray s t a 0x46 (fun m => msetRsvd m || m.path != 0) e s1 → s2.parts = s1.parts → s1.readDesc mf t (gaddr e.g m.ra) = (d, [], s2) → eRsvd d = false →
      Runs (.msete t a mf) s (((s2.activate t a e).modArr t a fun x => { x with epilogue := d }).arrBoundary t a)) ∧
    (∀ (sv bv : List Nat) (rows : List EpiOut) (n : Nat) (v1 v2 v3 v4 v5 : State),
      StartsArray s t a 0x47 mepiRsvd e s1 → d = (s1.arr t a).epilogue → 0 < m.m → 0 < m.nc →
      let o := sourceOf d (outFmt d) e
      Passes (s1.mepiChecks t a p m d o) →
      (s1.activate t a e).readIf mf (eScaleMode d == 2) (spmBase t + eScaleVec d) 4 m.nc = (.ok sv, v1) →
      v1.readIf mf (eBiasMode d == 1) (spmBase t + eBiasVec d) (if eBiasFmt d then 2 else 4) m.nc = (.ok bv, v2) →
      State.epiRows mf t a d m (sv, bv) m.m 0 v2 = (rows, none, v3) → rows ≠ [] → v3.rowStateFail mf t d rows.length = (none, v4) →
      let lines := epiLines d m.fmt m.nc rows
      State.writeLines mf t p d o m.m m.nc lines 0
        (v4.arrFlags t a ((rows.foldl (fun x r => x.or r.flags) FFlags.none).or (lines.foldl (fun x l => x.or l.flags) FFlags.none))) = (n, none, v5) →
      Runs (.mepi t a mf) s ((rows.zipIdx.foldl (fun s r => s.rowState t a d r.2 r.1 ((List.range m.nc).map (writtenVal d lines r.2)))
        (v5.chargeLines d o m.m m.nc (lines.take n))).arrBoundary t a))

/-- R154 to R157, R159 to R162, R271 to R278, R402: MWAIT remembers a value that meets its threshold, is released, and
stops its program when its timeout expires first; the oldest operation completes and adds its INC; a built-in test that
was not asked for by a stopped operation maps its defects to spares, and without defects changes nothing but that it is
over. An operation queued to a retired array fails with F_ARRAY_LOST. R127, R169, R268: an array operation of no rows, or of no columns, moves no data: an MMUL of no rows still swaps its
tiles where SWAP is set, and the others change nothing but that their entry is in progress. -/
def Obligations.ArrayEvents : Prop :=
  (∀ (s : State) (t a : Fin 4) (e : QEntry) (rest : List QEntry),
    let popped := s.modQueue t a fun q => { q with waiting := rest }
    ((s.queue t a).waiting = e :: rest → opc e.word = 0x49 → s.mwaitCheck t a e = none →
      (condThr e ≤ s.ctr (condCtr e) →
        Runs (.mwait t a) s (s.modQueue t a fun q => { q with waiting := { e with met := true } :: q.waiting.drop 1 })) ∧
      (e.met = true ∨ condThr e ≤ s.ctr (condCtr e) → Runs (.mwaitRelease t a) s popped) ∧
      (e.met = false → s.ctr (condCtr e) < condThr e → condTout e ≠ 0 →
        Runs (.mwaitTimeout t a) s ((popped.ctxFault t e.ctx ⟨F_TIMEOUT, e.pcOff, 0, condCtr e, a⟩ false).coreNext t (coreOf e.ctx)))) ∧
    ((s.queue t a).active = e :: rest → (s.arr t a).rerun = none → Runs (.arrayOpDone t a) s ((s.retire t a e.id).addInc e)) ∧
    (∀ ds mism mf, (s.arr t a).repairing = true → (s.arr t a).rerun = none →
      Runs (.arrayAbist t a ds mism mf) s
        ((s.modArr t a fun x => { x with repairing := false, rerun := none }).arrRepair t a (ds.map Fin.val).dedup)) ∧
    (∀ mf s1, (s.arr t a).repairing = false → Takes s t a 0x42 e s1 → (s1.arr t a).retired = true →
      Runs (.macm t a mf) s (s1.failArr t a e F_ARRAY_LOST 0 0))) ∧
  (∀ (s s1 : State) (t a : Fin 4) (mf : MemFaults) (e : QEntry),
    let m := fmtM e.word
    let f := (Fmt.ofCode m.fmt).getD .fp32
    let u := s1.activate t a e
    let empty := m.m = 0 ∨ m.nc = 0
    (StartsArray s t a 0x40 mldbRsvd e s1 → empty → m.m ≤ f.kPass.getD 512 → m.nc ≤ 512 → Runs (.mldb t a mf) s (u.arrBoundary t a)) ∧
    (StartsArray s t a 0x41 mmulRsvd e s1 → m.m = 0 → m.rowb ≤ 1024 →
      let v := if m.swap = 1 then u.modArr t a fun x => { x with active := x.standby, standby := x.active } else u
      mmulStart (v.arr t a).active f = none → Runs (.mmul t a mf []) s (v.arrBoundary t a)) ∧
    (StartsArray s t a 0x44 mcmbRsvd e s1 → empty → m.m ≤ 512 → m.nc ≤ 512 → Runs (.mcmb t a mf) s (u.arrBoundary t a)) ∧
    (StartsArray s t a 0x48 mchnRsvd e s1 → empty → m.m ≤ 1024 → m.nc ≤ 512 → m.rowb + m.m ≤ 1024 →
      (m.nc = 0 ∨ s1.spmRangeOk t (gaddr e.g m.ra) (16 * m.m) = true) → Runs (.mchn t a mf) s (u.arrBoundary t a)) ∧
    (StartsArray s t a 0x47 mepiRsvd e s1 → empty → Passes (s1.mepiChecks t a (s1.partOf t e) m (s1.arr t a).epilogue
      (sourceOf (s1.arr t a).epilogue (outFmt (s1.arr t a).epilogue) e)) → Runs (.mepi t a mf) s (u.arrBoundary t a)))



/-! ### The vector engine (R283 to R344) and the convert unit (R176 to R185) -/

/-- R307, R308, R311, R313: the element-wise instructions write, for each element, the value of their operation on the
elements of their sources, rounded once to the destination's format, and set the sticky flags that it raises; on
integers the result wraps to 32 bits and saturates to INT8, with IOV. -/
def Obligations.VectorElements : Prop :=
  ∀ (s s' : State) (t : Fin 4) (e : QEntry) (j : VJob),
    let p := s'.partOf t e
    let v := fun (i x : Nat) => s'.streamVal t (j.src i) j.n x
    let n := fun (i x : Nat) => s'.streamInt t (j.src i) j.n x
    let fmts := j.dst.fmt :: j.srcs.map VStream.fmt
    let ok := fun (o k : Nat) => StartsVector s t o 0 k false e j s' ∧ Passes (s'.elemChecks t p j (List.replicate k j.n))
    let ends := fun (i : Instr) (f : Nat → Nat × FFlags) => Runs i s (vectorWrites s' t e j j.n ((List.range j.n).map f))
    let flt := fun (o k : Nat) (i : Instr) (f : FLayout → Nat → Nat × FFlags) =>
      ok o k → okFloats fmts = true → ∀ l, j.dst.fmt.layout? = some l → ends i (f l)
    let int := fun (o k : Nat) (i : Instr) (f : Nat → Int) => ok o k → okInts fmts = true → ends i fun x => intOut j.dst.fmt (f x)
    let bits := fun (o : Nat) (i : Instr) (f : Nat → Nat → Nat) =>
      ok o 2 → okInts fmts = true → ends i fun x =>
        ((intOut j.dst.fmt (toSigned 32 (f (ofSigned 32 (n 0 x)) (ofSigned 32 (n 1 x))))).1, FFlags.none)
    let shift := fun (o : Nat) (i : Instr) (f : Int → Nat → Int) =>
      ok o 2 → (∀ f ∈ fmts, f = .int32) → ends i fun x => (ofSigned 32 (f (n 0 x) (s'.streamCode t (j.src 1) j.n x % 32)), FFlags.none)
    let none := MemFaults.none
    flt 0x60 2 (.vadd t none) (fun l x => l.rnd j.rm (FVal.add j.rm (v 0 x) (v 1 x))) ∧ int 0x60 2 (.vadd t none) (fun x => n 0 x + n 1 x) ∧
    flt 0x61 2 (.vsub t none) (fun l x => l.rnd j.rm (FVal.add j.rm (v 0 x) (v 1 x).neg)) ∧ int 0x61 2 (.vsub t none) (fun x => n 0 x - n 1 x) ∧
    flt 0x62 2 (.vmul t none) (fun l x => l.rnd j.rm (FVal.mul (v 0 x) (v 1 x))) ∧ int 0x62 2 (.vmul t none) (fun x => n 0 x * n 1 x) ∧
    flt 0x63 3 (.vfma t none) (fun l x => l.rnd j.rm (FVal.fma j.rm (v 0 x) (v 1 x) (v 2 x))) ∧
    flt 0x64 3 (.vfms t none) (fun l x => l.rnd j.rm (FVal.fma j.rm (v 0 x) (v 1 x) (v 2 x).neg)) ∧
    flt 0x65 2 (.vdiv t none) (fun l x => l.div j.rm (v 0 x) (v 1 x)) ∧ flt 0x66 1 (.vsqrt t none) (fun l x => l.sqrt j.rm (v 0 x)) ∧
    flt 0x68 2 (.vmax t none) (fun l x => rndWith l (pickVal true (v 0 x) (v 1 x))) ∧ int 0x68 2 (.vmax t none) (fun x => max (n 0 x) (n 1 x)) ∧
    flt 0x69 2 (.vmin t none) (fun l x => rndWith l (pickVal false (v 0 x) (v 1 x))) ∧ int 0x69 2 (.vmin t none) (fun x => min (n 0 x) (n 1 x)) ∧
    flt 0x6A 1 (.vabs t none) (fun l x => l.rnd .rne (if (v 0 x).sign then (v 0 x).neg else v 0 x)) ∧
    int 0x6A 1 (.vabs t none) (fun x => ((n 0 x).natAbs : Int)) ∧
    flt 0x6B 1 (.vneg t none) (fun l x => l.rnd .rne (v 0 x).neg) ∧ int 0x6B 1 (.vneg t none) (fun x => -(n 0 x)) ∧
    bits 0x6E (.vand t none) Nat.land ∧ bits 0x6F (.vor t none) Nat.lor ∧ bits 0x70 (.vxor t none) Nat.xor ∧
    shift 0x71 (.vshl t none) (fun a k => a * 2 ^ k) ∧ shift 0x72 (.vsra t none) (fun a k => a / 2 ^ k) ∧
    shift 0x73 (.vsrl t none) (fun a k => ((ofSigned 32 a / 2 ^ k : Nat) : Int)) ∧
    (ok 0x6C 2 → j.dst.fmt = .int8 → okFloats (j.srcs.map VStream.fmt) = true → j.fn < 8 →
      ends (.vcmp t none) fun x => (b2n (predFlt j.fn (v 0 x) (v 1 x)).1, (predFlt j.fn (v 0 x) (v 1 x)).2)) ∧
    (ok 0x6C 2 → j.dst.fmt = .int8 → okInts (j.srcs.map VStream.fmt) = true → j.fn < 8 →
      ends (.vcmp t none) fun x => (b2n (predInt j.fn (n 0 x) (n 1 x)), FFlags.none)) ∧
    (ok 0x6D 3 → (j.src 2).fmt = .int8 → okFloats [j.dst.fmt, (j.src 0).fmt, (j.src 1).fmt] = true → ∀ l, j.dst.fmt.layout? = some l →
      ends (.vsel t none) fun x => l.rnd .rne (if n 2 x = 0 then v 1 x else v 0 x)) ∧
    (ok 0x6D 3 → (j.src 2).fmt = .int8 → okInts [j.dst.fmt, (j.src 0).fmt, (j.src 1).fmt] = true → j.dst.fmt.layout? = Option.none →
      ends (.vsel t none) fun x => intOut j.dst.fmt (if n 2 x = 0 then n 1 x else n 0 x))

/-- R309, R310, R312, R314, R315: the bounded functions give the exact value of a special input, and otherwise a code within
their bound (a value left open, log entry 20); the activations likewise; VPOLY evaluates its polynomial by Horner's
rule; VCVT converts each element, to whole blocks with a shared scale for an MX destination. -/
def Obligations.VectorFunctions : Prop :=
  ∀ (s s' : State) (t : Fin 4) (e : QEntry) (j : VJob),
    let p := s'.partOf t e
    let v := fun (x : Nat) => s'.streamVal t (j.src 0) j.n x
    let none := MemFaults.none
    let code := fun (x : Nat) => s'.streamCode t (j.src 0) j.n x
    let ends := fun (i : Instr) (f : Nat → Nat × FFlags) => Runs i s (vectorWrites s' t e j j.n ((List.range j.n).map f))
    let fn := fun (o alt : Nat) (i : Instr) =>
      StartsVector s t o alt 1 false e j s' → okFloats [j.dst.fmt, (j.src 0).fmt] = true → Passes (s'.elemChecks t p j [j.n]) →
      ∀ l, j.dst.fmt.layout? = some l → ends i fun x => match boundedSpecial o alt (v x) with
        | some (y, f) => ((l.rnd .rne y).1, f)
        | .none => veBoundedNum o alt l (v x) (boundedFree (2 * o + alt) (j.src 0).fmt j.dst.fmt (code x) (s'.arr t 0).mcode)
    fn 0x67 0 (.vrsqrt t none) ∧ fn 0x74 0 (.vexp t none) ∧ fn 0x74 1 (.vexp2 t none) ∧ fn 0x75 0 (.vlog t none) ∧ fn 0x75 1 (.vlog2 t none) ∧
    fn 0x76 0 (.vsin t none) ∧ fn 0x76 1 (.vcos t none) ∧ fn 0x77 0 (.vtanh t none) ∧ fn 0x77 1 (.verf t none) ∧
    (StartsVector s t 0x78 0 (if j.fn = 0x2 ∨ j.fn = 0xA then 2 else 1) false e j s' → j.dst.fmt ∈ [Fmt.fp32, .fp16, .bf16] →
      (j.src 0).fmt ∈ [Fmt.fp32, .fp16, .bf16] → j.fn < 0xC →
      (j.fn = 0x2 ∨ j.fn = 0xA → (j.src 1).kind = 2 ∧ (j.src 1).fmt = .fp64) → (j.fn = 0x2 → (j.src 1).w 2 < 2 ^ 32) →
      (j.fn = 0xA → let a := fp32.decode ((j.src 1).w 2 % 2 ^ 32); let b := fp32.decode ((j.src 1).w 2 / 2 ^ 32)
        a.isNan = false ∧ b.isNan = false ∧ FVal.lt b a = false) →
      Passes (s'.elemChecks t p j [j.n, j.n]) → ∀ l, j.dst.fmt.layout? = some l →
      ends (.vact t none) fun x => actVal j (j.src 0).fmt l (s'.arr t 0).mcode (code x) (v x)) ∧
    (StartsVector s t 0x79 0 2 false e j s' → okFloats [j.dst.fmt, (j.src 0).fmt, (j.src 1).fmt] = true → 0 < j.fn → j.fn < 16 →
      j.dst.fmt = veCompute [j.dst.fmt, (j.src 0).fmt, (j.src 1).fmt] → (j.src 1).fmt = j.dst.fmt →
      Passes (s'.elemChecks t p j [j.n, if j.n = 0 then 0 else j.fn + 1]) → ∀ l, j.dst.fmt.layout? = some l →
      ends (.vpoly t none) fun x => horner l j.rm (v x) (((List.range (j.fn + 1)).map fun k => s'.streamVal t (j.src 1) (j.fn + 1) k).reverse)) ∧
    (StartsVector s t 0x80 0 1 false e j s' → (convControl j.dst.fmt j.conv).isSome → Passes (s'.elemChecks t p j [j.n]) →
      (j.dst.fmt.isMx = false → ends (.vcvt t none) fun x => cvtVal (j.src 0).fmt j.dst.fmt j.conv (v x)) ∧
      (j.dst.fmt.isMx = true →
        let r := (s'.activate t 4 e).putBlocks t j.dst j.n j.n j.conv ((List.range j.n).map v)
        Runs (.vcvt t none) s (r.2.veFlags t r.1)))

/-- R316 to R335: the reductions write one element for each row: its terms combined lane by lane and then as a tree, with
the prior value of the output where ACC is set; VTOPK writes the k best values of each row and their positions; VRNG
writes the random elements of its key and counter, and with its top bit set advances the stored counter. -/
def Obligations.VectorReductions : Prop :=
  ∀ (s s' : State) (t : Fin 4) (e : QEntry) (j : VJob),
    let p := s'.partOf t e
    let none := MemFaults.none
    let fmts := j.dst.fmt :: j.srcs.map VStream.fmt
    let row := (j.src 0).row j.n
    let rows := (j.n + row - 1) / row
    let int := okInts fmts
    let acc := if fmts.contains .fp64 || j.fn == 1 then fp64 else fp32
    let lanes := if int then 1024 else if acc.width = 64 then 512 else 1024
    let reduces := fun (i : Instr) (x : RSpec) =>
      StartsVector s t x.op 0 x.nsrc false e j s' → (okFloats fmts || okInts fmts) = true → j.fn < 2 → (j.fn = 1 → int = false) →
      (∀ y ∈ j.srcs, y.rowLen = (j.src 0).rowLen) →
      Passes (s'.streamChecks t p j.dst true rows ++ (j.srcs.flatMap fun y => s'.streamChecks t p y false j.n) ++
        [overlapCheck [(j.dst, rows)] (j.srcs.map fun y => (y, j.n))]) →
      Runs i s (vectorWrites s' t e j rows ((List.range rows).map fun r => s'.reduceOne t x j int acc lanes row r rows))
    reduces (.vrsum t none)
      { op := 0x7A, nsrc := 1, first := fun _ _ x => (v0 x, FFlags.none), step := fun l rm a x => rndVal l rm (FVal.add rm a (v0 x)),
        comb := fun l rm a b => rndVal l rm (FVal.add rm a b), firstI := fun x => (i0 x, FFlags.none), stepI := fun a x => wrap32 (a + i0 x),
        combI := fun a b => wrap32 (a + b) } ∧
    reduces (.vrdot t none)
      { op := 0x7B, nsrc := 2, first := fun l rm x => rndVal l rm (FVal.mul (v0 x) (v1 x)),
        step := fun l rm a x => rndVal l rm (FVal.fma rm (v0 x) (v1 x) a), comb := fun l rm a b => rndVal l rm (FVal.add rm a b),
        firstI := fun x => wrap32 (i0 x * i1 x),
        stepI := fun a x => let q := wrap32 (i0 x * i1 x); let r := wrap32 (q.1 + a); (r.1, q.2.or r.2), combI := fun a b => wrap32 (a + b) } ∧
    reduces (.vrmax t none)
      { op := 0x7C, nsrc := 1, first := fun _ _ x => (v0 x, FFlags.none), step := fun _ _ a x => pickVal true a (v0 x),
        comb := fun _ _ a b => pickVal true a b, firstI := fun x => (i0 x, FFlags.none), stepI := fun a x => (max a (i0 x), FFlags.none),
        combI := fun a b => (max a b, FFlags.none) } ∧
    reduces (.vrmin t none)
      { op := 0x7D, nsrc := 1, first := fun _ _ x => (v0 x, FFlags.none), step := fun _ _ a x => pickVal false a (v0 x),
        comb := fun _ _ a b => pickVal false a b, firstI := fun x => (i0 x, FFlags.none), stepI := fun a x => (min a (i0 x), FFlags.none),
        combI := fun a b => (min a b, FFlags.none) } ∧
    (let k := j.fn % 16
     let count := rows * k
     let res := (List.range rows).flatMap fun r => topK (bitN j.fn 4) k ((List.range (min row (j.n - r * row))).map fun i =>
       (s'.streamVal t (j.src 0) j.n (r * row + i), if bitN j.fn 5 then s'.streamCode t (j.src 1) j.n (r * row + i) else i))
     StartsVector s t 0x7E 0 (if bitN j.fn 5 then 2 else 1) true e j s' → 0 < k → k ≤ 8 → j.fn < 64 → okFloats [(j.src 0).fmt] = true →
      j.dst.fmt = (j.src 0).fmt → j.pos.fmt = .int32 → (j.srcs.length = 2 → (j.src 1).fmt = .int32) →
      Passes (s'.streamChecks t p j.dst true count ++ s'.streamChecks t p j.pos true count ++
        (j.srcs.flatMap fun y => s'.streamChecks t p y false j.n) ++ [overlapCheck [(j.dst, count), (j.pos, count)] (j.srcs.map fun y => (y, j.n))]) →
      ∀ l, j.dst.fmt.layout? = some l →
      Runs (.vtopk t none) s ((((s'.activate t 4 e).putCodes t j.dst count (res.map fun q => (l.rnd .rne q.1).1)).putCodes t j.pos count (res.map (·.2))).veFlags t
        { FFlags.none with nv := (List.range (min (rows * row) j.n)).any fun i => (s'.streamVal t (j.src 0) j.n i).isSig })) ∧
    (let ctr := (j.src 0).w 1 + (j.src 0).w 2 * 2 ^ 64
     let per := if j.dst.fmt = .fp64 then 2 else 4
     let u := (s'.activate t 4 e).putCodes t j.dst j.n ((List.range j.n).map fun i => rngElem j.dst.fmt (j.fn % 2 == 1) ((j.src 0).w 0) ctr i)
     StartsVector s t 0x7F 0 1 false e j s' → (okFloats [j.dst.fmt] || j.dst.fmt == .int32) = true → j.fn % 128 < 2 → (j.src 0).w 3 = 0 →
      Passes (s'.streamChecks t p j.dst true j.n) →
      (j.fn < 128 → Runs (.vrng t none) s u) ∧
      (128 ≤ j.fn → (∀ r ∈ j.dst.ranges j.n, (j.desc + 56 : Int) ≤ r.1 ∨ r.2 ≤ j.desc + 40) →
        Runs (.vrng t none) s (u.store (spmBase t + j.desc + 40) (leBytes 16 ((ctr + (j.n + per - 1) / per) % 2 ^ 128)))))

/-- R176 to R183, R303, R344, R402: the oldest vector instruction completes, is counted and adds its INC; CSLC cuts its
rows into slices with an exponent for each; a CSLC completes and adds its INC. -/
def Obligations.VectorCompletionAndSlices : Prop :=
  ∀ (s s' u : State) (t : Fin 4) (e : QEntry) (rest : List QEntry) (mf : MemFaults),
    ((s.queue t 4).active = e :: rest →
      Runs (.veInstrDone t) s (((s.modTile t fun x => { x with veDone := sat32 (x.veDone + 1) }).retire t 4 e.id).addInc e)) ∧
    ((s.queue t 5).active = e :: rest → Runs (.cslcDone t) s ((s.retire t 5 e.id).addInc e)) ∧
    (let x := fmtX e.word
     let pad := (x.l + 31) / 32 * 32
     Takes s t 5 0x81 e s' → x.rsvd = 0 → 3 ≤ x.s → x.s ≤ 8 → x.rows ≤ 1024 → x.l ≤ 131072 → s'.incCheck (s'.partOf t e) x.ctr x.ri = none →
      (x.rows = 0 ∨ x.l = 0 → Runs (.cslc t mf) s (s'.activate t 5 e)) ∧
      (0 < x.rows → 0 < x.l → gaddr e.g x.ra % 8 = 0 → gstride e.g x.rb % 8 = 0 → gaddr e.g x.rc % 32 = 0 → gstride e.g x.rd % 32 = 0 →
        gstride e.g x.re % 32 = 0 → gaddr e.g x.rf % 2 = 0 →
        (∀ r < x.rows, s'.spmCheck t (gaddr e.g x.ra + r * gstride e.g x.rb) (8 * x.l) = none ∧ s'.spmCheck t (gaddr e.g x.rf + 2 * r) 2 = none ∧
          ∀ i < x.s, s'.spmCheck t (gaddr e.g x.rc + i * gstride e.g x.re + r * gstride e.g x.rd) pad = none) →
        (s'.activate t 5 e).cutRows mf t e x x.rows 0 = (x.rows, none, u) → Runs (.cslc t mf) s u))


/-! ### HBM controllers and scratchpad banks (R445 to R475, R1003 to R1006), views and Husk snapshots -/

/-- R449, R450, R463 to R471, R1003, R1086: a failing bank is mapped to a spare; the oldest failing row of a stack that serves
is repaired; a reported row is fenced ten seconds on; patrol scrub reads the next sector; a refresh changes nothing; a
temperature at 85 °C doubles the refresh until it falls below 80, and at 95 °C throttles until it falls below 90; a
waiting request whose bucket holds its charge is granted; an epoch's byte counts start again. -/
def Obligations.HbmAndBankEvents : Prop :=
  ∀ (s : State) (t : Fin 4) (k : Fin 8) (mf : MemFaults),
    (∀ b, (s.tile t).bankCopy = [b] → (s.tile t).spareBanks ≠ 0 → Runs (.spmBankCopy t) s (s.bankSpare t b)) ∧
    (∀ r rest, (s.stack k).failing = r :: rest → (s.stack k).serves = true → Runs (.hbmSoftRepair k mf) s (s.rowRepair mf k r)) ∧
    (∀ r n, (r, n) ∈ (s.stack k).reported → Runs (.hbmRowFence k r) s
      (s.modStack k fun x => { x with fenced := natInsert x.fenced r, reported := x.reported.filter fun q => q.1 != r })) ∧
    (∀ u, (s.stack k).serves = true → (s.stack k).scrubEnable = true → (s.stack k).failing = [] → (s.stack k).scrubSector < 31 →
      s.readErr mf (s.paOf k (rowSector (s.stack k).rowsDone (s.stack k).scrubSector)) 32 = (none, u) → (u.stack k).scrubSector < 31 →
      Runs (.hbmPatrolScrub k 1 mf) s (u.modStack k fun x => { x with scrubSector := x.scrubSector + 1 })) ∧
    (∀ b, Runs (.hbmRefresh k b) s s) ∧
    (∀ c : Fin 256, c.val < 80 → Runs (.hbmTempRead k c) s
      (s.modStack k fun x => { x.settle s.timeNs with temp := c.val, doubled := false, throttled := false })) ∧
    (∀ c : Fin 256, 85 ≤ c.val → c.val < 90 → Runs (.hbmTempRead k c) s
      (s.modStack k fun x => { x.settle s.timeNs with temp := c.val, doubled := true, throttled := false })) ∧
    (∀ c : Fin 256, 95 ≤ c.val → c.val < 105 → (s.stack k).throttled = false → Runs (.hbmTempRead k c) s
      (((s.modStack k fun x => { x.settle s.timeNs with temp := c.val, doubled := true, throttled := true }).setFlag (lnHc k) fHcThermal).logEv
        "HBM_THERMAL" 0 k 0xFF [])) ∧
    (∀ w, (s.stack k).choose s.timeNs = some w → Runs (.hbmRequestGrant k) s (s.modStack k fun x =>
      let r := (x.reg w.1).take s.timeNs x.throttled w.2
      { x with regs := Tbl.set x.regs w.1 { r with waits := sat32 (r.waits + 1) }, waiting := x.waiting.erase w, lastServed := w.1 })) ∧
    Runs (.hbmEpoch k) s (s.modStack k fun x => { x with regs := Tbl.mapVal (fun _ r => { r with epochBytes := 0 }) x.regs })

/-- R493, R495 to R516: a read of a view window answers the converted bytes, a write of whole elements stores the converted
values at the source's blocks, in replace or in accumulate mode as the view says; an access that the view's partition,
range or setting does not allow changes only the refusal flag of the Tiller. -/
def Obligations.ViewAccesses : Prop :=
  ∀ (s : State) (t : Fin 4) (p : Fin 8) (v : Fin 256) (off n : Nat) (data : List Byte) (mf : MemFaults),
    let e := (vTgt (s.view v)).bits / 8
    let whole := off % e = 0 ∧ data.length % e = 0
    (∀ g bs u, s.viewReadOk p v off n = true → s.viewRead mf v off n = (g, bs, u) → Runs (.viewRead t p v off n mf) s (u.emit (.bytes bs))) ∧
    (s.viewReadOk p v off n = false → Runs (.viewRead t p v off n mf) s (s.viewRefused t)) ∧
    (s.viewWriteOk p v off data.length = true → whole →
      (vAccum (s.view v) = false → Runs (.viewWriteReplace t p v off data mf) s (s.viewWrite mf v off data).2.2) ∧
      (vAccum (s.view v) = true → Runs (.viewWriteAccumulate t p v off data mf) s (s.viewWrite mf v off data).2.2)) ∧
    (s.viewWriteOk p v off data.length = false →
      (vAccum (s.view v) = false → Runs (.viewWriteReplace t p v off data mf) s (s.viewRefused t)) ∧
      (vAccum (s.view v) = true → Runs (.viewWriteAccumulate t p v off data mf) s (s.viewRefused t)))

/-- R849 to R869: the trigger takes the point where the state allows it, and otherwise logs HUSK_SKIPPED, and TRIG_NEXT
advances either way; HUSK_FROZEN releases the held writes and puts eight zero bytes at the manifest's place; a write
whose parts are not yet saved is performed after them; a drained shard is hashed, counted and put; the manifest is put
once every shard is acknowledged; the snapshot then ends SEALED in SHRINK mode and ARMED in RELOAD mode, and DONE_CTR gets 1. -/
def Obligations.HuskSnapshots : Prop :=
  ∀ (s : State) (p : Fin 8) (c : HuskCfg), (s.husk p).cfg = some c →
    let h := s.husk p
    let next := s.modHusk p fun h => { h with trigNext := h.trigNext + 1 }
    (c.trigEn = true → h.trigNext ≤ (s.ctr c.trigCtr).toNat →
      (s.huskCanFreeze p = true → Runs (.huskTrigger p) s (next.huskFreeze p (s.ctr c.trigCtr).toNat)) ∧
      (s.huskCanFreeze p = false → Runs (.huskTrigger p) s (next.huskLog p "HUSK_SKIPPED"))) ∧
    (h.st = 2 →
      let v := (s.modHusk p fun h => { h with st := 3 }).releaseHeld p
      let u := (v.huskLog p "HUSK_FROZEN").respondWaiting (.freeze p) 0 0 (leBytes 8 (v.husk p).snapId)
      (u.husk p).cfg = some c → Runs (.huskFrozen p) s (u.huskPut p (c.manOff (u.husk p).snapId) (List.replicate 8 0))) ∧
    (∀ a data mf, s.cowDue p a data.length = true → s.writeErr mf a data.length = none → Runs (.huskCowCopy p a data mf) s (s.store a data)) ∧
    (3 ≤ h.st → Runs (.huskReserveFreed p) s (s.releaseHeld p)) ∧
    (3 ≤ h.st → h.st ≤ 6 → h.held ≠ [] → Runs (.huskOverflow p) s (s.huskAbandon p "HUSK_OVERFLOW")) ∧
    (∀ i mf x bs bad u, h.shards[i]? = some x → h.st = 3 → s.shardRuns p i = true → s.frozenBytes mf p x = (bs, bad, u) →
      let w := u.modHusk p fun h =>
        { h with shards := h.shards.set i { x with drained := true, digest := sha256 bs, poison := bad.map fun g => g - x.source },
                 parts := h.drainParts x, drainedCount := h.drainedCount + 1, poisoned := h.poisoned + bad.length }
      (w.husk p).poisoned ≤ 65536 →
      Runs (.huskShardDrained p i mf) s (w.huskPut p (c.destOff (w.husk p).snapId + i * 2 ^ c.shardLog2) bs)) ∧
    (h.st = 3 → h.manifestSent = false → (∀ x ∈ h.shards, x.drained = true) → s.huskPutsDone p = true →
      let m := (s.huskForget p).manifest p
      Runs (.huskManifestSend p) s ((m.2.modHusk p fun h => { h with manifestSent := true }).huskPut p (c.manOff h.snapId) m.1)) ∧
    (h.st = 3 → h.manifestSent = true → s.huskPutsDone p = true →
      let ended := fun (u : State) => ((u.huskLog p "HUSK_COMPLETE").setFlag lnHk fHkDone).ctrAdd c.doneCtr 1
      (c.mode = 1 → Runs (.huskComplete p) s (ended ((s.huskForget p).modHusk p fun h => { h with st := 4 }))) ∧
      (c.mode ≠ 1 → Runs (.huskComplete p) s (ended (((s.huskForget p).modHusk p fun h => { h with st := 1, parts := [] }).releaseHeld p))))

/-- R875 to R882: a rollback writes the saved parts back and answers its command; a manifest that does not verify ends the
restore with HUSK_SIG_BAD and nothing is written; a verified one names the shards; a shard with the right digest that
fits is written; when every shard is done the restore ends ARMED, and DONE_CTR gets 1, or 2^32 after a bad shard. -/
def Obligations.HuskRollbackAndRestore : Prop :=
  ∀ (s : State) (p : Fin 8),
    let h := s.husk p
    (h.st = 6 → Runs (.huskRolledBack p) s
      ((((((h.parts.foldl (fun s x => match x.2 with
        | .saved bs poisoned => s.partBack p x.1 bs poisoned
        | .drained => s) s).modHusk p fun h => { h with st := 5, parts := [] }).huskLog p "HUSK_ROLLED_BACK").setFlag lnHk fHkDone).respondWaiting
        (.rollback p) 0 0 []).endTickets fun t => t.act == .huskrb && t.res.contains (.partition p))) ∧
    (∀ r, h.restore = some r → h.st = 7 →
      (∀ m verified, r.checked = false → verified = false → Runs (.huskManifestCheck p m verified) s ((s.huskLog p "HUSK_SIG_BAD").restoreEnd p false)) ∧
      (∀ m, let n := fun (at_ w : Nat) => leNat ((m.drop at_).take w)
        r.checked = false → n 0 8 = huskMagic → n 8 4 = 1 → n 48 8 = s.reproKey p →
        Runs (.huskManifestCheck p m true) s (s.modHusk p fun h =>
          { h with restore := some { r with checked := true,
                                            shards := ((((List.range (n 12 4)).drop r.first).take r.count)).map (manifestShard m (n 12 4)) } })) ∧
      (∀ i x data, r.checked = true → r.shards[i]? = some x → x.drained = false → data.length = x.len → sha256 data = x.digest →
        s.restoreFits p (moved x.source r.delta) x.len = true → x.poison = [] → bitN x.region 8 = false →
        Runs (.huskShardRestore p i data) s ((s.store (moved x.source r.delta) data).modHusk p fun h =>
          { h with restore := some { r with shards := r.shards.set i { x with drained := true }, done := r.done + 1 },
                   drainedCount := h.drainedCount + 1, badShards := h.badShards })) ∧
      (r.checked = true → r.done = r.shards.length → Runs (.huskRestored p) s (s.restoreEnd p (h.badShards == 0))))


/-! ### Optical ports and laser modules (R737 to R803) -/

/-- R744, R748 to R764, R776: frames at a port in ACTIVE. A well-formed frame frees the frames it acknowledges and returns
credits; the expected DATA frame is accepted and acknowledged, one behind is acknowledged again, one ahead is answered by
a NAK; a NAK returns credits and resends from its number; LANEMAP returns credits and moves the failed lane to the spare;
a bad frame is only counted. Without progress the frames are sent again, and then the port leaves ACTIVE; a TRAIN frame
makes it restart. -/
def Obligations.LinkFrames : Prop :=
  ∀ (s : State) (k : Fin 24) (f : Frame),
    let u := s.frameAck k f
    let x := u.port k
    let ahead := (f.seq + 4096 - x.expected) % 4096
    let c := s.modPort k fun p => p.takeCredit f.cvc f.cred
    let m := c.portPump k
    (f.malformed = false → (s.port k).st = stActive →
      (f.ty = frData → ahead = 0 → ∃ v, Runs (.dataFrame k f) s (v.emit (.frame k frIdle (v.port k).lastSeq)) ∧
        v = u.modPort k fun p =>
          { p with expected := (p.expected + 1) % 4096, accepted := true, lastNak := none,
                   freed0 := if f.vc then p.freed0 else (p.freed0 + 1) % 4096,
                   freed1 := if f.vc then (p.freed1 + 1) % 4096 else p.freed1 }) ∧
      (f.ty = frData → 0 < ahead → ahead ≤ 2048 → x.lastNak = none →
        Runs (.dataFrame k f) s
          ((u.modPort k fun p => { p with lastNak := some (p.expected, u.timeNs), naks := sat32 (p.naks + 1) }).emit (.frame k frNak x.expected))) ∧
      (f.ty = frData → 2048 < ahead → Runs (.dataFrame k f) s (u.emit (.frame k frIdle x.lastSeq))) ∧
      (f.ty = frIdle → Runs (.idleFrame k f) s u) ∧
      (∀ i, f.ty = frNak → ((c.port k).unacked.findIdx? fun y => y.seq == f.ack) = some i →
        Runs (.nakFrame k f) s (((c.modPort k fun p => { p with unacked := p.unacked.drop i }).resend k).portPump k)) ∧
      (∀ sp, f.ty = frLanemap → (m.port k).mapEpoch ≠ some (f.ctl / 16) → f.ctl % 16 < 9 →
        ((List.range 9).find? fun l => (Tbl.get Lane.reset (m.port k).lanes l).st == 1) = some sp →
        Runs (.lanemapFrame k f) s ((m.modPort k fun p =>
          { p with mapEpoch := some (f.ctl / 16), spareTx := true,
                   lanes := Tbl.upd Lane.reset (Tbl.upd Lane.reset p.lanes (f.ctl % 16) fun y => { y with st := 2 }) sp
                     fun y => { y with st := 0, logical := (Tbl.get Lane.reset (m.port k).lanes (f.ctl % 16)).logical } }).setFlag (lnOp k) 1)) ∧
      (f.ty = frTrain → Runs (.trainFrame k f) s (((s.leaveActive k stExchange).modPort k fun q =>
        { q with spareTx := (s.port k).spareTx, spareRx := (s.port k).spareRx }).emit (.frame k frTrain 0)))) ∧
    (f.malformed = true →
      let counted := s.modPort k fun p => { p with frameErr := sat32 (p.frameErr + 1) }
      Runs (.dataFrame k f) s counted ∧ Runs (.idleFrame k f) s counted ∧ Runs (.nakFrame k f) s counted ∧
      Runs (.lanemapFrame k f) s counted ∧ Runs (.trainFrame k f) s counted) ∧
    (∀ crc n, Runs (.badFrame k crc n) s (s.modPort k fun p =>
      { p with crcErr := if crc then sat32 (p.crcErr + 1) else p.crcErr, frameErr := if crc then p.frameErr else sat32 (p.frameErr + 1),
               fecUncorr := sat32 (p.fecUncorr + n) })) ∧
    ((s.port k).st = stActive → (s.port k).unacked ≠ [] →
      Runs (.replayTimeout k) s ((s.modPort k fun p => { p with replays := sat32 (p.replays + 1) }).resend k) ∧
      Runs (.linkDownTimeout k) s (s.leaveActive k (s.port k).startSt))

/-- R765 to R774: training goes DETECT, ALIGN, EXCHANGE, ACTIVE; a step that times out is a failure, the fourth in a row
taking the port to DARK; the waits of BACKOFF and the probes of DARK start it again, unless a module start defers it;
fibre-out takes a port to FIBRE_OUT and fibre-in starts it again; loss of light takes it back to DETECT. -/
def Obligations.PortTraining : Prop :=
  ∀ (s : State) (k : Fin 24),
    let p := s.port k
    let failed := fun (u : State) => ((u.modPort k fun p => { p.clearLink with trainFail := sat32 (p.trainFail + 1), fails := min 4 (p.fails + 1) }).logEv
      "PORT_TRAIN_FAIL" 1 k 0xFF [])
    (p.st = stDetect →
      Runs (.detectSuccess k) s ((s.modPort k fun p => { p with fails := if p.lightLost then 0 else p.fails, lightLost := false }).setPortSt k stAlign) ∧
      (p.fails < 3 → Runs (.detectTimeout k) s ((failed s).setPortSt k stBackoff)) ∧
      (p.fails = 3 → p.fibre = false → Runs (.detectTimeout k) s (((failed s).setPortSt k stDark).logEv "PORT_DARK" 1 k 0xFF []))) ∧
    (p.st = stAlign → p.fails < 3 → Runs (.alignTimeout k) s ((failed s).setPortSt k stBackoff)) ∧
    (p.st = stExchange → p.fails < 3 → Runs (.exchangeTimeout k) s ((failed s).setPortSt k stBackoff)) ∧
    (∀ tx rx : Fin 512, p.st = stAlign → 8 ≤ ((List.range 9).filter fun l => bitN tx l).length → 8 ≤ ((List.range 9).filter fun l => bitN rx l).length →
      Runs (.alignSuccess k tx rx) s
        (((s.modPort k fun p => { p with lanes := alignLanes 9 rx (alignLanes 0 tx p.lanes), spareTx := false, spareRx := false,
                                         stepSent := false, echo := 0 }).setPortSt k stExchange).emit (.frame k frTrain 0))) ∧
    (∀ f : Frame, let g := fun (i : Nat) => f.payload.getD i 0
      f.malformed = false → f.ty = frTrain → p.st = stExchange → s.hallPort k = false → g 0 = 2 → g 1 = 2 → g 2 = s.planeOfPort k →
      1 ≤ g 5 → g 5 ≤ 1024 → 1 ≤ g 6 → g 6 ≤ 1024 →
      let u := s.modPort k fun p => { p with echo := g 7 }
      let rtt := (s.timeNs % 2 ^ 32 + 2 ^ 32 - g 8) % 2 ^ 32
      (g 8 = 0 → Runs (.trainFrame k f) s u) ∧
      (g 8 ≠ 0 → rtt ≤ 6000 → g 9 = 1 → Runs (.trainFrame k f) s
        (((u.modPort k fun p => { p with stepSent := true }).emit (.frame k frTrain 1)).enterActive k (rtt / 10) 2 (g 5) (g 6) (g 3)))) ∧
    (p.st = stBackoff → Runs (.backoffExpiry k) s (if s.retrainDeferred k then s.modPort k fun p => { p with deferred := true } else s.portStart k)) ∧
    (p.st = stDark → Runs (.darkProbe k) s (if s.retrainDeferred k then s.modPort k fun p => { p with deferred := true } else s.portStart k)) ∧
    (p.fibre = true → p.st = stOff →
      Runs (.fibreOut k) s ((((s.modPort k fun p => { p with fibre := false }).setFlag (lnOp k) 2).setFlag lnLs 1).clearService 1 k)) ∧
    (p.fibre = true → p.st ≠ stOff → Runs (.fibreOut k) s
      ((((((s.modPort k fun p => { p with fibre := false }).setFlag (lnOp k) 2).setFlag lnLs 1).leaveActive k stFibreOut).logEv "FIBRE_OUT" 1 k 0xFF []).clearService 1 k)) ∧
    (p.fibre = false →
      let u := ((((s.modPort k fun p => { p with fibre := true, fails := 0 }).mated k).setFlag (lnOp k) 2).setFlag lnLs 1).logEv "FIBRE_IN" 1 k 0xFF []
      (p.st ≠ stFibreOut → (u.port k).st = p.st → Runs (.fibreIn k) s u) ∧
      (p.st = stFibreOut → (u.port k).st = p.st → Runs (.fibreIn k) s (u.portStart k))) ∧
    (p.st = stActive ∨ p.st = stAlign ∨ p.st = stExchange →
      Runs (.lightLoss k) s ((s.modPort k fun p => { p with lightLost := true }).portOut k)) ∧
    (p.st = stDetect → Runs (.lightLoss k) s (s.modPort k fun p => { p with lightLost := true }))

/-- R775 to R795: a failing receive lane starts a sparing while a spare stands by, and otherwise takes the port out; a
sparing that times out takes the port out; a failed spare is marked and logged. A port's sources change, a polled module
that alarms, loses an output or is above 70 °C is taken out, and pulling, inserting, starting and feeding a module change
its state and the ports it feeds. -/
def Obligations.LanesAndLasers : Prop :=
  ∀ (s : State) (k : Fin 24) (m : Fin 6),
    let p := s.port k
    let x := s.laser m
    let lit := x.st = 1 ∨ x.st = 2 ∨ x.st = 5
    (∀ lane : Fin 9, p.st = stActive → (Tbl.get Lane.reset p.lanes (9 + lane)).st = 0 → p.sparing = none →
      (((List.range 9).any fun l => (Tbl.get Lane.reset p.lanes (9 + l)).st == 1) = true →
        let e := (p.epoch + 1) % 16
        Runs (.laneFailing k lane) s (((s.setFlag (lnOp k) 1).modPort k fun p => { p with sparing := some (lane, e), epoch := e }).emit
          (.frame k frLanemap (e * 16 + lane)))) ∧
      (((List.range 9).any fun l => (Tbl.get Lane.reset p.lanes (9 + l)).st == 1) = false →
        Runs (.laneFailing k lane) s ((s.setFlag (lnOp k) 1).portOut k))) ∧
    (p.sparing ≠ none → Runs (.sparingTimeout k) s (s.portOut k)) ∧
    (∀ lane : Fin 18, (Tbl.get Lane.reset p.lanes lane).st = 1 → Runs (.laneFailed k lane) s
      (((s.modPort k fun p => { p with lanes := Tbl.upd Lane.reset p.lanes lane fun y => { y with st := 2 } }).setFlag (lnOp k) 1).logEv
        "LANE_FAILED" 1 k 0xFF [(1, lane)])) ∧
    Runs (.laserSourceFail k false) s (s.setSources k false p.srcB) ∧ Runs (.laserSourceFail k true) s (s.setSources k p.srcA false) ∧
    (∀ powers temp alarm lost, lit →
      let u := s.modLaser m fun x => { x with powers := powers, temp10 := temp }
      (alarm = true ∨ lost = true ∨ 700 < temp → Runs (.laserPoll m powers temp alarm lost) s (u.moduleFail m 3)) ∧
      (alarm = false → lost = false → temp ≤ 700 → Runs (.laserPoll m powers temp alarm lost) s u)) ∧
    (x.present = true →
      let u := s.modLaser m fun x => { x with present := false }
      (lit → Runs (.laserModulePull m) s (u.moduleFail m 0)) ∧ (¬ lit → Runs (.laserModulePull m) s (u.setModuleSt m 0))) ∧
    (∀ ok v, x.present = false → Runs (.laserModuleInsert m ok v) s
      ((s.modLaser m fun x => { x with present := true, insertions := satTo 65535 (x.insertions + 1) }).moduleStart m ok v)) ∧
    (x.st = 1 → Runs (.laserSetpointReached m) s
      ((((((s.modLaser m fun x => { x with evac := false }).setModuleSt m 2).feedPorts m true).clearService 2 m).evacEnds m).releaseDeferred m)) ∧
    (x.feed = true →
      let u := (s.modLaser m fun x => { x with feed := false }).setFlag lnLs 1
      (lit → Runs (.feedOut m) s (u.moduleFail m 7)) ∧ (¬ lit → Runs (.feedOut m) s u)) ∧
    (∀ ok v, x.feed = false → x.st ≠ 7 →
      ((((s.modLaser m fun x => { x with feed := true }).mated (24 + m)).setFlag lnLs 1).laser m).st = x.st →
      Runs (.feedIn m ok v) s (((s.modLaser m fun x => { x with feed := true }).mated (24 + m)).setFlag lnLs 1)) ∧
    (∀ ok v, ((((s.modLaser m fun x => { x with feed := true }).mated (24 + m)).setFlag lnLs 1).laser m).st = 7 → x.feed = false →
      Runs (.feedIn m ok v) s ((((s.modLaser m fun x => { x with feed := true }).mated (24 + m)).setFlag lnLs 1).moduleStart m ok v))


/-! ### Application cores (R529 to R590) -/

/-- R529, R538 to R542, R558, R562, R564, R610: a load writes its register with the bytes of its address, a store writes its
bytes, and one to the domain aperture becomes an operation of the core; an AMO on HBM is one read-modify-write with the
prior value in rd; LR reserves what it reads; SC stores only where that is still reserved, and says so in rd; a FENCE with
an earlier aperture store outstanding waits for it, where its predecessor set asks for that. -/
def Obligations.CoreMemoryAccesses : Prop :=
  ∀ (s s' u v : State) (h : Fin 64) (w : Fin 4) (fp short : Bool) (rd rs1 rs2 : Fin 32) (imm : Int) (mf : MemFaults)
    (ps : List (Nat × Nat × Nat)) (bs : List Byte),
    let n := 2 ^ w.val
    let va := (s'.core h).baseAddr rs1 imm
    let value := if fp then (s'.core h).fr rs2 else (s'.core h).xr rs2
    let whole := fun (qs : List (Nat × Nat × Nat)) => va % n = 0 ∨ misalignedFault qs = none
    let first := (ps.head?.map fun p => p.2.1).getD 0
    let firstLen := (ps.head?.map fun p => p.2.2).getD 0
    (Executes s h (instrLen short) s' → (fp = true → (s'.core h).fpOn = true ∧ 2 ≤ w.val) →
      (∀ signed, s'.xlate mf h false (coreSegs va n) = (.ok ps, u) →
        let qs := ps.map fun p => (p.1, u.loadAddr h p.2.1 p.2.2, p.2.2)
        let pa := (qs.head?.map fun p => p.2.1).getD 0
        whole qs →
        (isAperture pa = false → u.coreReadAll mf h qs = (.ok bs, v) →
          Runs (.coreLoad h w signed fp short rd rs1 imm mf) s (v.modCore h fun c => (c.landLoad n signed (b2n fp) rd 0 (leNat bs)).nextPc)) ∧
        (isAperture pa = true → u.coreDomainOk h rightR pa n = true →
          let o := u.coreOp h .load pa n [] [(0, n)]
          Runs (.coreLoad h w signed fp short rd rs1 imm mf) s
            (((u.modCore h fun c => { c with wait := .load o.id va pa n signed (b2n fp) rd 0 }).newOp o).sendPieces mf o.id))) ∧
      (s'.xlate mf h true (coreSegs va n) = (.ok ps, u) → whole ps →
        (isAperture first = false →
          let ws := ps.zipIdx.flatMap fun p => (runsIn (if p.2 = 0 then 0 else firstLen) p.1.2.1 p.1.2.2 [(0, leBytes n value.toNat)]).map fun x => (p.1.1, x)
          (∀ x ∈ ws, u.storeFault mf h x.2.1 x.2.2.length = none) → u.coreWriteAll mf h (ws.map (·.2)) = (none, v) →
          Runs (.coreStore h w fp short rs2 rs1 imm mf) s (v.modCore h Core.nextPc)) ∧
        (isAperture first = true → u.coreDomainOk h rightW first n = true →
          ∃ o, o.kind = .store ∧ o.src = .core h ∧ o.addr = first ∧ o.len = n ∧ o.data = leBytes n value.toNat ∧
          Runs (.coreStore h w fp short rs2 rs1 imm mf) s (((u.modCore h Core.nextPc).newOp o).sendPieces mf o.id)))) ∧
    (∀ (w64 aq rl : Bool) (op : Fin 9) (pa : Nat), Executes s h 4 s' →
      let m := if w64 then 8 else 4
      let a := ((s'.core h).xr rs1).toNat
      let x := ((s'.core h).xr rs2).toNat
      a % m = 0 →
      (s'.translate mf h true a m = (.ok pa, u) → isAperture pa = false → isHbm pa = true → u.coreRead mf h pa m = (.ok bs, v) →
        v.storeFault mf h pa m = none →
        Runs (.coreAmo h op w64 aq rl rd rs1 rs2 mf) s
          ((v.coreWrite mf h pa (leBytes m (atomicFn (amoCode op) m (leNat bs) (x % 2 ^ (8 * m)) 0))).2.modCore h fun c =>
            (c.setX rd (extendN m true (leNat bs))).nextPc)) ∧
      (s'.translate mf h false a m = (.ok pa, u) → u.lrScFault pa m = none → u.coreRead mf h pa m = (.ok bs, v) →
        Runs (.coreLrSc h false w64 rd rs1 rs2 mf) s
          (v.modCore h fun c => ({ c with resv := some (pa, m) }.setX rd (extendN m true (leNat bs))).nextPc)) ∧
      (s'.translate mf h true a m = (.ok pa, u) → u.lrScFault pa m = none →
        ((u.core h).resv ≠ some (pa, m) →
          Runs (.coreLrSc h true w64 rd rs1 rs2 mf) s (u.modCore h fun c => ({ c with resv := none }.setX rd 1).nextPc)) ∧
        ((u.core h).resv = some (pa, m) → u.storeFault mf h pa m = none →
          Runs (.coreLrSc h true w64 rd rs1 rs2 mf) s ((u.coreWrite mf h pa (leBytes m x)).2.modCore h fun c => ({ c with resv := none }.setX rd 0).nextPc)))) ∧
    (∀ pred succ : Fin 16, Executes s h 4 s' →
      (bitN pred 2 = true → s'.storesOut h ≠ [] → Runs (.coreFence h pred succ) s (s'.modCore h fun c => { c with wait := .fence (s'.storesOut h) })) ∧
      (bitN pred 2 = false ∨ s'.storesOut h = [] → Runs (.coreFence h pred succ) s (s'.modCore h Core.nextPc)))

/-- R530, R537, R544 to R546, R565, R566, R590: a legal CSR access writes rd with the value that the CSR reads and the CSR
with the new value; one that is not legal, an undefined instruction, and any SVX or LVX instruction while VXS is Off
raise the illegal-instruction exception; a corrected cache error changes nothing; an uncorrectable one poisons both
sectors of its line; the machine timer interrupt is taken where it is enabled. The trap entry is that of the RISC-V
architecture (PRESUMED, log entry 9). -/
def Obligations.CoreControl : Prop :=
  ∀ (s s' : State) (h : Fin 64),
    (∀ (csr : Fin 4096) (kind : Fin 3) (imm : Bool) (rd src : Fin 32) (v : Nat) (u : State), Executes s h 4 s' →
      let write := kind.val = 0 ∨ src.val ≠ 0
      let operand := if imm then src.val else ((s'.core h).xr src).toNat
      let old := u.csrOld h csr v
      let new := if kind.val = 0 then operand else if kind.val = 1 then Nat.lor old operand else old - Nat.land old operand
      ((s'.core h).csrLegal csr (decide write) = true → s'.csrRead h csr = (v, u) →
        Runs (.coreCsrAccess h csr kind imm rd src) s
          (u.modCore h fun c => ((if write then c.csrWrite csr new else c).setX rd (BitVec.ofNat 64 v)).nextPc)) ∧
      ((s'.core h).csrLegal csr (decide write) = false → Runs (.coreCsrAccess h csr kind imm rd src) s (s'.illegal h))) ∧
    (Executes s h 4 s' → Runs (.illegalInstruction h) s (s'.modCore h fun c => c.trap false 2 0)) ∧
    (∀ (sz : Fin 4) (pg : Fin 8) (rd rs1 rs2 : Fin 32) (mf : MemFaults), Executes s h 4 s' → (s.core h).vxs = 0 →
      Runs (.svadd h sz pg rd rs1 rs2) s (s'.illegal h) ∧ Runs (.svfma h sz pg rd rs1 rs2) s (s'.illegal h) ∧
      Runs (.svpop h sz pg rd rs1 rs2) s (s'.illegal h) ∧ Runs (.svld h sz pg rd rs1 rs2 mf) s (s'.illegal h) ∧
      Runs (.lvadd h sz pg rd rs1 rs2) s (s'.illegal h) ∧ Runs (.lvst h sz pg rd rs1 rs2 mf) s (s'.illegal h)) ∧
    (∀ o, Runs (.cacheCe o) s s) ∧
    (∀ a, isHbm (alignDown 64 a) = true → s.userHbmOk (alignDown 64 a) 64 = true → s.tillerRegion (alignDown 64 a) = false →
      Runs (.cacheUe none a) s ({ s with bad := natInsert (natInsert s.bad (alignDown 64 a)) (alignDown 64 a + 32),
                                         cores := s.cores.loseResv (alignDown 64 a) 64 }.setFlag lnAc 2)) ∧
    (s' = { s with timeNs := max s.timeNs (s.core h).mtimecmp.toNat } →
      ((s'.core h).runs = true → s'.pendingIntr h = some 7 → Runs (.machineTimerInterrupt h) s (s'.modCore h fun c => c.trap true 7 0)) ∧
      ((s'.core h).runs = true → s'.pendingIntr h = none → Runs (.machineTimerInterrupt h) s s') ∧
      ((s'.core h).runs = false → Runs (.machineTimerInterrupt h) s s'))

/-- R568 to R573: the SVX arithmetic writes each active element of w[rd] with its result and keeps the others, setting
`fxsat` where one saturated; comparisons and predicate logic write p[rd]; the floating-point ones also accumulate their
flags; SVMV moves between the register files. VXS becomes Dirty, and nothing but the core changes. -/
def Obligations.SvxInstructions : Prop :=
  ∀ (s : State) (h : Fin 64) (sz : Fin 4) (pg : Fin 8) (rd rs1 rs2 : Fin 32), ExecutesVector s h →
    let b := 2 ^ sz.val
    let c := s.core h
    let int := fun (i : Instr) (f : Nat → Nat → Nat → Nat × Bool) =>
      let r := svMap b (c.pr pg) (c.wr rd) (c.wr rs1) (c.wr rs2) (f (8 * b))
      Runs i s (coreDone s h fun c => { c with w := Tbl.set c.w rd r.1, vxs := 3, fxsat := c.fxsat || r.2 })
    let cmp := fun (i : Instr) (f : Nat → Nat → Nat → Bool) => rd.val < 8 →
      Runs i s (coreDone s h fun c => c.setP rd (svCompare b (c.pr pg) (c.wr rs1) (c.wr rs2) (f (8 * b))))
    let flt := fun (i : Instr) (f : RMode → FVal → FVal → FVal → FVal) => ∀ rm, sz.val ≠ 3 → c.frm = some rm →
      let k := if sz.val = 2 then 4 else 2
      let l := szLayout sz
      let at_ := fun (r : W64) (i : Nat) => l.decode (elemAt r.toNat k i)
      let rs := (List.range (8 / k)).map fun i => if activeAt (c.pr pg) k i then l.rnd rm (f rm (at_ (c.wr rs1) i) (at_ (c.wr rs2) i) (at_ (c.wr rd) i))
        else (elemAt (c.wr rd).toNat k i, FFlags.none)
      Runs i s (coreDone s h fun c => (c.setW rd (BitVec.ofNat 64 (ofElems k (rs.map (·.1))))).raise (flagsOr (rs.map (·.2))))
    int (.svadd h sz pg rd rs1 rs2) (fun n a b => ((a + b) % 2 ^ n, false)) ∧
    int (.svsub h sz pg rd rs1 rs2) (fun n a b => ((a + 2 ^ n - b) % 2 ^ n, false)) ∧
    int (.svadds h sz pg rd rs1 rs2) (fun n a b => satSigned n (toSigned n a + toSigned n b)) ∧
    int (.svaddsu h sz pg rd rs1 rs2) (fun n a b => satUnsigned n ((a : Int) + b)) ∧
    int (.svsubs h sz pg rd rs1 rs2) (fun n a b => satSigned n (toSigned n a - toSigned n b)) ∧
    int (.svsubsu h sz pg rd rs1 rs2) (fun n a b => satUnsigned n ((a : Int) - b)) ∧
    int (.svmul h sz pg rd rs1 rs2) (fun n a b => (a * b % 2 ^ n, false)) ∧
    int (.svmulhr h sz pg rd rs1 rs2) (fun n a b => satSigned n (fxRound c.fxrm (toSigned n a * toSigned n b) (n - 1))) ∧
    int (.svsrar h sz pg rd rs1 rs2) (fun n a b => (ofSigned n (fxRound c.fxrm (toSigned n a) (b % n)), false)) ∧
    int (.svslls h sz pg rd rs1 rs2) (fun n a b => satSigned n (toSigned n a * 2 ^ (b % n))) ∧
    int (.svsll h sz pg rd rs1 rs2) (fun n a b => (a * 2 ^ (b % n) % 2 ^ n, false)) ∧
    int (.svsrl h sz pg rd rs1 rs2) (fun n a b => (a / 2 ^ (b % n) % 2 ^ n, false)) ∧
    int (.svsra h sz pg rd rs1 rs2) (fun n a b => (ofSigned n (toSigned n a / 2 ^ (b % n)), false)) ∧
    int (.svmin h sz pg rd rs1 rs2) (fun n a b => (if toSigned n a ≤ toSigned n b then a else b, false)) ∧
    int (.svmax h sz pg rd rs1 rs2) (fun n a b => (if toSigned n a ≤ toSigned n b then b else a, false)) ∧
    int (.svminu h sz pg rd rs1 rs2) (fun _ a b => (min a b, false)) ∧ int (.svmaxu h sz pg rd rs1 rs2) (fun _ a b => (max a b, false)) ∧
    int (.svand h sz pg rd rs1 rs2) (fun _ a b => (Nat.land a b, false)) ∧ int (.svor h sz pg rd rs1 rs2) (fun _ a b => (Nat.lor a b, false)) ∧
    int (.svxor h sz pg rd rs1 rs2) (fun _ a b => (Nat.xor a b, false)) ∧
    int (.svavgr h sz pg rd rs1 rs2) (fun n a b => (ofSigned n (fxRound c.fxrm (toSigned n a + toSigned n b) 1), false)) ∧
    cmp (.svcmpeq h sz pg rd rs1 rs2) (fun _ a b => a == b) ∧
    cmp (.svcmplt h sz pg rd rs1 rs2) (fun n a b => decide (toSigned n a < toSigned n b)) ∧
    cmp (.svcmpltu h sz pg rd rs1 rs2) (fun _ a b => decide (a < b)) ∧
    flt (.svfadd h sz pg rd rs1 rs2) (fun rm a b _ => FVal.add rm a b) ∧ flt (.svfmul h sz pg rd rs1 rs2) (fun _ a b _ => FVal.mul a b) ∧
    flt (.svfma h sz pg rd rs1 rs2) (fun rm a b d => FVal.fma rm a b d) ∧
    Runs (.svsel h sz pg rd rs1 rs2) s (coreDone s h fun c => c.setW rd (BitVec.ofNat 64 (ofElems b ((List.range (8 / b)).map fun i =>
      elemAt (if activeAt (c.pr pg) b i then c.wr rs1 else c.wr rs2).toNat b i)))) ∧
    (pg.val = 0 → sz.val = 0 →
      (rs2.val = 0 → Runs (.svmv h sz pg rd rs1 rs2) s (coreDone s h fun c => c.setW rd (c.xr rs1))) ∧
      (rs2.val = 1 → Runs (.svmv h sz pg rd rs1 rs2) s (coreDone s h fun c => c.setX rd (c.wr rs1))) ∧
      (rs2.val = 2 → rd.val < 8 → Runs (.svmv h sz pg rd rs1 rs2) s (coreDone s h fun c => c.setP rd (BitVec.ofNat 8 (c.xr rs1).toNat))) ∧
      (rs2.val = 3 → rs1.val < 8 → Runs (.svmv h sz pg rd rs1 rs2) s (coreDone s h fun c => c.setX rd (BitVec.ofNat 64 (c.pr rs1).toNat)))) ∧
    (pg.val = 0 → rd.val < 8 → rs1.val < 8 → rs2.val < 8 → Runs (.svpop h sz pg rd rs1 rs2) s (coreDone s h fun c => c.setP rd
      (if sz.val = 0 then c.pr rs1 &&& c.pr rs2 else if sz.val = 1 then c.pr rs1 ||| c.pr rs2 else if sz.val = 2 then c.pr rs1 ^^^ c.pr rs2
       else c.pr rs1 &&& ~~~ c.pr rs2)))

/-- R574 to R583: the LVX arithmetic writes every element of q[rd] and accumulates its floating-point flags; inserts,
extracts and splats move between q and x registers; the vector loads and stores read or write the active or all bytes of
their register, aligned to their size; a first-fault load of elements that all answer writes them all. -/
def Obligations.LvxAndVectorMemory : Prop :=
  ∀ (s s' : State) (h : Fin 64) (sz : Fin 4) (rm pg : Fin 8) (rd rs1 rs2 : Fin 32) (mf : MemFaults), ExecutesVector s h → Executes s h 4 s' →
    let c := s.core h
    let a := c.sumAddr rs1 rs2
    let b := lvBytes sz
    let flt := fun (i : Instr) (f : RMode → FLayout → Nat → Nat → Nat → Nat × FFlags) => ∀ r, c.rounding rm = some r →
      Runs i s (coreDone s h fun c => c.lvFloat sz rd rs1 rs2 (f r))
    let int := fun (i : Instr) (f : Nat → Nat → Nat → Nat) => rm.val = 0 → Runs i s (coreDone s h fun c => c.setQ rd (BitVec.ofNat 128
      (ofElems b ((List.range (16 / b)).map fun i => f (8 * b) (elemAt (c.qr rs1).toNat b i) (elemAt (c.qr rs2).toNat b i)))))
    flt (.lvfadd h sz rm rd rs1 rs2) (fun r l a b _ => l.rnd r (FVal.add r (l.decode a) (l.decode b))) ∧
    flt (.lvfsub h sz rm rd rs1 rs2) (fun r l a b _ => l.rnd r (FVal.add r (l.decode a) (l.decode b).neg)) ∧
    flt (.lvfmul h sz rm rd rs1 rs2) (fun r l a b _ => l.rnd r (FVal.mul (l.decode a) (l.decode b))) ∧
    flt (.lvfma h sz rm rd rs1 rs2) (fun r l a b d => l.rnd r (FVal.fma r (l.decode a) (l.decode b) (l.decode d))) ∧
    flt (.lvfnms h sz rm rd rs1 rs2) (fun r l a b d => l.rnd r (FVal.fma r (l.decode a).neg (l.decode b) (l.decode d))) ∧
    flt (.lvfdiv h sz rm rd rs1 rs2) (fun r l a b _ => l.div r (l.decode a) (l.decode b)) ∧
    (rs2.val = 0 → flt (.lvfsqrt h sz rm rd rs1 rs2) (fun r l a _ _ => l.sqrt r (l.decode a))) ∧
    (rm.val = 0 → Runs (.lvfmin h sz rm rd rs1 rs2) s (coreDone s h fun c => c.lvFloat sz rd rs1 rs2 fun l a b _ => l.maxMin false a b)) ∧
    (rm.val = 0 → Runs (.lvfmax h sz rm rd rs1 rs2) s (coreDone s h fun c => c.lvFloat sz rd rs1 rs2 fun l a b _ => l.maxMin true a b)) ∧
    (∀ r, rs2.val = 0 → c.rounding rm = some r →
      let k := lvFBytes sz
      let x := treeSum r (szLayout sz) 3 ((List.range (16 / k)).map fun i => elemAt (c.qr rs1).toNat k i) FFlags.none
      Runs (.lvfsum h sz rm rd rs1 rs2) s (coreDone s h fun c => (c.setQ rd (BitVec.ofNat 128 x.1)).raise x.2)) ∧
    (∀ r, rs2.val < 4 → c.rounding rm = some r →
      let rs := (List.range (min (16 / lvFBytes rs2) (16 / lvFBytes sz))).map fun i =>
        (szLayout sz).rnd r ((szLayout rs2).decode (elemAt (c.qr rs1).toNat (lvFBytes rs2) i))
      Runs (.lvfcvt h sz rm rd rs1 rs2) s (coreDone s h fun c =>
        (c.setQ rd (BitVec.ofNat 128 (ofElems (lvFBytes sz) (rs.map (·.1))))).raise (flagsOr (rs.map (·.2))))) ∧
    int (.lvadd h sz rm rd rs1 rs2) (fun n a b => (a + b) % 2 ^ n) ∧ int (.lvsub h sz rm rd rs1 rs2) (fun n a b => (a + 2 ^ n - b) % 2 ^ n) ∧
    int (.lvand h sz rm rd rs1 rs2) (fun _ a b => Nat.land a b) ∧ int (.lvor h sz rm rd rs1 rs2) (fun _ a b => Nat.lor a b) ∧
    int (.lvxor h sz rm rd rs1 rs2) (fun _ a b => Nat.xor a b) ∧
    (rm.val = 0 →
      let k := (c.xr rs2).toNat % (16 / b)
      Runs (.lvins h sz rm rd rs1 rs2) s (coreDone s h fun c => c.setQ rd (BitVec.ofNat 128 (ofElems b ((List.range (16 / b)).map fun i =>
        if i = k then (c.xr rs1).toNat else elemAt (c.qr rd).toNat b i)))) ∧
      Runs (.lvext h sz rm rd rs1 rs2) s (coreDone s h fun c => c.setX rd (extendN b true (elemAt (c.qr rs1).toNat b k))) ∧
      (rs2.val = 0 → Runs (.lvsplat h sz rm rd rs1 rs2) s (coreDone s h fun c =>
        c.setQ rd (BitVec.ofNat 128 (ofElems b ((List.range (16 / b)).map fun _ => (c.xr rs1).toNat))))) ∧
      (a % 16 = 0 → Runs (.lvld h sz rm rd rs1 rs2 mf) s (s'.coreLoad mf h a 16 false 3 rd 0) ∧
        Runs (.lvst h sz rm rd rs1 rs2 mf) s (s'.coreStore mf h a 16 [(0, leBytes 16 (c.qr rd).toNat)])) ∧
      (∀ els v u, a % b = 0 → s'.firstElems mf h b ((List.range (16 / b)).map fun i => (a + i * b) % 2 ^ 64) = (els, none, u) →
        els ≠ [] → (els.all fun e => e.2.2.isSome) = true → v = els.filterMap (fun e => e.2.2) →
        Runs (.lvldff h sz rm rd rs1 rs2 mf) s (u.modCore h fun c => ({ c.setQ rd (packElems b v) with lvffc := v.length }).nextPc))) ∧
    (c.pr pg ≠ 0 → a % 8 = 0 → Runs (.svld h sz pg rd rs1 rs2 mf) s (s'.coreLoad mf h a 8 false 2 rd (c.pr pg).toNat) ∧
      Runs (.svst h sz pg rd rs1 rs2 mf) s (s'.coreStore mf h a 8 (activeRuns (c.pr pg) (c.wr rd)))) ∧
    (c.pr pg = 0 → Runs (.svld h sz pg rd rs1 rs2 mf) s (coreDone s h fun c => { c with vxs := 3 }) ∧
      Runs (.svst h sz pg rd rs1 rs2 mf) s (coreDone s h id))


/-! ### Registers (R18 to R23, R653 to R657, R955 to R987) -/

/-- R653 to R657: each operation of a core's counter port on a counter of the core's partition: the result is the
counter's prior value, and ADD, SET and CAS change the counter, ARM and DISARM the comparison that the core waits for; on
a counter of another partition the result is 0 and PORT_ERR is set. A read of the result's low half answers it and
latches the high half. R47: where the memory island that holds the ports has stopped, each is refused with an access fault. -/
def Obligations.CounterPorts : Prop :=
  ∀ (s : State) (t : Fin 4) (h : Fin 64), (s.core h).runs = true →
    let p := s.ctPort t h
    let n := t * 32768 + p.num
    let done := fun (op : Nat) => s.modCtPort t h fun p => { p with op := op, res := s.ctr n }
    let refused := fun (op : Nat) => (s.modCtPort t h fun p => { p with op := op, res := 0 }).setFlag (lnCt t) fCtPort
    let armed := (done 4).modTile t fun x => { x with ctArmed := Tbl.set x.ctArmed h (n, p.opnd) }
    (s.hcStopped t = false → s.ownsCtr (s.core h).spart n = true →
      Runs (.ctPortRead t h) s (done 0) ∧ Runs (.ctPortAdd t h) s ((done 1).ctrAdd n p.opnd) ∧
      Runs (.ctPortSet t h) s ((done 2).ctrSet n p.opnd) ∧
      Runs (.ctPortCas t h) s (if s.ctr n = p.cmp then (done 3).ctrSet n p.opnd else done 3) ∧
      Runs (.ctPortArm t h) s (if p.opnd ≤ s.ctr n then armed.ctFire t h else armed) ∧
      Runs (.ctPortDisarm t h) s ((done 5).modTile t fun x => { x with ctArmed := Tbl.erase x.ctArmed h })) ∧
    (s.hcStopped t = false → s.ownsCtr (s.core h).spart n = false →
      Runs (.ctPortRead t h) s (refused 0) ∧ Runs (.ctPortAdd t h) s (refused 1) ∧ Runs (.ctPortSet t h) s (refused 2) ∧
      Runs (.ctPortCas t h) s (refused 3) ∧ Runs (.ctPortArm t h) s (refused 4) ∧ Runs (.ctPortDisarm t h) s (refused 5)) ∧
    (s.hcStopped t = false → Runs (.ctPResLoRead t h) s
      ((s.modCtPort t h fun p => { p with resHiLatch := BitVec.ofNat 32 (p.res.toNat / 2 ^ 32), latched := true }).emit
        (.regRead (ctBase t + 0x1018 + 32 * h) (BitVec.ofNat 32 (p.res.toNat % 2 ^ 32))))) ∧
    (s.hcStopped t = true →
      let refuse := s.regRefuse (.core h) true (ctBase t + 0x1004 + 32 * h) reasonIsland
      Runs (.ctPortRead t h) s refuse ∧ Runs (.ctPortAdd t h) s refuse ∧ Runs (.ctPortSet t h) s refuse ∧
      Runs (.ctPortCas t h) s refuse ∧ Runs (.ctPortArm t h) s refuse ∧ Runs (.ctPortDisarm t h) s refuse ∧
      Runs (.ctPResLoRead t h) s (s.regRefuse (.core h) false (ctBase t + 0x1018 + 32 * h) reasonIsland))

/-- R961, R653: a read of a flag register answers its flags and clears them, and so does a read of the hit bits; the
blocks of an island out of service, and a mailbox that is not the reader's, do not answer so. -/
def Obligations.FlagReads : Prop :=
  ∀ (s : State) (m : Master), s.masterRuns m = true →
    let reads := fun (c : Instr) (ln a : Nat) => Runs c s ((s.setFlags ln 0).emit (.regRead a (s.flagsOf ln)))
    (∀ t : Fin 4, (s.tile t).inService = true →
      (∀ a : Fin 4, reads (.maFlagsRead m t a) (lnArray t a) (arrayBase t a + 0xC)) ∧
      reads (.veFlagsRead m t) (lnVe t) (veBase t + 0xC) ∧ reads (.sqFlagsRead m t) (lnSq t) (sqBase t + 0xC)) ∧
    (∀ k : Fin 8, reads (.hcFlagsRead m k) (lnHc k) (hcBase k + 0xC)) ∧
    (∀ t : Fin 4, reads (.wvFlagsRead m t) (lnWv t) (wvBase t + 4)) ∧
    (∀ t : Fin 4, s.hcStopped t = false → reads (.ctFlagsRead m t) (lnCt t) (ctBase t + 4) ∧
      (let h := (s.tile t).ctHit.toNat
       Runs (.ctHitRead m t false) s ((s.modTile t fun x => { x with ctHit := BitVec.ofNat 64 (x.ctHit.toNat / 2 ^ 32 * 2 ^ 32) }).emit
         (.regRead (ctBase t + 8) (BitVec.ofNat 32 h))) ∧
       Runs (.ctHitRead m t true) s ((s.modTile t fun x => { x with ctHit := BitVec.ofNat 64 (x.ctHit.toNat % 2 ^ 32) }).emit
         (.regRead (ctBase t + 0xC) (BitVec.ofNat 32 (h / 2 ^ 32)))))) ∧
    (∀ k : Fin 24, reads (.opFlagsRead m k) (lnOp k) (opBase k + 0xC)) ∧
    (∀ mb : Fin 64, s.ownsMbox m mb = true → reads (.mbFlagsRead m mb) (lnMb mb) (mbBase mb + 8)) ∧
    reads (.acFlagsRead m) lnAc (acBase + 0xC) ∧ reads (.dmFlagsRead m) lnDm (dmBase + 8) ∧ reads (.xpFlagsRead m) lnXp (xpBase + 4) ∧
    reads (.lsFlagsRead m) lnLs (lsBase + 8) ∧ reads (.plFlagsRead m) lnPl (plBase + 8) ∧ reads (.rkFlagsRead m) lnRk (rkBase + 4) ∧
    reads (.hkFlagsRead m) lnHk (hkBase + 4) ∧ reads (.stFlagsRead m) lnSt (stBase + 8) ∧ reads (.idFlagsRead m) lnId (idBase + 0x1C) ∧
    reads (.flFlagsRead m) lnFl (flBase + 4) ∧ reads (.ckFlagsRead m) lnCk (ckBase + 8) ∧ reads (.pwFlagsRead m) lnPw (pwBase + 8)

/-- R966, R969, R987: a read of a DATA register answers the word that its index names, and with AUTOINC the index
advances; a read of the low half of a 64-bit register latches the high half; a read of a pending word answers the
pending bits of the reader's rings and clears those. -/
def Obligations.DataReads : Prop :=
  ∀ (s : State) (m : Master), s.masterRuns m = true →
    let answers := fun (c : Instr) (u : State) (a v : Nat) => Runs c s (u.emit (.regRead a (BitVec.ofNat 32 v)))
    let word := fun (c : Instr) (b : Blk) (i : IndexReg) (base : Nat) (v : Nat → Nat) =>
      answers c (s.autoInc b i) (base + i.data) (v (s.idx b i))
    (∀ t : Fin 4, (s.tile t).inService = true →
      (∀ a : Fin 4, s.idx (.array t a) ⟨0x40, 0x50, 0, 10, false⟩ < 641 →
        word (.maRepairDataRead m t a) (.array t a) ⟨0x40, 0x50, 0, 10, false⟩ (arrayBase t a) (s.arr t a).phys) ∧
      (let e := s.idx (.sq t) ⟨0x18, 0x1C, 0, 18, true⟩
       (e / 4 % 8 ≠ 6 → word (.sqRingDataRead m t) (.sq t) ⟨0x18, 0x1C, 0, 18, true⟩ (sqBase t) (s.ringWord t)) ∧
       (e / 4 % 8 = 6 → answers (.sqRingDataRead m t)
         ((s.modRing t (e / 32) fun x => { x with refusedTail := false }).autoInc (.sq t) ⟨0x18, 0x1C, 0, 18, true⟩) (sqBase t + 0x1C)
           (s.ringWord t e))) ∧
      word (.sqCtxDataRead m t) (.sq t) ⟨0x20, 0x24, 1, 11, true⟩ (sqBase t) (s.ctxWord t)) ∧
    (∀ k : Fin 8, word (.hcRegDataRead m k) (.hc k) ⟨0x28, 0x2C, 0, 8, true⟩ (hcBase k) (s.regWord k) ∧
      word (.hcRepairDataRead m k) (.hc k) ⟨0x40, 0x44, 1, 12, false⟩ (hcBase k) (s.bankWord k) ∧
      answers (.hcLastUeLoRead m k) (s.latch (lnHc k) ((s.stack k).lastUe / 2 ^ 32 % 16)) (hcBase k + 0x1C) ((s.stack k).lastUe)) ∧
    (∀ t : Fin 4, word (.wvDataRead m t) (.wv t) ⟨8, 0xC, 0, 13, true⟩ (wvBase t) (s.viewWord t) ∧
      (∀ w : Fin 256, s.hcStopped t = false → let now := (Tbl.get 0 (s.tile t).rpend w).toNat
        let mine := bitsOf 32 fun i => bitN now i && s.ownsRing m t (32 * w + i)
        answers (.dbRpendRead m t w) (s.modTile t fun x => { x with rpend := Tbl.set x.rpend w (BitVec.ofNat 32 (now - mine)) })
          (rpBase t + 4 * w) mine)) ∧
    (∀ k : Fin 24, s.idx (.op k) ⟨0x28, 0x2C, 0, 9, true⟩ / 16 < 18 →
      word (.opLaneDataRead m k) (.op k) ⟨0x28, 0x2C, 0, 9, true⟩ (opBase k) (s.laneWord k)) ∧
    word (.acCohDataRead m) .ac ⟨0x10, 0x14, 0, 13, false⟩ acBase (fun e => (Tbl.get 0 s.cores.coh e).toNat) ∧
    word (.acCoreDataRead m) .ac ⟨0x18, 0x1C, 1, 6, false⟩ acBase s.coreWord ∧
    word (.dmSlotDataRead m) .dm ⟨0x18, 0x1C, 0, 10, true⟩ dmBase s.slotWord ∧
    word (.xpConnDataRead m) .xp ⟨0x10, 0x14, 0, 20, true⟩ xpBase s.connWord ∧
    (s.idx .ls ⟨0x10, 0x14, 0, 9, true⟩ / 64 ≠ 7 → word (.lsDataRead m) .ls ⟨0x10, 0x14, 0, 9, true⟩ lsBase s.lsWord) ∧
    (s.idx .pl ⟨0xC, 0x10, 0, 9, false⟩ < 288 → word (.plTblDataRead m) .pl ⟨0xC, 0x10, 0, 9, false⟩ plBase s.tblWord) ∧
    (let e := s.idx .rk ⟨8, 0xC, 0, 6, true⟩
     let key := s.reproKey (e / 8)
     (e / 4 % 2 = 0 → answers (.rkDataRead m) ((s.latch (1000 + e / 8) (key / 2 ^ 32)).autoInc .rk ⟨8, 0xC, 0, 6, true⟩) (rkBase + 0xC)
       (key % 2 ^ 32)) ∧
     (e / 4 % 2 ≠ 0 → answers (.rkDataRead m) (s.autoInc .rk ⟨8, 0xC, 0, 6, true⟩) (rkBase + 0xC) (s.latched (1000 + e / 8) (key / 2 ^ 32)))) ∧
    word (.hkDataRead m) .hk ⟨8, 0xC, 0, 8, true⟩ hkBase s.huskWord ∧ word (.stDataRead m) .st ⟨0xC, 0x10, 0, 5, true⟩ stBase s.startWord ∧
    word (.flDataRead m) .fl ⟨0x18, 0x1C, 0, 6, true⟩ flBase s.faultWord ∧
    word (.ckDataRead m) .ck ⟨0xC, 0x10, 0, 6, true⟩ ckBase s.cricketWord ∧
    word (.pwDataRead m) .pw ⟨0xC, 0x10, 0, 6, true⟩ pwBase s.powerWord ∧
    word (.icLineDataAccess m none) .ic ⟨0, 4, 0, 11, true⟩ icBase s.lineWord ∧
    answers (.acMtimeLoRead m) (s.latch lnAc (s.timeNs / 2 ^ 32 % 2 ^ 32)) (acBase + 0x3000) s.timeNs ∧
    answers (.idSerialLoRead m) (s.latch lnId (s.start.serial.toNat / 2 ^ 32)) (idBase + 0x10) s.start.serial.toNat ∧
    answers (.flNewestLoRead m) (s.latch lnFl ((s.log.nextNumber - 1) / 2 ^ 32 % 2 ^ 32)) (flBase + 0x10) (s.log.nextNumber - 1)

/-- R362, R982 to R984: a TAIL offered by a master of the ring's partition is taken, or refused with RING_REFUSED where the
ring is rung by a counter; a CHEAD ahead of CTAIL sets CFG_ERR and changes no ring. R174, R958, R965, R979: the repair map,
the scrub configuration and a line's route are written by a master that may, with SET, CLR and TGL over the old value;
R592: a write to the coherence bitmap keeps the bits of regions beyond HBM. R955, R960: an address that is not aligned, or
in no register block, is refused; R47: so is a doorbell whose memory island has stopped. -/
def Obligations.RegisterWrites : Prop :=
  ∀ (s : State) (m : Master) (v : W32), s.masterRuns m = true →
    (∀ (t : Fin 4) (r : Fin 8192), s.hcStopped t = false →
      let x := s.ring t r
      (s.ownsRing m t r = true →
        (x.dbctrEn = false → Runs (.dbTailWrite m t r v) s (s.offerTail t r v)) ∧
        (x.dbctrEn = true → Runs (.dbTailWrite m t r v) s ((s.modRing t r fun x => { x with refusedTail := true }).setFlag (lnSq t) fSqRing)) ∧
        ((v - x.chead).toNat ≤ (x.ctail - x.chead).toNat → Runs (.dbCheadWrite m t r v) s (s.modRing t r fun x => { x with chead := v })) ∧
        ((x.ctail - x.chead).toNat < (v - x.chead).toNat → Runs (.dbCheadWrite m t r v) s (s.setFlag (lnSq t) fSqCfg))) ∧
      (s.ownsRing m t r = false → Runs (.dbTailWrite m t r v) s s ∧ Runs (.dbCheadWrite m t r v) s s)) ∧
    (∀ (t : Fin 4) (r : Fin 8192), s.hcStopped t = true →
      Runs (.dbTailWrite m t r v) s (s.regRefuse m true (dbBase t + 8 * r) reasonIsland) ∧
      Runs (.dbCheadWrite m t r v) s (s.regRefuse m true (dbBase t + 8 * r + 4) reasonIsland)) ∧
    (∀ t a kind : Fin 4, (s.tile t).inService = true →
      let i : IndexReg := ⟨0x40, 0x50, 0, 10, false⟩
      let e := s.idx (.array t a) i
      (s.privileged m = true → e < 641 → Runs (.maRepairDataWrite m t a kind v) s
        ((s.mapWrite t a e (aliasValue 10 ((s.arr t a).phys e) kind v.toNat)).autoInc (.array t a) i)) ∧
      (s.privileged m = false → Runs (.maRepairDataWrite m t a kind v) s ((s.setFlag lnId fIdPriv).autoInc (.array t a) i))) ∧
    (∀ (k : Fin 8) (kind : Fin 4),
      let x := s.stack k
      let n := aliasValue 9 (bit x.scrubEnable 8 + x.scrubPeriod % 256) kind v.toNat
      (s.privileged m = true → 0 < n % 256 → n % 256 ≤ 168 → Runs (.hcScrubCfgWrite m k kind v) s
        (s.modStack k fun x => { x with scrubEnable := bitN n 8, scrubPeriod := n % 256 })) ∧
      (s.privileged m = false → Runs (.hcScrubCfgWrite m k kind v) s (s.setFlag lnId fIdPriv))) ∧
    (∀ i, i = IndexReg.mk 0 4 0 11 true → s.idx .ic i / 8 < 144 → s.idx .ic i / 4 % 2 = 0 → v.toNat < 0x4000 → v.toNat / 4 % 64 = 0 →
      Runs (.icLineDataAccess m (some v)) s
        ({ s with regs := { s.regs with route := Tbl.set s.regs.route (s.idx .ic i / 8) v } }.autoInc .ic i)) ∧
    (let w := s.idx .ac ⟨0x10, 0x14, 0, 13, false⟩
     (∀ i < 32, (32 * w + i) * 0x200000 < s.hbmEnd) → Runs (.acCohDataWrite m v) s
       ({ s with cores := { s.cores with coh := Tbl.set s.cores.coh w v } }.autoInc .ac ⟨0x10, 0x14, 0, 13, false⟩)) ∧
    (∀ mb : Fin 64, s.ownsMbox m mb = true → Runs (.registerWrite m (mbBase mb) v) s (s.ringDoorbell mb (v.toNat % 65536))) ∧
    (∀ a, a % 4 = 0 → blockAt a = none → Runs (.registerWrite m a v) s ((s.setFlag lnId fIdHole).regRefuse m true a reasonHole)) ∧
    (∀ (h : Fin 64) a, m = .core h → a % 4 ≠ 0 → Runs (.registerWrite m a v) s (s.coreTrap h 6 (BitVec.ofNat 64 a)))


/-! ### The Cricket segment (R1025 to R1060) -/

/-- R1033 to R1056: beacons count, echo, calibrate rack time and move the port from SEARCH to JOINING, to MEMBER and to
MUTED and back; missed beacons mute it; the member's slot sends one burst with the health summary; a join slot sends a
JOIN, repeated at a drawn frame; ASSIGN, PLACE, mailbox commands, returned records, OFFSET, RELEASE, PINNED_ACK and the
time limits act on the member's state; bad and second bursts are counted; the fibre going out or in restarts the search. -/
def Obligations.CricketSegment : Prop :=
  ∀ s : State,
    let c := s.cricket
    let got := fun (frame : Nat) (diff : Int) =>
      (s.ckCount 0 1).modCk fun c => { c with frame := frame, missed := 0, offset := none, lastErr := diff }
    (∀ frame time echo diff, frame < 2 ^ 64 → c.offset = none →
      (c.inFlight = none → c.st = 0 →
        (c.seen = 0 → Runs (.beacon frame time echo diff) s ((got frame diff).modCk fun c => { c with seen := 1 })) ∧
        (c.seen = 1 → Runs (.beacon frame time echo diff) s (((got frame diff).modCk fun c => { c with seen := 0 }).setCkSt 1))) ∧
      (c.inFlight = none → c.st = 3 → c.agree = 1 → diff.natAbs ≤ 50 →
        Runs (.beacon frame time echo diff) s (((got frame diff).modCk fun c => { c with agree := 2 }).setCkSt c.workSt)) ∧
      (c.inFlight = none → c.st = 1 ∨ c.st = 2 → 250 < diff.natAbs → Runs (.beacon frame time echo diff) s (got frame diff).ckMute) ∧
      (c.inFlight = none → c.st = 1 → c.assigned = true → diff.natAbs ≤ 250 → Runs (.beacon frame time echo diff) s
        ((((got frame diff).modCk fun c => { c with assigned := false }).setCkSt 2).rackTime time)) ∧
      (c.st = 2 → c.assigned = false → diff.natAbs ≤ 250 → c.inFlight ≠ none →
        (bitN echo c.sentSlot = true → Runs (.beacon frame time echo diff) s (((got frame diff).modCk fun c => { c with inFlight := none }).rackTime time)) ∧
        (bitN echo c.sentSlot = false → Runs (.beacon frame time echo diff) s ((got frame diff).ckRetry.rackTime time)))) ∧
    (let missed := ((s.ckCount 1 1).modCk fun c => { c with missed := c.missed + 1, seen := 0, agree := 0 }).ckRetry
     (c.st ≠ 4 → c.missed < 3 → Runs .beaconMiss s missed) ∧ (c.st = 1 ∨ c.st = 2 → 3 ≤ c.missed → Runs .beaconMiss s missed.ckMute)) ∧
    (∀ m, c.member = some m → c.st = 2 → s.ckSilent = false →
      Runs .memberSlot s (((s.nextBurst).2.modCk fun c => { c with inFlight := some s.nextBurst.1, sentSlot := m }).emit
        (.burst s.nextBurst.1.kind m (leBytes 8 s.healthSummary ++ s.nextBurst.1.body)))) ∧
    (c.st = 1 → c.assigned = false → c.joinSent = none → (∀ f, c.joinFrame = some f → f ≤ c.frame) → s.ckSilent = false →
      Runs .joinSlot s ((s.modCk fun c => { c with joinSent := some c.frame, joinFrame := none }).emit
        (.burst 0x05 0 (leBytes 8 s.start.serial.toNat)))) ∧
    (c.st = 1 → c.joinSent ≠ none → ∃ k, k < 16 ∧ Runs .joinRetry s
      { s.modCk fun c => { c with joinSent := none, joinFrame := some (c.frame + 1 + k) } with freeCtr := s.freeCtr + 1 }) ∧
    (∀ m d a, c.st = 1 → d < 2 ^ 32 → a < 2 ^ 32 → Runs (.assign s.start.serial m d a) s (s.modCk fun c =>
      { c with member := some m.val, delay := d, advance := a, assigned := true, joinSent := none, joinFrame := none })) ∧
    (c.member ≠ none →
      (∀ p site, Runs (.place p site) s (s.modStart fun x => { x with placeGiven := some (p.val, site.val) })) ∧
      (∀ seq data, data.length ≤ 672 → c.mailIn = none → (s.mbox 57).st ≠ 1 →
        Runs (.mailbox seq 0 1 data) s (((s.modCk fun c => { c with mailIn := none }).poke (mbBase 57 + 0x40) (data.take 1984)).ringDoorbell 57 seq.val)) ∧
      (∀ seq data, data.length ≤ 672 → c.mailIn = none →
        Runs (.mailbox seq 0 2 data) s (s.modCk fun c => { c with mailIn := some (seq.val, 2, 1, data) })) ∧
      Runs (.pinnedReturn 0 0 []) s (s.modCk fun c => { c with returnDone := true, pinnedIn := [] }) ∧
      (∀ data, data ≠ [] → Runs (.pinnedReturn 0 1 data) s (s.modCk fun c => { c with returned := c.returned ++ [data], pinnedIn := [] })) ∧
      (∀ ns, c.offset = none → Runs (.offset ns) s (s.modCk fun c => { c with shift := c.shift - ns, offset := some ns }))) ∧
    (c.st = 2 ∨ c.st = 3 → Runs .release s s.ckRejoin) ∧ (c.st = 3 → Runs .muteTimeout s s.ckRejoin) ∧
    (∀ q : Fin 65536, Runs (.pinnedAck q) s (s.modCk fun c => { c with pinned := c.pinned.filter fun p => p.seq != q.val })) ∧
    Runs .pinnedResend s (s.modCk fun c => { c with pinned := c.pinned.map fun p => { p with due := true } }) ∧
    (c.st ≠ 4 → Runs (.cricketBurst false none) s (s.ckErr 2) ∧ Runs (.cricketBurst false (some false)) s (s.ckErr 4) ∧
      (∀ ok, Runs (.cricketBurst ok (some true)) s (s.ckErr 3)) ∧ Runs (.cricketBurst true none) s s) ∧
    (s.optics.cricketFibre = true → Runs .cricketFibreOut s
      ((({ s with optics := { s.optics with cricketFibre := false } }.setFlag lnLs 1).ckRetry.modCk fun c =>
        { c with member := none, assigned := false, joinSent := none, joinFrame := none, seen := 0, missed := 0, mailIn := none,
                 pinnedIn := [] }).setCkSt 4)) ∧
    (s.optics.cricketFibre = false → c.st = 4 →
      let u := ({ s with optics := { s.optics with cricketFibre := true } }.mated 30).setFlag lnLs 1
      u.cricket.st = 4 → Runs .cricketFibreIn s ((u.modCk fun c => { c with seen := 0, missed := 0 }).setCkSt 0))


/-! ### Sunas (R922 to R954) -/

/-- R936: a command is performed only when its turn has come; R929 to R934, R938: one from a mailbox that may not issue it,
or that names another partition, is answered S_DENIED and changes nothing else. STATUS stands for all: the same holds of
every command of the table. -/
def Obligations.MailboxTurns : Prop :=
  ∀ (s : State) (m : Fin 64) (peer : List Export) (o : Observed),
    let rows : List (Instr × CmdSpec) :=
      [(.status m, kStatus), (.nodeReady m, kNodeReady), (.restart m, kRestart), (.coreStart m, kCoreStart), (.join m, kJoin),
       (.placeSet m, kPlaceSet), (.notifySet m, kNotifySet), (.partSet m, kPartSet), (.partStart m, kPartStart), (.partStop m, kPartStop),
       (.partReset m, kPartReset), (.keySet m, kKeySet), (.keyGet m, kKeyGet), (.memInterleave m, kMemInterleave),
       (.memRegulator m, kMemRegulator), (.memBlockMode m, kMemBlockMode), (.memUeLimit m, kMemUeLimit), (.memScrub m, kMemScrub),
       (.rowAck m, kRowAck), (.retireRead m, kRetireRead), (.portRoles m, kPortRoles), (.laneLimit m, kLaneLimit)] ++
      [(.portRetrain m, kPortRetrain), (.laserEvacuate m, kLaserEvacuate), (.tableSet m peer, kTableSet), (.exportSet m, kExportSet),
       (.replicaSet m, kReplicaSet), (.domainTimeout m, kDomainTimeout), (.windowSet m, kWindowSet), (.connOpen m, kConnOpen),
       (.connClose m, kConnClose), (.connTimeout m, kConnTimeout), (.viewSet m, kViewSet), (.viewCounts m, kViewCounts),
       (.huskConfig m, kHuskConfig), (.huskFreeze m, kHuskFreeze), (.huskAbandon m, kHuskAbandon), (.huskCommit m, kHuskCommit),
       (.huskRollback m, kHuskRollback), (.huskRestore m, kHuskRestore), (.ringSet m, kRingSet), (.groupSet m, kGroupSet),
       (.groupReset m, kGroupReset)] ++
      [(.sensors m, kSensors), (.tillerCap m, kTillerCap), (.tillerState m o, kTillerState), (.fwInfo m, kFwInfo), (.fwWrite m o, kFwWrite),
       (.fwVerify m o, kFwVerify), (.fwActivate m, kFwActivate), (.fwCommit m, kFwCommit), (.ucodeApply m, kUcodeApply),
       (.logInfo m, kLogInfo), (.logRead m, kLogRead), (.hbm1500 m o, kHbm1500), (.hbmBist m o, kHbmBist), (.hbmModereg m o, kHbmModereg),
       (.hbmRepair m o, kHbmRepair), (.arrayMap m, kArrayMap), (.maintStatus m, kMaintStatus), (.maintCancel m, kMaintCancel)]
    ∀ i k, (i, k) ∈ rows →
      (s.nextMbox ≠ some m.val ∨ (s.mbox m).opcode ≠ k.op → Runs i s s) ∧
      (s.nextMbox = some m.val → (s.mbox m).opcode = k.op →
        k.allowed (k.read m (s.mbox m).header (s.mbox m).payload) = false → Runs i s (answered (s.takeMbox m) m S_DENIED 0 []))

/-- R905, R914, R586, R904, R911, R805, R939, R938, R830, R831, R838, R1098: the general commands and those of partitions: what
each changes and answers, and the states in which it answers S_BUSY. -/
def Obligations.GeneralAndPartitionCommands : Prop :=
  ∀ (s : State) (m : Fin 64) (c : Cmd) (t : State),
    let ok := fun (i : Instr) (u : State) (p : List Byte) => Runs i s (answered u m 0 0 p)
    let busy := fun (i : Instr) => Runs i s (answered t m S_BUSY 0 [])
    let p := c.f 0
    let st := (t.part p).st
    let others := fun (f : Part → Prop) => ∀ q < 8, q ≠ p → (t.part q).st ≠ .unset → f (t.part q)
    (Serves s kStatus m c t → ok (.status m) (t.modSunas fun u => { u with handOver := none })
      (packFields ([(4, t.stStatus), (4, t.plPlace)] ++ (List.range 8).map fun p => (1, (t.part p).st.code)))) ∧
    (Serves s kNodeReady m c t → (3 ≤ t.start.stage → ok (.nodeReady m) t []) ∧
      (t.start.stage < 3 → t.atStage 3 = true → ok (.nodeReady m) t.stage4Begin []) ∧
      (t.start.stage < 3 → t.atStage 3 = false → busy (.nodeReady m))) ∧
    (Serves s kRestart m c t → Runs (.restart m) s (t.respond m 0 0 []).restart1.drainBad) ∧
    (Serves s kCoreStart m c t → (t.core p).st ≠ 2 →
      ((t.core p).st = 1 → (t.island islCores).up = true → ok (.coreStart m) (t.modCore p fun y =>
        (({ Core.reset p with phys := y.phys, spart := y.spart, st := 0, pc := BitVec.ofNat 64 (c.f 1) }).setX 10 (BitVec.ofNat 64 (c.f 2))).setX 11
          (BitVec.ofNat 64 (c.f 3))) []) ∧
      ((t.core p).st = 0 → busy (.coreStart m))) ∧
    (Serves s kJoin m c t → (4 ≤ t.start.stage → ok (.join m) (t.modStart fun x => { x with joinAsked := true }) []) ∧
      (t.start.stage < 4 → busy (.join m))) ∧
    (Serves s kPlaceSet m c t → ((∀ q < 8, (t.part q).st ≠ .running) → ok (.placeSet m) (t.setPlace (c.f 0) (c.f 1)) []) ∧
      (∀ q < 8, (t.part q).st = .running → busy (.placeSet m))) ∧
    (Serves s kNotifySet m c t → t.userHbmOk (c.f 0) (64 * 2 ^ c.f 1) = true →
      ok (.notifySet m) (t.modSunas fun u => { u with notify := some (c.f 0, c.f 1, c.f 2) }) []) ∧
    (Serves s kPartSet m c t →
      (∀ i < 16, bitN (c.f 1) i = true → (t.arr (i / 4) (i % 4)).retired = false ∧ others fun q => bitN q.arrays i = false) →
      (∀ h < 64, bitN (c.f 3) h = true → (t.core h).st ≠ 2 ∧ others fun q => bitN q.cores h = false) →
      (∀ b < 64, (bitN (c.f 4) b = true → others fun q => bitN q.cnt b = false) ∧
        (bitN (c.f 5) b = true → others fun q => bitN (q.cnt / 2 ^ 64) b = false)) →
      t.userHbmOk (c.f 6) (c.f 7) = true → (others fun q => overlaps (c.f 6) (c.f 7) q.hbmBase q.hbmLen = false) →
      (st = .unset ∨ st = .stopped →
        let u1 := t.modPart p fun x => { x with st := .stopped, arrays := c.f 1, job := c.f 2, cores := c.f 3, cnt := c.cnt, hbmBase := c.f 6, hbmLen := c.f 7 }
        let u2 := u1.forN 64 fun u h => if bitN (c.f 3) h then u.modCore h fun x => { x with spart := p } else u
        let u3 : State := { u2 with counters := u2.counters.filter fun n => !(bitN c.cnt (n.1 / 1024)) }
        let u4 := (if st = .unset then u3.fillBuckets p else u3).ringsOutside p
        ok (.partSet m) (u4.keysFrom t).updSafe []) ∧
      (st = .running ∨ st = .stopping → busy (.partSet m))) ∧
    (Serves s kPartStart m c t → (st = .stopped → t.power.pkgEvac = false →
        ok (.partStart m) (t.modPart p fun x => { x with st := .running }).updSafe []) ∧
      (st ≠ .stopped ∨ t.power.pkgEvac = true → busy (.partStart m))) ∧
    (Serves s kPartStop m c t →
      (st = .running → Runs (.partStop m) s (((t.awaitStop m p).modPart p fun x => { x with st := .stopping }).partSettle p).drainBad) ∧
      (st ≠ .running → busy (.partStop m))) ∧
    (Serves s kPartReset m c t → (st ≠ .unset → Runs (.partReset m) s ((t.awaitStop m p).partReset p).drainBad) ∧
      (st = .unset → busy (.partReset m))) ∧
    (Serves s kKeySet m c t → c.f 2 ≤ 8 → c.f 2 ≠ 1 → c.f 2 ≠ 2 → c.f 3 ≤ 3 → c.f 4 ≤ 3 →
      (st ≠ .running → ok (.keySet m)
        ((t.modPart p fun x => { x with lib := c.f 1, slices := c.f 2, alg := c.f 3, conv := c.f 4, rorder := c.f 5 }).keysFrom t) []) ∧
      (st = .running → busy (.keySet m))) ∧
    (Serves s kKeyGet m c t → ok (.keyGet m) t (leBytes 8 (t.reproKey p)))

/-- R739 to R741, R772, R775, R788, R808 to R815, R599 to R605, R634, R641, R659 to R666, R684: the commands of ports,
modules, tables, exports, replicas, windows and connections. -/
def Obligations.FabricCommands : Prop :=
  ∀ (s : State) (m : Fin 64) (c : Cmd) (t : State),
    let ok := fun (i : Instr) (u : State) (p : List Byte) => Runs i s (answered u m 0 0 p)
    let busy := fun (i : Instr) => Runs i s (answered t m S_BUSY 0 [])
    let others := (t.net.exports.filter fun e => e.1 != c.f 0 && e.2.valid && e.2.job == c.f 3).map (·.2)
    let w := t.window (c.f 0)
    let x := t.conn (c.f 0)
    (Serves s kPortRoles m c t → rolesBad (c.f 0) = false →
      (t.allStopped = true → Unblocked t .roles ((t.changedPorts (c.f 0)).map .port) → ok (.portRoles m) (t.setRoles (c.f 0)) []) ∧
      (t.allStopped = false → busy (.portRoles m))) ∧
    (Serves s kLaneLimit m c t → ok (.laneLimit m)
      ((maskPorts (c.f 0)).foldl (fun s k => s.modPort k fun p => { p with serLimit := c.f 1 }) t) []) ∧
    (Serves s kPortRetrain m c t → (∀ k ∈ maskPorts (c.f 0), (t.port k).st ≠ stOff) →
      let res := (maskPorts (c.f 0)).map Res.port
      let r := t.newTicket (c.ticket 1 .retrain res false)
      Unblocked t .retrain res → Runs (.portRetrain m) s
        (((r.2.modMbox m fun b => { b with wait := .activity r.1 }).retrain (c.f 0)).retrainsEnd).drainBad) ∧
    (Serves s kLaserEvacuate m c t → 4 ≤ t.start.stage → Unblocked t .evac (evacRes (c.f 0)) → ok (.laserEvacuate m) (t.evacuate (c.f 0)) []) ∧
    (∀ peer, Serves s kTableSet m c t →
      (c.f 0 = 0 → c.f 1 < 32 → ¬ (t.places.valid = true ∧ hallOf t.places.place = c.f 1) → c.f 6 = 0 → c.f 7 = 0 →
        ok (.tableSet m peer) (t.setHall (c.f 1) ⟨c.f 2, c.f 3, c.f 4, c.f 5⟩) []) ∧
      (c.f 0 = 1 → c.f 3 = 0 → c.f 4 = 0 → c.f 5 = 0 → c.f 6 = 0 → c.f 7 = 0 → ok (.tableSet m peer) (t.setDomain (c.f 1) (c.f 2)) []) ∧
      (c.f 0 = 2 → c.f 1 < 128 → c.f 3 = 0 → c.f 4 = 0 → c.f 5 = 0 →
        ok (.tableSet m peer) (t.setSlot (c.f 1) (c.f 2) (c.f 7) (BitVec.ofNat 16 (c.f 6)) peer) [])) ∧
    (Serves s kExportSet m c t →
      let e : Export := ⟨c.on 1, c.f 2, c.f 3, c.f 4, c.f 5, c.f 6, c.f 7, c.f 8⟩
      (c.on 1 = true → others.length < 4 → t.inPartition (c.f 2) (c.f 5) (c.f 6) = true →
        (∀ y ∈ others, overlaps y.base y.len (c.f 5) (c.f 6) = false) → t.ownsBlocks (c.f 2) (c.f 7) (c.f 8) = true →
        ok (.exportSet m) (t.modNet fun n => { n with exports := Tbl.set n.exports (c.f 0) e }) []) ∧
      (c.on 1 = false → ok (.exportSet m) (t.modNet fun n => { n with exports := Tbl.set n.exports (c.f 0) e }) [])) ∧
    (Serves s kReplicaSet m c t → c.f 4 + c.f 5 ≤ 2 ^ 39 → t.inPartition (c.f 2) (c.f 6) (c.f 5) = true → ok (.replicaSet m)
      (t.modNet fun n => { n with replicas := Tbl.set n.replicas (c.f 0) ⟨c.on 1, c.f 2, c.f 3, c.f 4, c.f 5, c.f 6⟩ }) []) ∧
    (Serves s kDomainTimeout m c t → ok (.domainTimeout m) (t.modNet fun n => { n with timeoutUs := c.f 0 }) []) ∧
    (Serves s kWindowSet m c t → (w.valid = true → c.foreign w.partition = false) →
      let conns := (t.net.conns.filter fun k => k.2.st == 1 && k.2.peerCaches.contains (c.f 0)).map (·.1)
      (c.on 1 = true → t.inPartition (c.f 2) (c.f 5) (c.f 6) = true → t.ownsBlocks (c.f 2) (c.f 7) (c.f 8) = true →
        let gen := (w.gen + 1) % 65536
        ok (.windowSet m) (t.modNet fun n =>
          { n with windows := Tbl.set n.windows (c.f 0) ⟨true, false, c.f 2, c.f 3, c.f 4, c.f 5, c.f 6, c.f 7, c.f 8, gen⟩ }) (leBytes 2 gen)) ∧
      (c.on 1 = false → w.valid = true → conns = [] → Runs (.windowSet m) s (t.revoked m (c.f 0)).drainBad) ∧
      (c.on 1 = false → w.valid = true → conns ≠ [] → Runs (.windowSet m) s
        (((t.modNet fun n => { n with windows := Tbl.set n.windows (c.f 0) { w with revoking := true } }).invalidate (c.f 0) conns).modMbox m
          fun b => { b with wait := .revoke (c.f 0) conns }).drainBad)) ∧
    (Serves s kConnOpen m c t → t.placeReachable (c.f 1) = true →
      let k := t.connSlot (c.f 0) (c.f 1)
      (k < 65536 → ok (.connOpen m) (t.modConn k fun _ =>
        { Conn.reset with st := 1, partition := c.f 0, place := c.f 1, port := t.hallPick, timeoutMs := if c.f 2 = 0 then 100 else c.f 2 })
        (leBytes 2 k)) ∧
      (65536 ≤ k → Runs (.connOpen m) s (answered t m S_TABLE_FULL 0 []))) ∧
    (Serves s kConnClose m c t → (x.st ≠ 0 → c.foreign x.partition = false) →
      (x.st = 0 → Runs (.connClose m) s (answered t m S_NOTFOUND 0 [])) ∧
      (x.st = 2 → ok (.connClose m) (t.modConn (c.f 0) fun _ => Conn.reset) []) ∧
      (x.st = 1 → Runs (.connClose m) s
        (((t.modMbox m fun b => { b with wait := .connClose (c.f 0) }).modConn (c.f 0) fun y => { y with closing := true }).connSettle (c.f 0)).drainBad)) ∧
    (Serves s kConnTimeout m c t → x.st ≠ 0 → c.foreign x.partition = false → 4 * x.srttUs ≤ c.f 1 * 1000 →
      ok (.connTimeout m) (t.modConn (c.f 0) fun y => { y with timeoutMs := c.f 1 }) [])

/-- R430, R442, R446, R463, R470, R475, R487 to R491, R524, R843 to R877, R359, R692 to R695, R1110: the commands of
memory, views, Husk, rings and groups. -/
def Obligations.MemoryAndViewCommands : Prop :=
  ∀ (s : State) (m : Fin 64) (c : Cmd) (t : State),
    let ok := fun (i : Instr) (u : State) (p : List Byte) => Runs i s (answered u m 0 0 p)
    let busy := fun (i : Instr) => Runs i s (answered t m S_BUSY 0 [])
    let p := c.f 0
    (Serves s kMemInterleave m c t →
      (t.start.stage < 2 → ok (.memInterleave m) (t.modStart fun x => { x with storedMode := c.f 0 }) []) ∧
      (2 ≤ t.start.stage → t.allStopped = true → ok (.memInterleave m) (t.setInterleave (c.f 0)) []) ∧
      (2 ≤ t.start.stage → t.allStopped = false → busy (.memInterleave m))) ∧
    (Serves s kMemRegulator m c t → c.f 2 ≤ c.f 3 → (∀ k < 8, bitN (c.f 0) k = true → (t.stack k).guarSum (c.f 1) (c.f 2) ≤ 256) →
      ok (.memRegulator m) (t.onStacks (c.f 0) fun k =>
        k.regulate t.timeNs (c.f 1) fun r => { r with guar := c.f 2, cap := c.f 3, burstLog2 := c.f 4 }) []) ∧
    (Serves s kMemBlockMode m c t →
      ((t.part p).st = .stopped → ok (.memBlockMode m)
        (t.onStacks 0xFF fun k => { k with regs := Tbl.upd Regulator.reset k.regs p fun r => { r with blockMode := c.on 1 } }) []) ∧
      ((t.part p).st ≠ .stopped → busy (.memBlockMode m))) ∧
    (Serves s kMemUeLimit m c t → ok (.memUeLimit m) (t.onStacks (c.f 0) fun k => { k with ueLimit := c.f 1 }) []) ∧
    (Serves s kMemScrub m c t → ok (.memScrub m) (t.onStacks (c.f 0) fun k => { k with scrubEnable := c.on 1, scrubPeriod := c.f 2 }) []) ∧
    (Serves s kRowAck m c t → (∀ k r, t.pendingReport (c.f 0) = some (k, r) → ok (.rowAck m) (t.rowFence k r) []) ∧
      (t.pendingReport (c.f 0) = none → Runs (.rowAck m) s (answered t m S_NOTFOUND 0 []))) ∧
    (Serves s kRetireRead m c t → ok (.retireRead m) t ((List.range (c.f 2)).flatMap fun i =>
      leBytes 8 (match (t.stack (c.f 0)).retired[c.f 1 + i]? with
        | some r => rowSector r 0
        | none => 0))) ∧
    (Serves s kViewSet m c t →
      let d := (List.range 8).map fun i => BitVec.ofNat 64 (c.f (i + 1))
      t.viewForeign c = false → c.foreign (viewOwner d) = false → (∀ b ∈ t.viewBad d, b.1 = false) →
      ok (.viewSet m) ({ t with views := Tbl.set t.views (c.f 0) (d.set 4 (BitVec.ofNat 64 (vTstride d * 2 ^ 32 + vSstride d))) }.modViewCounts (c.f 0)
        ViewCounts.clear) (packFields [(4, vTstride d), (4, vSstride d)])) ∧
    (Serves s kViewCounts m c t → t.viewForeign c = false →
      let total := fun (f : ViewCounts → Nat) => sat32 (((List.range 4).map fun i => f (Tbl.get ViewCounts.zero (t.tile i).viewCounts (c.f 0))).sum)
      ok (.viewCounts m) (t.modViewCounts (c.f 0) ViewCounts.clear)
        (packFields [(4, total ViewCounts.sat), (4, total ViewCounts.nan), (4, total ViewCounts.uf), (4, total ViewCounts.wovf), (4, total ViewCounts.wnan)])) ∧
    (Serves s kHuskConfig m c t →
      let x := c.huskCfg
      x.shardCount ≤ 32768 → t.connTo p x.destPlace ≠ none → t.ownsCtr p x.trigCtr = true → t.ownsCtr p x.doneCtr = true →
      t.inPartition p x.resBase x.resLen = true → t.reserveThin x = false → (∀ i < c.f 4, t.regionBad p x i = false) →
      ((t.husk p).st ≤ 1 → ok (.huskConfig m) (t.modHusk p fun h => { h with cfg := some x, st := 1, trigNext := 1, snapId := 0 }) []) ∧
      (1 < (t.husk p).st → busy (.huskConfig m))) ∧
    (Serves s kHuskFreeze m c t →
      (t.huskCanFreeze p = true → Runs (.huskFreeze m) s ((t.huskFreeze p (c.f 1)).modMbox m fun b => { b with wait := .freeze p }).drainBad) ∧
      (t.huskCanFreeze p = false → busy (.huskFreeze m))) ∧
    (Serves s kHuskAbandon m c t →
      ((t.husk p).st = 2 ∨ (t.husk p).st = 3 → ok (.huskAbandon m) (t.huskAbandon p "HUSK_ABANDONED") []) ∧
      ((t.husk p).st ≠ 2 → (t.husk p).st ≠ 3 → busy (.huskAbandon m))) ∧
    (Serves s kHuskCommit m c t →
      ((t.husk p).st = 4 → ok (.huskCommit m) ((t.modHusk p fun h => { h with st := 5 }).huskLog p "HUSK_COMMITTED") []) ∧
      ((t.husk p).st ≠ 4 → busy (.huskCommit m))) ∧
    (Serves s kHuskRollback m c t → (t.husk p).st = 5 → (t.part p).st = .stopped → Unblocked t .huskrb [.partition p] →
      Runs (.huskRollback m) s ((t.modHusk p fun h => { h with st := 6 }).modMbox m fun b => { b with wait := .rollback p }).drainBad) ∧
    (Serves s kHuskRestore m c t → t.connTo p (c.f 2) ≠ none → t.userHbmOk (c.f 6) 1 = true → t.canRestore p = true →
      Unblocked t .huskrb [.partition p] → ok (.huskRestore m) (t.restore c) []) ∧
    (Serves s kRingSet m c t →
      let x := t.ring p (c.f 1)
      (x.enable = true → c.foreign x.partition = false) → x.inProgress = 0 → (c.on 10 = true → t.ownsCtr (c.f 3) (c.f 11) = true) →
      (c.on 2 = true → t.ringRange p (c.f 3) (c.f 6) (c.f 5) 64 = true → t.ringRange p (c.f 3) (c.f 8) (c.f 7) 32 = true →
        ok (.ringSet m) (t.modRing p (c.f 1) c.ring) []) ∧
      (c.on 2 = false → ok (.ringSet m) ((t.modRing p (c.f 1) c.ring).ringDisable p (c.f 1)) [])) ∧
    (Serves s kGroupSet m c t →
      let ms := t.members (c.f 5) (c.f 3)
      let scope := t.scopeOf ms
      let n := groupBytes (c.f 6) (c.f 7)
      let g : Group := ⟨c.f 1, c.f 2, c.f 3, c.f 4, c.f 5, c.f 6, c.f 7, c.f 8, c.f 9, c.f 10, scope⟩
      (∀ g ∈ (t.tile p).groups, g.2.group ≠ c.f 1) → c.f 4 < c.f 3 → t.userHbmOk (c.f 5) (4 * c.f 3) = true → (∀ y ∈ ms, y < 2 ^ 22) →
      t.inPartition (c.f 2) (c.f 8) n = true → t.bufCovered scope (c.f 2) (c.f 10) (c.f 8) n = true →
      t.ownsBlocks (c.f 2) (c.f 9) 1 = true → t.cntCovered scope (c.f 2) (c.f 10) (c.f 9) = true →
      (scope ≠ 0 → t.groupWindow (c.f 2) (c.f 10) = true) →
      ((t.tile p).groups.length < 256 → ok (.groupSet m) ((t.modTile p fun y => { y with groups := Tbl.set y.groups (c.f 1) g }).clearGroup p (c.f 1) (c.f 9)) []) ∧
      (256 ≤ (t.tile p).groups.length → Runs (.groupSet m) s (answered t m S_TABLE_FULL 0 []))) ∧
    (Serves s kGroupReset m c t →
      ((∀ g ∈ (t.tile p).groups, g.2.group ≠ c.f 1) → Runs (.groupReset m) s (answered t m S_NOTFOUND 0 [])) ∧
      (∀ k g, ((t.tile p).groups.find? fun g => g.2.group == c.f 1) = some (k, g) → c.foreign g.partition = false →
        t.ctxsOf p (fun x => x.coll && x.group == c.f 1) = [] →
        let u := t.clearGroup p (c.f 1) g.cntBase
        ok (.groupReset m) (if c.on 2 then u.modTile p fun x => { x with groups := Tbl.erase x.groups k } else u) []))

/-- R1116, R990, R896, R898, R947 to R954, R833, R1015, R1020, R481, R468, R174, R942 to R946: the commands of power,
firmware, logs and diagnostics; and a deferred activity that starts, or a command's activity that is deferred. -/
def Obligations.FirmwareAndDiagnosticCommands : Prop :=
  ∀ (s : State) (m : Fin 64) (c : Cmd) (t : State) (o : Observed),
    let ok := fun (i : Instr) (u : State) (p : List Byte) => Runs i s (answered u m 0 0 p)
    let u := t.sunas
    let k := c.f 0
    let diag := Unblocked t .hbmdiag (t.diagRes k)
    (Serves s kSensors m c t → ok (.sensors m) t (packFields
      (((List.range 13).flatMap fun i => [(2, (t.island i).mhz), (2, (t.island i).mv), (2, twos 2 (t.island i).temp), (2, (t.island i).watts)]) ++
        (List.range 8).map fun k => (1, (t.stack k).temp)))) ∧
    (Serves s kTillerCap m c t → 800 ≤ c.f 1 → c.f 1 ≤ t.start.tillerMhz → ∃ v, ok (.tillerCap m) v [] ∧
      (∀ i < 4, (v.tile i).capMhz = if bitN (c.f 0) i then c.f 1 else (t.tile i).capMhz) ∧ v.mem = t.mem) ∧
    (Serves s kTillerState m c t → t.tillerOwned k = false → 3 ≤ t.start.stage →
      (c.on 1 = false → ok (.tillerState m o) (t.tillerOffline k false) []) ∧
      (c.on 1 = true → (t.tile k).inService = true → ok (.tillerState m o) t []) ∧
      (c.on 1 = true → (t.tile k).inService = false → o.passes = true → 2 ≤ t.workingArrays k →
        ok (.tillerState m o) (t.tillerUp k [] []) [])) ∧
    (Serves s kFwInfo m c t → ok (.fwInfo m) t
      (packFields ([(1, u.activeSlot), (1, u.standby), (4, u.fuseVersion)] ++ u.slotA.info ++ u.slotB.info))) ∧
    (Serves s kFwWrite m c t → c.f 0 + c.tail.length ≤ slotBytes → u.uncommitted = false → Unblocked t .flash [.flash] →
      1536 ≤ (t.standbyBlocks o.worn).1 →
      let b := (t.standbyBlocks o.worn).2
      let old := if c.f 0 = 0 then 0 else (u.slotOf u.standby).written
      let v := b.modSunas fun u => { u.setSlot u.standby { o.image.slot with written := max old (c.f 0 + c.tail.length) } with verified := false }
      (b.start.failed = false → ok (.fwWrite m o) v []) ∧
      (b.start.failed = true → b.start.reason = 2 → o.good = true → Runs (.fwWrite m o) s (v.respond m 0 0 []).restart1.drainBad)) ∧
    (Serves s kFwVerify m c t → c.f 0 ≤ slotBytes → Unblocked t .flash [.flash] →
      (t.imageOk u.standby o.good = true → ok (.fwVerify m o) (t.modSunas fun u => { u with verified := true }) []) ∧
      (t.imageOk u.standby o.good = false → Runs (.fwVerify m o) s
        (answered (t.modSunas fun u => { u with verified := false }) m S_IMAGE_BAD 0 []))) ∧
    (Serves s kFwActivate m c t → (u.verified = false → Runs (.fwActivate m) s (answered t m S_IMAGE_BAD 0 [])) ∧
      (u.verified = true → c.on 0 = false → Unblocked t .flash [.flash] → ok (.fwActivate m)
        ((t.modSunas fun x => { x with activeSlot := u.standby, uncommitted := true, verified := false }).logEv "FW_ACTIVATED" 5 0 0xFF []) []) ∧
      (u.verified = true → c.on 0 = true → t.waitingMboxes = [] → Unblocked t .flash [.flash] → ok (.fwActivate m)
        ((t.modSunas fun x => { x with activeSlot := u.standby, uncommitted := true, verified := false, byActivate := true,
                                       handOver := some (u.activeSlot, u.uncommitted, u.byActivate, u.verified) }).logEv "FW_ACTIVATED" 5 0 0xFF []) [])) ∧
    (Serves s kFwCommit m c t → u.byActivate = true → u.runningSlot = u.activeSlot → Unblocked t .flash [.flash] → ok (.fwCommit m)
      ((t.modSunas fun u => { u with uncommitted := false, fuseVersion := max u.fuseVersion (u.slotOf u.activeSlot).secVersion }).logEv
        "FW_COMMITTED" 5 0 0xFF []) []) ∧
    (Serves s kUcodeApply m c t → (∀ i ∈ maskTillers k, t.tillerOwned i = false) → Unblocked t .ucode ((maskTillers k).map .tiller) →
      ok (.ucodeApply m) (t.ucode k) []) ∧
    (Serves s kLogInfo m c t →
      let info := fun (n : Nat) => packFields [(8, n), (8, t.log.nextNumber - 1), (8, t.log.overwritten)]
      (∀ n, leastOf (t.log.records.map (·.number)) = some n → ok (.logInfo m) t (info n)) ∧
      (t.log.records = [] → ∃ v, ok (.logInfo m) { t with freeCtr := t.freeCtr + 1 } (info v))) ∧
    (Serves s kLogRead m c t → ok (.logRead m) t ((List.range (c.f 1)).flatMap fun i =>
      match t.log.records.find? fun r => r.number == c.f 0 + i with
      | some r => if r.visible m then r.bytes else []
      | none => [])) ∧
    (Serves s kHbm1500 m c t → diag → ∃ v, ok (.hbm1500 m o) { t with freeCtr := t.freeCtr + 1 } (leBytes ((c.f 2 + 7) / 8) v)) ∧
    (Serves s kHbmBist m c t → t.stackInUse k = false → diag →
      (o.failAt = none → ok (.hbmBist m o) (t.scrambleStack k) []) ∧
      (∀ a, o.failAt = some a → Runs (.hbmBist m o) s (answered (t.scrambleStack k) m S_FAILED (a % 2 ^ 64) []))) ∧
    (Serves s kHbmModereg m c t → diag →
      (c.on 3 = true → ok (.hbmModereg m o) (t.modStack k fun x => { x with modeRegs := Tbl.set x.modeRegs (c.f 1 * 256 + c.f 2) (c.f 4) }) []) ∧
      (∀ v, c.on 3 = false → Tbl.find (t.stack k).modeRegs (c.f 1 * 256 + c.f 2) = some v → ok (.hbmModereg m o) t (leBytes 4 v)) ∧
      (c.on 3 = false → Tbl.find (t.stack k).modeRegs (c.f 1 * 256 + c.f 2) = none → ∃ v, ok (.hbmModereg m o)
        ({ t with freeCtr := t.freeCtr + 1 }.modStack k fun x => { x with modeRegs := Tbl.set x.modeRegs (c.f 1 * 256 + c.f 2) v }) (leBytes 4 v))) ∧
    (Serves s kHbmRepair m c t → (t.stack k).serves = true → Unblocked t .repair [.stack k] →
      let b := c.f 1 * 64 + c.f 2
      let r := b * 16384 + c.f 4
      let lacks := ∃ v, Runs (.hbmRepair m o) s (answered { t with freeCtr := t.freeCtr + 1 } m S_FAILED v [])
      (c.on 3 = false → ((t.stack k).sppr b ≠ 0 → ok (.hbmRepair m o) (t.rowRepair o.mf k r) []) ∧ ((t.stack k).sppr b = 0 → lacks)) ∧
      (c.on 3 = true → ((t.stack k).hppr b ≠ 0 → ok (.hbmRepair m o) (((((t.rowScan o.mf k r).modStack k fun x =>
          { x with hpprFree := Tbl.set x.hpprFree b (x.hppr b - 1), failing := x.failing.filter (· != r), rowCes := Tbl.erase x.rowCes r }).pin 2 k
            r)).logEv "HBM_ROW_REPAIRED" 0 k 0xFF []) []) ∧ ((t.stack k).hppr b = 0 → lacks))) ∧
    (Serves s kArrayMap m c t → (t.tile k).inService = true → Unblocked t .arrdiag [.array (4 * k + c.f 1)] → c.f 3 < 641 →
      let v := if c.on 2 then t.mapWrite k (c.f 1) (c.f 3) (c.f 4) else t
      ok (.arrayMap m) v (leBytes 2 ((v.arr k (c.f 1)).phys (c.f 3)))) ∧
    (Serves s kMaintStatus m c t →
      (∀ x, Tbl.find u.tickets k = some x → ok (.maintStatus m) t (packFields [(1, x.st), (2, x.opcode), (1, x.status)])) ∧
      (Tbl.find u.tickets k = none → Runs (.maintStatus m) s (answered t m S_NOTFOUND 0 []))) ∧
    (Serves s kMaintCancel m c t → (Tbl.find u.tickets k = none → Runs (.maintCancel m) s (answered t m S_NOTFOUND 0 [])) ∧
      ∀ x, Tbl.find u.tickets k = some x → (x.st = 0 → ok (.maintCancel m) (t.modSunas fun u => { u with tickets := Tbl.set u.tickets k { x with st := 3 } }) []) ∧
      (∀ j, x.st = 1 → x.act = .evac → x.module = some j → ok (.maintCancel m) (t.evacCancel j) [])) ∧
    (Serves s kHbmBist m c t → t.stackInUse k = false → ¬ diag → t.heldCommands < 64 → c.nowait = false → u.notify ≠ none →
      let r := t.newTicket (c.ticket 0 .hbmdiag (t.diagRes k) true)
      Runs (.hbmBist m o) s (r.2.writeResponse m S_DEFERRED r.1 []).drainBad) ∧
    (∀ n x, Tbl.find s.sunas.tickets n = some x → s.ticketFree n x = true →
      (∀ j, x.mbox = 64 → x.module = some j → Runs (.maintDeferredStart n o) s ((s.startTicket n).evacuate j)) ∧
      (∀ q, x.mbox ≠ 64 → cmdOf x.opcode = some q →
        Runs (.maintDeferredStart n o) s ((s.startTicket n).performDeferred o n (q.read x.mbox x.header x.payload))))


/-! ### Pins, power, temperature and the start (R27, R37 to R55, R888 to R921, R1061 to R1105) -/

/-- R27, R888 to R895, R914, R915, R1063 to R1071, R1088, R1094 to R1101: what the pins do: power and PWRGD_IN rising and
falling, RESET_IN_N, REFCLK, the latch and the service button; and what the tray bus and the test port do to the
registers they reach. -/
def Obligations.PinsAndBuses : Prop :=
  ∀ s : State,
    let w := s.power
    (∀ (a b : ImageInfo) (i : Fin 2) (m : Fin 3), w.powered = false → Runs (.powerOn a b i m) s
      (((((s.modPower fun w => { w with powered := true, poweredAt := s.timeNs }).modSunas fun u =>
        { u with slotA := a.slot, slotB := b.slot, activeSlot := i, runningSlot := i }).modStart fun x => { x with storedMode := m }).islandUp
          islScarab).islandUp islCricket)) ∧
    (w.pwrgd = true → Runs .pwrgdFall s ((s.modPower fun w => { w with pwrgd := false }).modStart fun x => { x with begun := false }).stopAll) ∧
    (w.resetLow = false → Runs .resetAssert s (s.modPower fun w => { w with resetLow := true }).stopAll) ∧
    (w.resetLow = true → Runs .resetRelease s
      (let u := s.modPower fun w => { w with resetLow := false }
       if w.pwrgd = true then u.restart1 else u)) ∧
    (w.refclk = true → Runs .refclkLoss s
      ((s.modPower fun w => { w with refclk := false, refclkLost := true }).stopAll.logEv "REFCLK_LOST" 5 0 0xFF [])) ∧
    (w.refclk = false → Runs .refclkReturn s
      (let u := s.modPower fun w => { w with refclk := true }
       if w.pwrgd = true then u.restart1 else u)) ∧
    (let u := (s.modPower fun w => { w with latchClosed := false }).setFlag lnPw fPwLatch
     w.latchClosed = true → (s.start.begun = true → Runs .latchOpen s (u.stopAll.logEv "START_LATCH" 5 0 0xFF [])) ∧
       (s.start.begun = false → Runs .latchOpen s u)) ∧
    (let u := (s.modPower fun w => { w with latchClosed := true }).setFlag lnPw fPwLatch
     w.latchClosed = false → Runs .latchClose s (if w.pwrgd = true then u.restart1 else u)) ∧
    (w.btnDown = false → Runs .buttonPress s
      ((s.modPower fun w => { w with btnDown := true, presses := sat32 (w.presses + 1) }).setFlag lnPw fPwButton)) ∧
    (w.btnDown = true → Runs .buttonStuck s (s.logEv "BUTTON_STUCK" 5 0 0xFF []) ∧
      (∀ ms, let u := s.modPower fun w => { w with btnDown := false }
        (w.trip = true ∨ w.railFault = true ∨ w.latchClosed = false →
          Runs (.serviceButton ms) s (u.logEv "SERVICE_BUTTON" 5 0 0xFF [(4, ms), (1, 0)])) ∧
        (w.trip = false → w.railFault = false → w.latchClosed = true →
          (s.start.stage < 4 → Runs (.serviceButton ms) s (u.modPower fun w => { w with heldPresses := w.heldPresses ++ [ms] })) ∧
          (4 ≤ s.start.stage →
            (∀ m, ms ≤ 3000 → u.cancelTarget = some m →
              Runs (.serviceButton ms) s ((u.evacCancel m).logEv "SERVICE_BUTTON" 5 0 0xFF [(4, ms), (1, 2)])) ∧
            (∀ m, ms ≤ 3000 → u.cancelTarget = none → u.evacTarget = some m →
              Runs (.serviceButton ms) s ((u.requestEvac m).logEv "SERVICE_BUTTON" 5 0 0xFF [(4, ms), (1, 1)])) ∧
            (5000 ≤ ms → ms ≤ 30000 → w.pkgEvac = false → Runs (.serviceButton ms) s
              ((((u.modPower fun w => { w with pkgEvac := true }).logEv "PKG_EVAC_REQUESTED" 5 0 0xFF []).updSafe).logEv "SERVICE_BUTTON" 5 0 0xFF
                [(4, ms), (1, 3)])) ∧
            (5000 ≤ ms → ms ≤ 30000 → w.pkgEvac = true → Runs (.serviceButton ms) s
              (((u.modPower fun w => { w with pkgEvac := false }).updSafe).logEv "SERVICE_BUTTON" 5 0 0xFF [(4, ms), (1, 4)])))))) ∧
    (∀ a : Fin 128, Runs (.i3cAddressAssign a) s (s.modPower fun w => { w with dynAddr := some a.val })) ∧
    Runs .i3cEnec s (s.modPower fun w => { w with enec := true }) ∧
    (∀ (off : Fin 65536) (data : List Byte), w.powered = true → data.length ≤ 4096 →
      (off.val % 4 = 0 → data.length % 4 = 0 → Runs (.i3cPrivateWrite off data) s
        ((s.modPower fun w => { w with i3cOff := off.val }).forN (data.length / 4) fun s i =>
          s.i3cPut ((off.val + 4 * i) % 65536) (leNat ((data.drop (4 * i)).take 4)))) ∧
      (off.val % 4 ≠ 0 ∨ data.length % 4 ≠ 0 → Runs (.i3cPrivateWrite off data) s (s.setFlag lnPw fPwCfg))) ∧
    (∀ n bs u, w.powered = true → n ≤ 4096 → s.i3cWords w.i3cOff ((n + 3) / 4) = (bs, u) → Runs (.i3cPrivateRead n) s (u.emit (.bytes (bs.take n)))) ∧
    (∀ data, (s.scanRefused = true → Runs (.extest data) s (s.tapShift 0 1 0 data) ∧ Runs (.samplePreload data) s (s.tapShift 1 1 0 data)) ∧
      (s.scanRefused = false → ∃ v, Runs (.extest data) s ({ s with freeCtr := s.freeCtr + 1 }.tapShift 0 30 v data) ∧
        Runs (.samplePreload data) s ({ s with freeCtr := s.freeCtr + 1 }.tapShift 1 30 v data)) ∧
      Runs (.idcode data) s (s.tapShift 0xFE 32 0x10008A67 data) ∧ (∀ op : Fin 256, Runs (.bypass op data) s (s.tapShift op 1 0 data))) ∧
    Runs .trst s (s.modPower fun w => { w with tapInstr := 0xFE, tapData := 0 }) ∧
    (∀ (off : Fin 512) lo hi u v,
      s.readBlock .scarab (.mb 63) (8 * off) = (lo, u) → u.readBlock .scarab (.mb 63) (8 * off + 4) = (hi, v) →
      Runs (.mbacc off none) s (v.tapShift 0x40 64 (lo + hi * 2 ^ 32) 0) ∧
      (∀ d : W64, Runs (.mbacc off (some d)) s (((v.tapShift 0x40 64 (lo + hi * 2 ^ 32) d.toNat).mboxWrite 63 (8 * off) (d.toNat % 2 ^ 32)).mboxWrite 63
        (8 * off + 4) (d.toNat / 2 ^ 32))))

/-- R37 to R55, R1073 to R1088: an over-current lowers the Tiller's clock to 800 MHz; a set-point that VACK does not
confirm is reported; VACK confirms within its range; a rail sample out of tolerance twice running on a main rail is a
fault; a junction sample throttles, floors, stops or trips by its temperature; a Tiller over its share of the power runs
slower, by how much is open; an island pair beyond the bridge margin
stops an island, and a pair beyond the limits clamps one; a trip stops everything, once. -/
def Obligations.PowerLimits : Prop :=
  ∀ s : State,
    let w := s.power
    (∀ t : Fin 4, Runs (.overcurrent t) s (s.modIsland t fun x => { x with mhz := min x.mhz 800 })) ∧
    (∀ (k : Fin 6) v, w.vchanged.contains k.val = true →
      (600 ≤ v → v ≤ 850 → Runs (.vackWrite k v) s (s.modPower fun w =>
        { w with vack := Tbl.set w.vack k v, vchanged := if Tbl.get 750 w.vset k = v then w.vchanged.filter (· != k.val) else w.vchanged })) ∧
      (v < 600 ∨ 850 < v → Runs (.vackWrite k v) s (s.setFlag lnPw fPwCfg)) ∧
      Runs (.vsetTimeout k) s (((s.modPower fun w => { w with faults := sat32 (w.faults + 1) }).setFlag lnPw fPwRail).logEv "VSET_TIMEOUT" 5 0 0xFF
        [(4, k.val), (4, Tbl.get 750 w.vset k.val)])) ∧
    (∀ (k : Fin 6) v, w.vchanged.contains k.val = false → Runs (.vackWrite k v) s (s.setFlag lnPw fPwCfg)) ∧
    (∀ samples watts, w.pwrgd = true → Runs (.railSample samples watts) s ((samples.zipIdx.take 11).foldl
      (fun s x => s.railSample x.2 (x.1.1 % 65536) (x.1.2 % 65536)) (s.modPower fun w => { w with packageWatts := watts }))) ∧
    (∀ r mv amps, r < 9 →
      let n := s.railNominal r
      let bad := mv * 100 < n.1 * (100 - railPercent r) ∨ n.2 * (100 + railPercent r) < mv * 100
      let was := (Tbl.get Rail.reset w.rails r).out
      let sampled := fun (k : Nat) => s.modPower fun w => { w with rails := Tbl.set w.rails r ⟨mv, amps, k⟩ }
      let faulted := (((sampled 2).modPower fun w => { w with railFault := true, faults := sat32 (w.faults + 1) }).setFlag lnPw fPwRail).logEv
        "RAIL_FAULT" 5 0 0xFF [(4, r), (2, mv)]
      (¬ bad → s.railSample r mv amps = sampled 0) ∧ (bad → was = 0 → s.railSample r mv amps = sampled 1) ∧
      (bad → was = 1 → r < 4 → s.railSample r mv amps = faulted.tillerOffline r true) ∧
      (bad → was = 1 → 4 ≤ r → s.railSample r mv amps = faulted.stopAll)) ∧
    (∀ temps, Runs (.thermalSample temps) s (((temps.zipIdx.take 13).foldl (fun s x =>
      if (s.island x.2).up then
        let s := s.modIsland x.2 fun k => { k with temp := x.1 }
        if varClock x.2 then s.varThermal x.2 x.1 else s.fixedThermal x.2 x.1
      else s) s).forN 4 fun s t => s.powerHold t)) ∧
    (∀ t : Nat, let k := s.island t
      let share := if s.start.grade = 0 then 600 else 475
      (k.watts ≤ share → s.powerHold t = s) ∧
      (k.up = true → share < k.watts → 800 < k.mhz → ∃ m, 800 ≤ m ∧ m < k.mhz ∧ (s.powerHold t).island t = { k with mhz := m })) ∧
    (∀ (i : Nat) (temp : Int),
      let k := s.island i
      (97 ≤ temp → temp < 100 → s.varThermal i temp = s) ∧
      (100 ≤ temp → temp < 105 → s.varThermal i temp = (s.throttle i temp).modIsland i fun k => { k with mhz := max (floorClock i) (k.mhz - 100) }) ∧
      (105 ≤ temp → temp < 110 → s.varThermal i temp =
        ((s.throttle i temp).setFlag lnPw fPwThermal).modIsland i fun k => { k with mhz := min k.mhz (floorClock i) }) ∧
      (110 ≤ temp → temp < 115 → k.mhz ≤ floorClock i → s.varThermal i temp = s.stopIsland i) ∧
      (115 ≤ temp → s.varThermal i temp = s.thermTrip 9 i temp ∧ s.fixedThermal i temp = s.thermTrip 9 i temp) ∧
      (105 ≤ temp → temp < 115 → k.warned = true → s.fixedThermal i temp = s)) ∧
    (∀ (idx : Fin 13) temp, w.trip = false →
      let u := fun (source : Nat) =>
        (((((s.modPower fun w => { w with trip := true }).setFlag lnPw fPwThermal).ibi 4).logEv "THERMTRIP" source idx 0xFF
          [(1, idx.val), (4, twos 4 temp)]).stopAll).stageFail (min (s.start.stage + 1) 5) 7
      Runs (.thermtrip false idx temp) s (u 9) ∧ Runs (.thermtrip true idx temp) s (u 0)) ∧
    (w.trip = true → w.pwrgd = false → Runs .thermtripRelease s (s.modPower fun w => { w with trip := false })) ∧
    (∀ samples requests, s.log.restarting = false → s.log.halted = false →
      let u1 := (samples.zipIdx.take 13).foldl (fun s x =>
        if (s.island x.2).up then s.modIsland x.2 fun k => { k with mv := x.1.1, temp := x.1.2.1, watts := x.1.2.2 } else s) s
      let u2 := neighbours.foldl (fun s p => s.pairSample p.1 p.2) u1
      let u3 := u2.forN 9 fun s i => if varClock i then s.clampSample i else s
      u3.log.restarting = false → u3.log.halted = false →
      Runs (.islandSample samples requests) s (requests.foldl (fun s r => s.vsetRequest r.1 r.2) u3)) ∧
    (∀ i j, let a := s.island i
      let b := s.island j
      a.up = true → b.up = true →
      (a.mhz = b.mhz → a.mv = b.mv → max a.temp b.temp - min a.temp b.temp ≤ 40 → s.pairSample i j = s) ∧
      (5 * b.mhz < a.mhz → i < 4 → ∃ v, s.pairSample i j = (s.logPair "ISLAND_STOP" (some i) i j 0 v).stopIsland i) ∧
      (4 * b.mhz < a.mhz → a.mhz ≤ 5 * b.mhz → max a.mv b.mv - min a.mv b.mv ≤ 260 → max a.temp b.temp - min a.temp b.temp ≤ 50 → i < 4 →
        a.clamped = false → s.log.restarting = false → s.log.halted = false →
        ∃ v, s.pairSample i j = (s.modIsland i fun k => { k with clamped := true, good := 0 }).logPair "ISLAND_CLAMP" (some i) i j 0 v))

/-- R888 to R913, R917 to R919: the stages in their order. Stage 0 loads the fuses; stage 1 needs an acceptable image and
the journal; stage 2 zeroes HBM and needs seven stacks; stage 3 loads the boot image and the boot block and starts core
0; stage 4 brings each Tiller up and completes with one in service; stage 5 sets the place; and a stage over its budget
fails the start. -/
def Obligations.StagedStart : Prop :=
  ∀ s : State,
    (∀ f, s.power.powered = true → s.power.pwrgd = false →
      (∃ u, Runs (.pwrgdRise f s.power.latchClosed) s u ∧ u.start.stage = 0 ∧ u.start.begun = true ∧ u.start.failed = false ∧
        u.start.grade = f.grade ∧ u.start.stepping = f.stepping ∧ u.start.serial = f.serial ∧
        u.start.tillerMhz = (if f.grade.val = 0 then 2100 else 1800) ∧ u.start.fuseBad = !f.good ∧ u.power.pwrgd = true ∧ u.log.halted = false ∧
        u.sunas.fuseVersion = max s.sunas.fuseVersion f.secVersion ∧ u.mem = s.mem)) ∧
    (s.atStage 1 = true →
      (∀ a b j cs ms, s.start.fuseBad = true → Runs (.stage1ImageVerify a b j cs ms) s (s.stageFail 1 3)) ∧
      (∀ a b j cs ms u, s.start.fuseBad = false → s.chooseImage a b = (none, u) → Runs (.stage1ImageVerify a b j cs ms) s (u.stageFail 1 2)) ∧
      (∀ a b (cs : List (Fin 64)) (ms : List (Fin 6 × Bool × Nat)) i u, s.start.fuseBad = false → s.chooseImage a b = (some i, u) →
        Runs (.stage1ImageVerify a b false cs ms) s (u.stageFail 1 3)) ∧
      (∀ a b (cs : List (Fin 64)) (ms : List (Fin 6 × Bool × Nat)) i u, s.start.fuseBad = false → s.chooseImage a b = (some i, u) →
        let v := ((((u.modSunas fun y => { y with runningSlot := i, byActivate := y.uncommitted && y.activeSlot == i }).modStart fun x =>
          { x with slot := i }).applyMaps.applyJournal).islandUp islCores)
        let v1 := cs.foldl (fun s h => s.retireCore h.val) v
        let v2 := if (v1.cores.core.any fun c => c.2.st == 2) = true then v1 else (List.range 64).foldl (fun s h => s.clearService 4 h) v1
        Runs (.stage1ImageVerify a b true cs ms) s ((ms.foldl (fun s m =>
          (s.modLaser m.1 fun x => { x with present := true }).moduleStart m.1 m.2.1 m.2.2) v2).stageDone 1))) ∧
    (s.atStage 2 = true → ∀ ups : List TrainedStack,
      let u1 := s.forN 4 fun s i => s.islandUp (4 + i)
      let u2 := { u1 with hbm := { u1.hbm with mode := s.start.storedMode } }
      let u3 := ups.foldl (fun s x =>
        let k : Nat := x.stack.val
        let s : State := s.modStack k fun y => y.trained x.vendor.val x.sppr.val x.hppr.val (x.banks.map fun b => (b.1.val, b.2.1.val, b.2.2.val))
        if (s.stack k).retired.length = 4096 then ((s.setStackSt k 2).setFlag (lnHc k) fHcRetireFull).raiseService 0 k
        else (s.setStackSt k 1).clearService 0 k) u2
      let failed := (List.range 8).filter fun k => !((u3.stack k).serves)
      let u4 := failed.foldl (fun s k => (((s.setStackSt k 3).logEv "HBM_STACK_LOST" 0 k 0xFF []).raiseService 0 k)) u3.zeroHbm
      (failed.length < 2 → Runs (.stage2Hbm ups) s (u4.stageDone 2)) ∧ (2 ≤ failed.length → Runs (.stage2Hbm ups) s (u4.stageFail 2 4)) ∧
      (∀ a < 2 ^ 39, Memory.read u3.zeroHbm.mem a = 0)) ∧
    (s.atStage 3 = true → ∀ image, (s.island islCores).up = true →
      let at_ := (image.length + 4095) / 4096 * 4096
      let u := ((s.store 0 image).store at_ ((s.store 0 image).bootBlock ++ List.replicate (4096 - (s.store 0 image).bootBlock.length) 0)).modStart fun x =>
        { x with imageBytes := image.length }
      (u.core 0).st ≠ 2 → Runs (.stage3Boot image) s
        (u.modCore 0 fun c => (({ Core.reset 0 with phys := c.phys, spart := c.spart, st := 0 }).setX 10 0).setX 11 (BitVec.ofNat 64 at_))) ∧
    (s.atStage 4 = true →
      (∀ t banks defects, (s.tile t.val).broughtUp = false → Runs (.stage4TillerBringup t banks defects) s
        (s.tillerUp t (banks.map (·.val)) (defects.map fun d => (d.1.val, d.2.map (·.val))))) ∧
      (s.stage4Settled = true →
        ((∀ t < 4, (s.tile t).inService = false) → Runs .stage4Complete s (s.stageFail 4 6)) ∧
        (∀ t < 4, (s.tile t).inService = true → (s.stageDone 4).power.heldPresses = [] → Runs .stage4Complete s
          ((s.stageDone 4).modPower fun w => { w with heldPresses := [] })))) ∧
    (s.atStage 5 = true → s.start.joinAsked = true → ∀ p site, s.start.placeGiven = some (p, site) →
      Runs .domainJoin s ((s.setPlace p site).stageDone 5)) ∧
    (s.startRuns = true → s.start.stage < 4 →
      Runs .stageBudgetExpiry s (s.stageFail (s.start.stage + 1) (if s.start.stage = 2 then 5 else 1)))

/-- R951, R953, R995 to R997, R1008 to R1020: a lockstep mismatch restarts Scarab, and a second within an hour halts it;
a restart answers the commands that were in progress; a live hand-over takes effect, or is taken back; buffered log
records are programmed in their order, and pinned records are committed in a free block or held. -/
def Obligations.RestartsAndFlash : Prop :=
  ∀ s : State,
    (s.log.halted = false →
      ((∀ t, s.log.lockstepAt = some t → t + 3600000000000 ≤ s.timeNs) → Runs .scarabLockstep s
        ((s.modLog fun l => { l with lockstepAt := some s.timeNs, restarting := true }).logEv "SCARAB_LOCKSTEP" 5 0 0xFF [])) ∧
      (∀ t, s.log.lockstepAt = some t → s.timeNs < t + 3600000000000 → Runs .scarabLockstep s
        ((((s.modLog fun l => { l with halted := true, restarting := false }).forN 8 fun s p => s.partReset p).raiseService 5 1).logEv "SCARAB_HALT" 5 0
          0xFF []))) ∧
    (s.log.restarting = true →
      let u1 := s.modLog fun l => { l with restarting := false }
      let u2 := (s.sunas.mboxes.filter fun m => m.2.st == 1).foldl (fun s m => s.respond m.1 0x0C (2 ^ 64 - 1) []) u1
      let u3 := u2.modSunas fun u => { u with order := [] }
      let u4 := (u3.sunas.tickets.filter fun t => decide (t.2.st ≤ 1) && t.2.mbox != 64).foldl (fun s t => s.endTicket t.1 0x0C) u3
      Runs .scarabRestartDone s (u4.forN 8 fun s k => (s.stack k).reported.foldl (fun s q =>
        let rep := s.reportRow k q.1
        rep.2.modStack k fun x => { x with reported := x.reported.map fun y => if y.1 = q.1 then (q.1, rep.1) else y }) s)) ∧
    (s.sunas.handOver ≠ none → Runs .liveHandOver s (s.modSunas fun u => { u with runningSlot := u.activeSlot }).drainBad) ∧
    (∀ slot uncommitted byActivate verified, s.sunas.handOver = some (slot, uncommitted, byActivate, verified) → Runs .fwReverted s
      ((s.modSunas fun u => { u with activeSlot := slot, runningSlot := slot, uncommitted := uncommitted, byActivate := byActivate,
                                     verified := verified, handOver := none }).logEv "FW_REVERTED" 5 0 0xFF []).drainBad) ∧
    (∀ n erases worn,
      let u := s.modLog fun l => { l.program n with maxErase := max l.maxErase erases }
      Runs (.logProgram n erases worn) s (if worn = true then u.blockWorn .log else u).reportDropped) ∧
    (∀ n, n < s.log.ring.length → (s.log.programmed ++ s.log.ring.take n).length ≤ s.log.logBlocks * 4096 →
      s.log.program n = { s.log with ring := s.log.ring.drop n, programmed := s.log.programmed ++ s.log.ring.take n }) ∧
    (∀ erases worn,
      let u := s.modLog fun l => { l with maxErase := max l.maxErase erases }
      let ends := fun (v : State) =>
        let v := if worn = true then v.blockWorn .pinned else v
        if v.log.pinnedHeld.isEmpty = true then v.clearService 5 0 else v
      (∀ r rest, s.log.pinnedQueue = r :: rest →
        let v := u.modLog fun l => { l with pinnedQueue := rest }
        (s.log.pinnedFree ≠ 0 → Runs (.pinnedWrite erases worn) s (ends (v.modLog fun l => l.commit r))) ∧
        (s.log.pinnedFree = 0 → Runs (.pinnedWrite erases worn) s (ends (v.pinPending r)))) ∧
      (∀ r rest, s.log.pinnedQueue = [] → s.log.pinnedHeld = r :: rest →
        (s.log.pinnedFree ≠ 0 → Runs (.pinnedWrite erases worn) s (ends (u.modLog fun l => { l.commit r with pinnedHeld := rest }))) ∧
        (s.log.pinnedFree = 0 → Runs (.pinnedWrite erases worn) s (ends u))))

/-- The frame of the commands that store nothing: every byte of memory reads as before. These are the sequencer's control
instructions and loads where no granule is uncorrectable, the reads of registers, the Cricket messages, and the commands of the tray bus and the test port
that address no mailbox. -/
def Obligations.CommandsThatStoreNothing : Prop :=
  ∀ (s : State) (m : Master) (t a : Fin 4) (c : Fin 128) (k : Fin 8) (p : Fin 24),
    let mf := MemFaults.none
    let keeps := fun (i : Instr) => ∀ u, exec i s = .next u → ∀ x, Memory.read u.mem x = Memory.read s.mem x
    (s.bad = [] → keeps (.nop t c mf) ∧ keeps (.li t c mf) ∧ keeps (.alu t c mf) ∧ keeps (.alui t c mf) ∧ keeps (.br t c mf) ∧ keeps (.jal t c mf) ∧
      keeps (.jalr t c mf) ∧ keeps (.yield t c mf) ∧ keeps (.csrr t c mf) ∧ keeps (.ld t c mf) ∧ keeps (.tread t c mf)) ∧
    (keeps (.maFlagsRead m t a) ∧ keeps (.veFlagsRead m t) ∧ keeps (.sqFlagsRead m t) ∧ keeps (.hcFlagsRead m k) ∧ keeps (.opFlagsRead m p) ∧
      keeps (.wvDataRead m t) ∧ keeps (.hcRegDataRead m k) ∧ keeps (.opLaneDataRead m p) ∧ keeps (.dmSlotDataRead m) ∧ keeps (.hkDataRead m) ∧
      keeps (.rkDataRead m) ∧ keeps (.acMtimeLoRead m) ∧ keeps (.icLineDataAccess m none)) ∧
    (∀ frame time echo diff, keeps (.beacon frame time echo diff)) ∧ keeps .beaconMiss ∧ keeps .memberSlot ∧ keeps .joinSlot ∧ keeps .joinRetry ∧
    (∀ serial mem d adv, keeps (.assign serial mem d adv)) ∧ (∀ place site, keeps (.place place site)) ∧ (∀ ns, keeps (.offset ns)) ∧
    keeps .release ∧ keeps .muteTimeout ∧ keeps .pinnedResend ∧ (∀ q, keeps (.pinnedAck q)) ∧
    (∀ d, keeps (.idcode d) ∧ keeps (.extest d) ∧ keeps (.samplePreload d)) ∧ keeps .trst ∧ keeps .i3cEnec
end

