-- ==== Sys2Proof/Laws/Checks.lean ====
section
/-!
SUPPORT. The checks at issue: none fails exactly when each passes.
-/
namespace Sys2Proof.Laws

open Sys2Proof Sys2Proof.Machine

theorem foldl_check_isSome (l : List (Nat × Nat)) (b : Check) (hb : b.isSome) :
    (l.foldl (fun (b : Check) c => match b with
      | none => some c
      | some x => if checkRank c.1 < checkRank x.1 then some c else some x) b).isSome := by
  induction l generalizing b with
  | nil => exact hb
  | cons c l ih =>
    obtain ⟨x, rfl⟩ := Option.isSome_iff_exists.1 hb
    simp only [List.foldl_cons]
    apply ih
    split <;> rfl

/-- No check fails if and only if each one passes. -/
theorem firstCheck_eq_none (cs : List Check) : firstCheck cs = none ↔ ∀ c ∈ cs, c = none := by
  induction cs with
  | nil => simp [firstCheck]
  | cons c cs ih =>
    cases c with
    | none => simpa [firstCheck] using ih
    | some x =>
      constructor
      · intro h
        have := foldl_check_isSome (cs.filterMap id) (some x) rfl
        have h' : ((cs.filterMap id).foldl (fun (b : Check) c => match b with
          | none => some c
          | some x => if checkRank c.1 < checkRank x.1 then some c else some x) (some x)) = none := h
        rw [h'] at this
        cases this
      · intro h
        exact absurd (h (some x) (by simp)) (by simp)

@[simp] theorem firstCheck_nil : firstCheck [] = none := rfl

@[simp] theorem failIf_eq_none (c : Bool) (code info : Nat) : failIf c code info = none ↔ c = false := by
  cases c <;> simp [failIf]

end Sys2Proof.Laws
end

