-- ==== Sys2Proof/Laws/ArrayRun.lean ====
section
/-!
SUPPORT. Array operations that pass their checks and whose rows complete.
-/
namespace Sys2Proof.Machine

open Sys2Proof Sys2Proof.Laws

/-- An array operation that passes its checks does its own work, with its entry in progress. -/
theorem State.takeArr_starts {α : Type} {s s1 : State} {t a o : Nat} {rsvd} {e} (h : StartsArray s t a o rsvd e s1)
  (prep : State → QEntry → FmtM → Nat → List Check × α × State) (run : State → QEntry → FmtM → Nat → α → State)
  (cs x s2) (hp : prep s1 e (fmtM e.word) (s1.partOf t e) = (cs, x, s2)) (hi : s2.incCheck (s1.partOf t e) (fmtM e.word).ctr (fmtM e.word).ri = none)
  (ha : bitN (s2.part (s1.partOf t e)).arrays (4 * t + a) = true)
  (hc : Passes cs) : s.takeArr t a o rsvd prep run = run (s2.activate t a e) e (fmtM e.word) (s1.partOf t e) x := by
  obtain ⟨h1,h2,h3,h4,h5,h6,h7⟩ := h
  unfold State.takeArr
  rw [h1, show s.popHead t a (· == o) = _ from h2]
  simp only [h3, hp]
  rw [(firstCheck_eq_none _).2 (by
    rw [Passes, firstCheck_eq_none] at hc
    intro c hcm; simp only [List.mem_append, List.mem_cons, List.not_mem_nil, or_false] at hcm
    rcases hcm with ((rfl|rfl)|hcm)|rfl
    · simp [h4,h5]
    · simp [ha]
    · exact hc c hcm
    · exact hi)]
  simp
/-- An operation whose rows all complete reaches its boundary in the state after the last row. -/
theorem State.runRows_rows {t a : Nat} {e} {base : Nat} {row : State → Nat → (Except Nat State) × State} {u : Nat → State} : ∀ (n i : Nat),
   (∀ j < n, ∃ x, row (u (i+j)) (i+j) = (.ok (u (i+j+1)), x)) → State.runRows t a e base row n i (u i) = (u (i+n)).arrBoundary t a := by
  intro n
  induction n with
  | zero => intro i h; rfl
  | succ n ih =>
    intro i h
    obtain ⟨x, hx⟩ := h 0 (by omega)
    simp only [Nat.add_zero] at hx
    unfold State.runRows
    simp only [hx]
    rw [ih (i+1) (by intro j hj; have := h (j+1) (by omega); simpa [Nat.add_assoc, Nat.add_comm 1] using this)]
    congr 2; omega

end Sys2Proof.Machine
end

