-- ==== Sys2Proof/Laws/Memory.lean ====
section
/-!
SUPPORT. What reading and writing memory does: a read gives what was written there and leaves every other address
alone, and every operation on memory keeps its canonical form.
-/
namespace Sys2Proof.Machine

/-- The canonical form from a higher address is one from a lower address. -/
theorem Memory.wfFrom_mono {lo hi : Nat} {m : Memory} (h : lo ≤ hi) (hm : Memory.wfFrom hi m = true) :
    Memory.wfFrom lo m = true := by
  cases m with
  | nil => rfl
  | cons c t =>
    obtain ⟨j, b⟩ := c
    simp only [Memory.wfFrom, Bool.and_eq_true, decide_eq_true_eq] at hm ⊢
    exact ⟨⟨by omega, hm.1.2⟩, hm.2⟩

/-- Below its first address a memory in canonical form reads as unlisted. -/
theorem Memory.read_below {lo a : Nat} {m : Memory} (h : a < lo) (hm : Memory.wfFrom lo m = true) :
    Memory.read m a = Memory.unlisted := by
  cases m with
  | nil => rfl
  | cons c t =>
    obtain ⟨j, b⟩ := c
    simp only [Memory.wfFrom, Bool.and_eq_true, decide_eq_true_eq] at hm
    simp only [Memory.read]
    rw [if_neg (by omega), if_pos (by omega)]

/-- A write keeps the canonical form. -/
theorem Memory.write_wfFrom {lo a : Nat} {m : Memory} {b : Byte} (h : lo ≤ a) (hm : Memory.wfFrom lo m = true) :
    Memory.wfFrom lo (Memory.write m a b) = true := by
  induction m generalizing lo with
  | nil =>
    simp only [Memory.write]
    split
    · rfl
    · simp [Memory.wfFrom, *]
  | cons c t ih =>
    obtain ⟨j, w⟩ := c
    have hm' := hm
    simp only [Memory.wfFrom, Bool.and_eq_true, decide_eq_true_eq] at hm
    simp only [Memory.write]
    split
    · split
      · exact hm'
      · rename_i h1 h2
        simp only [Memory.wfFrom, Bool.and_eq_true, decide_eq_true_eq, bne_iff_ne, ne_eq]
        exact ⟨⟨h, h2⟩, ⟨by omega, by simpa using hm.1.2⟩, hm.2⟩
    · split
      · rename_i h1 h2
        subst h2
        split
        · exact Memory.wfFrom_mono (by omega) hm.2
        · rename_i h3
          simp only [Memory.wfFrom, Bool.and_eq_true, decide_eq_true_eq, bne_iff_ne, ne_eq]
          exact ⟨⟨h, h3⟩, hm.2⟩
      · rename_i h1 h2
        simp only [Memory.wfFrom, Bool.and_eq_true, decide_eq_true_eq]
        exact ⟨hm.1, ih (by omega) hm.2⟩

/-- A write keeps memory in canonical form. -/
theorem Memory.write_wf {m : Memory} (a : Nat) (b : Byte) (hm : m.wf = true) : (Memory.write m a b).wf = true :=
  Memory.write_wfFrom (Nat.zero_le a) hm

/-- Reading the byte that was written. -/
theorem Memory.read_write_same {lo a : Nat} {m : Memory} (b : Byte) (h : lo ≤ a) (hm : Memory.wfFrom lo m = true) :
    Memory.read (Memory.write m a b) a = b := by
  induction m generalizing lo with
  | nil =>
    simp only [Memory.write]
    split
    · simp_all [Memory.read]
    · simp [Memory.read]
  | cons c t ih =>
    obtain ⟨j, w⟩ := c
    simp only [Memory.wfFrom, Bool.and_eq_true, decide_eq_true_eq] at hm
    simp only [Memory.write]
    split
    · rename_i h1
      split
      · simp only [Memory.read]
        rw [if_neg (by omega), if_pos h1]
        simp_all
      · simp [Memory.read]
    · split
      · rename_i h1 h2
        subst h2
        split
        · rw [Memory.read_below (lo := a + 1) (by omega) hm.2]
          simp_all
        · simp [Memory.read]
      · rename_i h1 h2
        simp only [Memory.read]
        rw [if_neg h2, if_neg h1]
        exact ih (by omega) hm.2

/-- A write leaves every other address alone. -/
theorem Memory.read_write_other {lo a x : Nat} {m : Memory} (b : Byte) (h : x ≠ a) (hm : Memory.wfFrom lo m = true) :
    Memory.read (Memory.write m a b) x = Memory.read m x := by
  induction m generalizing lo with
  | nil =>
    simp only [Memory.write]
    split
    · rfl
    · simp only [Memory.read]
      rw [if_neg h]
      split <;> rfl
  | cons c t ih =>
    obtain ⟨j, w⟩ := c
    simp only [Memory.wfFrom, Bool.and_eq_true, decide_eq_true_eq] at hm
    simp only [Memory.write]
    split
    · rename_i h1
      split
      · rfl
      · simp only [Memory.read]
        rw [if_neg h]
        split
        · rename_i h2
          rw [if_neg (by omega), if_pos (by omega)]
        · rfl
    · split
      · rename_i h1 h2
        subst h2
        split
        · simp only [Memory.read]
          rw [if_neg h]
          split
          · rename_i h2
            exact Memory.read_below (lo := a + 1) (by omega) hm.2
          · rfl
        · simp only [Memory.read]
          rw [if_neg h, if_neg h]
      · simp only [Memory.read]
        rw [ih hm.2]

/-- Writing bytes keeps memory in canonical form. -/
theorem Memory.writeBytes_wf {m : Memory} (a : Nat) (bs : List Byte) (hm : m.wf = true) :
    (Memory.writeBytes m a bs).wf = true := by
  induction bs generalizing m a with
  | nil => exact hm
  | cons b bs ih => exact ih (a + 1) (Memory.write_wf a b hm)

/-- Writing bytes leaves every address outside them alone. -/
theorem Memory.read_writeBytes_other {m : Memory} {a x : Nat} (bs : List Byte) (hm : m.wf = true)
    (h : x < a ∨ a + bs.length ≤ x) : Memory.read (Memory.writeBytes m a bs) x = Memory.read m x := by
  induction bs generalizing m a with
  | nil => rfl
  | cons b bs ih =>
    simp only [List.length_cons] at h
    simp only [Memory.writeBytes]
    rw [ih (Memory.write_wf a b hm) (by omega), Memory.read_write_other b (by omega) hm]

/-- Reading an address among the bytes written. -/
theorem Memory.read_writeBytes {m : Memory} {a i : Nat} (bs : List Byte) (hm : m.wf = true) (h : i < bs.length) :
    Memory.read (Memory.writeBytes m a bs) (a + i) = bs[i] := by
  induction bs generalizing m a i with
  | nil => simp at h
  | cons b bs ih =>
    simp only [Memory.writeBytes]
    cases i with
    | zero =>
      rw [Nat.add_zero, Memory.read_writeBytes_other bs (Memory.write_wf a b hm) (by omega)]
      exact Memory.read_write_same b (Nat.zero_le a) hm
    | succ i =>
      have h' : i < bs.length := by simpa using h
      have := ih (m := Memory.write m a b) (a := a + 1) (i := i) (Memory.write_wf a b hm) h'
      rw [show a + 1 + i = a + (i + 1) by omega] at this
      simpa using this

/-- Reading bytes outside those written. -/
theorem Memory.readBytes_writeBytes_other {m : Memory} {a x n : Nat} (bs : List Byte) (hm : m.wf = true)
    (h : x + n ≤ a ∨ a + bs.length ≤ x) :
    Memory.readBytes (Memory.writeBytes m a bs) x n = Memory.readBytes m x n := by
  induction n generalizing x with
  | zero => rfl
  | succ n ih =>
    simp only [Memory.readBytes]
    rw [Memory.read_writeBytes_other bs hm (by omega), ih (by omega)]

/-- Reading back the bytes written. -/
theorem Memory.readBytes_writeBytes {m : Memory} {a : Nat} (bs : List Byte) (hm : m.wf = true) :
    Memory.readBytes (Memory.writeBytes m a bs) a bs.length = bs := by
  have key : ∀ (n k : Nat), k + n = bs.length →
      Memory.readBytes (Memory.writeBytes m a bs) (a + k) n = bs.drop k := by
    intro n
    induction n with
    | zero =>
      intro k hk
      rw [List.drop_eq_nil_of_le (by omega)]
      rfl
    | succ n ih =>
      intro k hk
      have hk' : k < bs.length := by omega
      rw [List.drop_eq_getElem_cons hk']
      simp only [Memory.readBytes]
      rw [Memory.read_writeBytes bs hm hk']
      have := ih (k + 1) (by omega)
      rw [show a + k + 1 = a + (k + 1) by omega, this]
  simpa using key bs.length 0 (by omega)

/-- The numbers of bytes a number is cut into. -/
@[simp] theorem leBytes_length (n x : Nat) : (leBytes n x).length = n := by
  induction n generalizing x with
  | zero => rfl
  | succ n ih => simp [leBytes, ih]

/-- A number read from its own bytes. -/
theorem leNat_leBytes (n x : Nat) : leNat (leBytes n x) = x % 256 ^ n := by
  induction n generalizing x with
  | zero => simp [leBytes, leNat, Nat.mod_one]
  | succ n ih =>
    simp only [leBytes, leNat, ih, BitVec.toNat_ofNat]
    have h : (256 : Nat) ^ (n + 1) = 256 * 256 ^ n := Nat.pow_succ'
    rw [h, Nat.mod_mul]

/-- Reading back a number that was written. -/
theorem Memory.readNat_writeNat {m : Memory} {a : Nat} (n x : Nat) (hm : m.wf = true) :
    Memory.readNat (Memory.writeNat m a n x) a n = x % 256 ^ n := by
  have h := Memory.readBytes_writeBytes (a := a) (leBytes n x) hm
  rw [leBytes_length] at h
  rw [Memory.readNat, Memory.writeNat, h, leNat_leBytes]

/-- Keeping the cells of some addresses keeps the canonical form. -/
theorem Memory.filter_wf {m : Memory} (p : Host.Cell → Bool) (hm : m.wf = true) :
    Memory.wf (List.filter p m) = true := by
  have key : ∀ (lo : Nat), Memory.wfFrom lo m = true → Memory.wfFrom lo (List.filter p m) = true := by
    clear hm
    induction m with
    | nil => intro lo _; rfl
    | cons c t ih =>
      obtain ⟨j, b⟩ := c
      intro lo h
      simp only [Memory.wfFrom, Bool.and_eq_true, decide_eq_true_eq] at h
      simp only [List.filter_cons]
      split
      · simp only [Memory.wfFrom, Bool.and_eq_true, decide_eq_true_eq]
        exact ⟨h.1, ih _ h.2⟩
      · exact Memory.wfFrom_mono (by omega) (ih _ h.2)
  exact key 0 hm

/-- Writing a list of cells keeps memory in canonical form. -/
theorem Memory.writeCells_wf {m : Memory} (cs : List Host.Cell) (hm : m.wf = true) :
    Memory.wf (cs.foldl (fun m c => Memory.write m c.1 c.2) m) = true := by
  induction cs generalizing m with
  | nil => exact hm
  | cons c cs ih => exact ih (Memory.write_wf c.1 c.2 hm)

end Sys2Proof.Machine
end

