-- ==== Sys2Proof/Laws/Kept.lean ====
section
/-!
SUPPORT. What every operation of the model keeps: the queue, the canonical form of memory, the direction of package
time, of the counter of open values and of the anti-rollback version, and the identity read from the fuses. One lemma
for each operation says so, in the form: what is kept from `s₀` to the operation's state is kept to its answer.
-/
namespace Sys2Proof.Machine

/-- The identity of the package: what stage 0 loads from the fuse bank (R973). -/
def Start.ident (x : Start) : Nat × Nat × Nat × W64 := (x.grade, x.stepping, x.tillerMhz, x.serial)

/-- What goes from one state to a later one in every operation but the load of the fuses. -/
structure Kept (s t : State) : Prop where
  pending : t.pending = s.pending
  mem : s.mem.wf = true → t.mem.wf = true
  time : s.timeNs ≤ t.timeNs
  free : s.freeCtr ≤ t.freeCtr
  fuse : s.sunas.fuseVersion ≤ t.sunas.fuseVersion
  ident : t.start.ident = s.start.ident

theorem Kept.refl (s : State) : Kept s s := ⟨rfl, id, le_refl _, le_refl _, le_refl _, rfl⟩

theorem Kept.trans {s t u : State} (h : Kept s t) (k : Kept t u) : Kept s u :=
  ⟨k.pending.trans h.pending, fun w => k.mem (h.mem w), h.time.trans k.time, h.free.trans k.free, h.fuse.trans k.fuse,
   k.ident.trans h.ident⟩

/-- The same for an answer that may be a state, or a state with a value. -/
def KeptIf (s : State) (o : Option State) : Prop := ∀ t, o = some t → Kept s t
def KeptIfSnd {α : Type} (s : State) (o : Option (α × State)) : Prop := ∀ r, o = some r → Kept s r.2
/-- The same for the answer of a command. -/
def KeptOut (s : State) (o : Out) : Prop := ∀ t, o = .next t → Kept s t

/-- The same for an answer that carries a state in either part. -/
def KeptRow (s : State) (r : Except Nat State × State) : Prop := (∀ y, r.1 = .ok y → Kept s y) ∧ Kept s r.2

theorem KeptRow.ok {s y z : State} (h : Kept s y) (k : Kept s z) : KeptRow s (.ok y, z) := by
  refine ⟨fun u hu => ?_, k⟩
  cases hu
  exact h
theorem KeptRow.error {s z : State} {c : Nat} (k : Kept s z) : KeptRow s (.error c, z) := by
  refine ⟨fun u hu => ?_, k⟩
  cases hu

theorem KeptOut.next {s t : State} (h : Kept s t) : KeptOut s (.next t) := by
  intro u hu
  cases hu
  exact h
theorem KeptIf.some {s t : State} (h : Kept s t) : KeptIf s (some t) := by
  intro u hu
  cases hu
  exact h
theorem KeptIf.none {s : State} : KeptIf s none := by intro u hu; cases hu
theorem KeptIfSnd.some {α : Type} {s : State} {r : α × State} (h : Kept s r.2) : KeptIfSnd s (some r) := by
  intro u hu
  cases hu
  exact h
theorem KeptIfSnd.none {α : Type} {s : State} : KeptIfSnd s (none : Option (α × State)) := by intro u hu; cases hu

theorem KeptIfSnd.map {α β : Type} {s : State} {f : α → β × State} (o : Option α) (h : ∀ a, Kept s (f a).2) :
    KeptIfSnd s (o.map f) := by
  intro u hu
  cases o with
  | none => cases hu
  | some a => cases hu; exact h a

/-! The state of a matched answer. -/
theorem Kept.of_snd {α : Type} {s y : State} {r : α × State} {a : α} (e : r = (a, y)) (h : Kept s r.2) : Kept s y := by
  subst e; exact h
theorem Kept.of_thd {α β : Type} {s y : State} {r : α × β × State} {a : α} {b : β} (e : r = (a, b, y))
    (h : Kept s r.2.2) : Kept s y := by
  subst e; exact h
theorem Kept.of_some {s y : State} {o : Option State} (e : o = some y) (h : KeptIf s o) : Kept s y := h y e
theorem Kept.of_some_snd {α : Type} {s y : State} {o : Option (α × State)} {a : α} (e : o = some (a, y))
    (h : KeptIfSnd s o) : Kept s y := h (a, y) e

theorem Kept.of_row {s y z : State} {r : Except Nat State × State} (e : r = (.ok y, z)) (h : KeptRow s r) : Kept s y :=
  h.1 y (by rw [e])
theorem Kept.of_row_snd {s z : State} {r : Except Nat State × State} {x : Except Nat State} (e : r = (x, z))
    (h : KeptRow s r) : Kept s z := by
  subst e; exact h.2

/-! Folds. -/
theorem Kept.foldl {α : Type} {s₀ : State} {f : State → α → State} (hf : ∀ s a, Kept s₀ s → Kept s₀ (f s a))
    {s : State} (l : List α) (h : Kept s₀ s) : Kept s₀ (l.foldl f s) := by
  induction l generalizing s with
  | nil => exact h
  | cons a l ih => exact ih (hf s a h)
theorem Kept.foldl_snd {α β : Type} {s₀ : State} {f : β × State → α → β × State}
    (hf : ∀ r a, Kept s₀ r.2 → Kept s₀ (f r a).2) {r : β × State} (l : List α) (h : Kept s₀ r.2) :
    Kept s₀ (l.foldl f r).2 := by
  induction l generalizing r with
  | nil => exact h
  | cons a l ih => exact ih (hf r a h)

theorem Kept.foldl_thd {α β γ : Type} {s₀ : State} {f : β × γ × State → α → β × γ × State}
    (hf : ∀ r a, Kept s₀ r.2.2 → Kept s₀ (f r a).2.2) {r : β × γ × State} (l : List α) (h : Kept s₀ r.2.2) :
    Kept s₀ (l.foldl f r).2.2 := by
  induction l generalizing r with
  | nil => exact h
  | cons a l ih => exact ih (hf r a h)

/-- A record update. -/
theorem Kept.mk_of {s₀ s : State} (h : Kept s₀ s) {ou : List OutMsg} {tm fc : Nat} {me : Memory} {ba : List Nat}
    {ti : Tbl Tile} {hb : Hbm} {vi : Tbl (List W64)} {pa : Tbl Part} {co : Tbl W64} {re : Regs} {lo : Flash} {ne : Net}
    {su : Sunas} {hu : Tbl Husk} {po : Power} {st : Start} {pl : Places} {op : Optics} {cr : Cores} {ck : Cricket}
    (hm : s.mem.wf = true → me.wf = true) (ht : s.timeNs ≤ tm) (hf : s.freeCtr ≤ fc)
    (hs : s.sunas.fuseVersion ≤ su.fuseVersion) (hi : st.ident = s.start.ident) :
    Kept s₀ ⟨s.pending, ou, tm, fc, me, ba, ti, hb, vi, pa, co, re, lo, ne, su, hu, po, st, pl, op, cr, ck⟩ :=
  h.trans ⟨rfl, hm, ht, hf, hs, hi⟩

/-- The memory of an earlier state put back. -/
theorem Kept.with_mem {s₀ s t : State} (ht : Kept s₀ t) (hs : Kept s₀ s) : Kept s₀ { t with mem := s.mem } :=
  ⟨ht.pending, hs.mem, ht.time, ht.free, ht.fuse, ht.ident⟩

end Sys2Proof.Machine
end

