-- ==== Sys2Proof/Laws/Flags.lean ====
section
/-!
SUPPORT. What the operations of Machine/Flags.lean keep (Laws/Kept.lean).
-/
namespace Sys2Proof.Machine

open Sys2Proof

theorem State.setFlags_kept {s₀ : State} {s : State} (ln : Nat) (v : W32) (hs : Kept s₀ s) :
    Kept s₀ (State.setFlags s ln v) := by
  unfold State.setFlags
  repeat' first
    | with_reducible assumption
    | extract_lets
    | intro _
    | with_reducible apply Kept.mk_of
    | rfl

theorem State.setFlag_kept {s₀ : State} {s : State} (ln : Nat) (b : Nat) (hs : Kept s₀ s) :
    Kept s₀ (State.setFlag s ln b) := by
  unfold State.setFlag
  repeat' first
    | with_reducible assumption
    | with_reducible apply State.setFlags_kept

theorem State.setFlagIf_kept {s₀ : State} {s : State} (c : Bool) (ln : Nat) (b : Nat) (hs : Kept s₀ s) :
    Kept s₀ (State.setFlagIf s c ln b) := by
  unfold State.setFlagIf
  repeat' first
    | with_reducible assumption
    | with_reducible apply State.setFlag_kept
    | split

end Sys2Proof.Machine
end

