-- ==== Sys2Proof/Laws/Ops.lean ====
section
/-!
SUPPORT. What the operations of Machine/Ops.lean keep (Laws/Kept.lean).
-/
namespace Sys2Proof.Machine

open Sys2Proof

theorem State.modTile_kept {s₀ : State} {s : State} (t : Nat) (f : Tile → Tile) (hs : Kept s₀ s) :
    Kept s₀ (State.modTile s t f) := by
  unfold State.modTile
  repeat' first
    | with_reducible assumption
    | fail_if_no_progress (with_reducible apply Kept.mk_of <;> try first | with_reducible rfl | exact id | exact Nat.le_refl _)

theorem State.modArr_kept {s₀ : State} {s : State} (t : Nat) (a : Nat) (f : Arr → Arr) (hs : Kept s₀ s) :
    Kept s₀ (State.modArr s t a f) := by
  unfold State.modArr
  repeat' first
    | with_reducible assumption
    | with_reducible apply State.modTile_kept

theorem State.modCtx_kept {s₀ : State} {s : State} (t : Nat) (c : Nat) (f : Ctx → Ctx) (hs : Kept s₀ s) :
    Kept s₀ (State.modCtx s t c f) := by
  unfold State.modCtx
  repeat' first
    | with_reducible assumption
    | with_reducible apply State.modTile_kept

theorem State.modQueue_kept {s₀ : State} {s : State} (t : Nat) (q : Nat) (f : EngQueue → EngQueue) (hs : Kept s₀ s) :
    Kept s₀ (State.modQueue s t q f) := by
  unfold State.modQueue
  repeat' first
    | with_reducible assumption
    | with_reducible apply State.modTile_kept

theorem State.modRing_kept {s₀ : State} {s : State} (t : Nat) (r : Nat) (f : Ring → Ring) (hs : Kept s₀ s) :
    Kept s₀ (State.modRing s t r f) := by
  unfold State.modRing
  repeat' first
    | with_reducible assumption
    | with_reducible apply State.modTile_kept

theorem State.modStack_kept {s₀ : State} {s : State} (k : Nat) (f : Stack → Stack) (hs : Kept s₀ s) :
    Kept s₀ (State.modStack s k f) := by
  unfold State.modStack
  repeat' first
    | with_reducible assumption
    | extract_lets
    | dsimp +zetaDelta only
    | fail_if_no_progress (with_reducible apply Kept.mk_of <;> try first | with_reducible rfl | exact id | exact Nat.le_refl _)

theorem State.modPart_kept {s₀ : State} {s : State} (p : Nat) (f : Part → Part) (hs : Kept s₀ s) :
    Kept s₀ (State.modPart s p f) := by
  unfold State.modPart
  repeat' first
    | with_reducible assumption
    | fail_if_no_progress (with_reducible apply Kept.mk_of <;> try first | with_reducible rfl | exact id | exact Nat.le_refl _)

theorem State.modHusk_kept {s₀ : State} {s : State} (p : Nat) (f : Husk → Husk) (hs : Kept s₀ s) :
    Kept s₀ (State.modHusk s p f) := by
  unfold State.modHusk
  repeat' first
    | with_reducible assumption
    | fail_if_no_progress (with_reducible apply Kept.mk_of <;> try first | with_reducible rfl | exact id | exact Nat.le_refl _)

theorem State.modIsland_kept {s₀ : State} {s : State} (i : Nat) (f : Island → Island) (hs : Kept s₀ s) :
    Kept s₀ (State.modIsland s i f) := by
  unfold State.modIsland
  repeat' first
    | with_reducible assumption
    | extract_lets
    | dsimp +zetaDelta only
    | fail_if_no_progress (with_reducible apply Kept.mk_of <;> try first | with_reducible rfl | exact id | exact Nat.le_refl _)

theorem State.modNet_kept {s₀ : State} {s : State} (f : Net → Net) (hs : Kept s₀ s) :
    Kept s₀ (State.modNet s f) := by
  unfold State.modNet
  repeat' first
    | with_reducible assumption
    | fail_if_no_progress (with_reducible apply Kept.mk_of <;> try first | with_reducible rfl | exact id | exact Nat.le_refl _)

theorem State.modLog_kept {s₀ : State} {s : State} (f : Flash → Flash) (hs : Kept s₀ s) :
    Kept s₀ (State.modLog s f) := by
  unfold State.modLog
  repeat' first
    | with_reducible assumption
    | fail_if_no_progress (with_reducible apply Kept.mk_of <;> try first | with_reducible rfl | exact id | exact Nat.le_refl _)

theorem State.modSunas_kept {s₀ : State} {s : State} (f : Sunas → Sunas) (hs : Kept s₀ s) (hf : ∀ u, u.fuseVersion ≤ (f u).fuseVersion) :
    Kept s₀ (State.modSunas s f) := by
  exact hs.trans ⟨rfl, id, le_refl _, le_refl _, hf _, rfl⟩

theorem State.modPower_kept {s₀ : State} {s : State} (f : Power → Power) (hs : Kept s₀ s) :
    Kept s₀ (State.modPower s f) := by
  unfold State.modPower
  repeat' first
    | with_reducible assumption
    | fail_if_no_progress (with_reducible apply Kept.mk_of <;> try first | with_reducible rfl | exact id | exact Nat.le_refl _)

theorem State.modStart_kept {s₀ : State} {s : State} (f : Start → Start) (hs : Kept s₀ s) (hf : ∀ x, (f x).ident = x.ident) :
    Kept s₀ (State.modStart s f) := by
  exact hs.trans ⟨rfl, id, le_refl _, le_refl _, le_refl _, hf _⟩

theorem State.modConn_kept {s₀ : State} {s : State} (c : Nat) (f : Conn → Conn) (hs : Kept s₀ s) :
    Kept s₀ (State.modConn s c f) := by
  unfold State.modConn
  repeat' first
    | with_reducible assumption
    | with_reducible apply State.modNet_kept

theorem State.modMbox_kept {s₀ : State} {s : State} (m : Nat) (f : Mbox → Mbox) (hs : Kept s₀ s) :
    Kept s₀ (State.modMbox s m f) := by
  unfold State.modMbox
  repeat' first
    | with_reducible assumption
    | with_reducible apply State.modSunas_kept
    | extract_lets
    | intro _
    | dsimp +zetaDelta only
    | with_reducible rfl

theorem State.emit_kept {s₀ : State} {s : State} (m : OutMsg) (hs : Kept s₀ s) :
    Kept s₀ (State.emit s m) := by
  unfold State.emit
  repeat' first
    | with_reducible assumption
    | fail_if_no_progress (with_reducible apply Kept.mk_of <;> try first | with_reducible rfl | exact id | exact Nat.le_refl _)

theorem State.fresh_kept {s₀ : State} {s : State} (w : Nat) (hs : Kept s₀ s) :
    Kept s₀ (State.fresh s w).2 := by
  unfold State.fresh
  repeat' first
    | with_reducible assumption
    | extract_lets
    | dsimp +zetaDelta only
    | fail_if_no_progress (with_reducible apply Kept.mk_of <;> try first | with_reducible rfl | exact id | exact Nat.le_refl _)
    | exact Nat.le_succ _

theorem State.forN_kept {s₀ : State} {s : State} (n : Nat) (f : State → Nat → State) (hs : Kept s₀ s) (hf : ∀ (x0 : State) (x1 : Nat), Kept s₀ x0 → Kept s₀ (f x0 x1)) :
    Kept s₀ (State.forN s n f) := by
  unfold State.forN
  repeat' first
    | with_reducible assumption
    | with_reducible apply Kept.foldl

theorem State.logEv_kept {s₀ : State} {s : State} (name : String) (source : Nat) (index : Nat) (partition : Nat) (detail : List (Nat × Nat)) (hs : Kept s₀ s) :
    Kept s₀ (State.logEv s name source index partition detail) := by
  unfold State.logEv
  repeat' first
    | with_reducible assumption
    | with_reducible apply State.modLog_kept
    | with_reducible apply State.setFlag_kept
    | extract_lets
    | split

theorem State.logPart_kept {s₀ : State} {s : State} (name : String) (source : Nat) (index : Nat) (partition : Nat) (detail : List (Nat × Nat)) (hs : Kept s₀ s) :
    Kept s₀ (State.logPart s name source index partition detail) := by
  unfold State.logPart
  repeat' first
    | with_reducible assumption
    | with_reducible apply State.modLog_kept
    | with_reducible apply State.setFlag_kept
    | extract_lets
    | split

theorem State.chargeStack_kept {s₀ : State} {s : State} (k : Nat) (p : Nat) (charge : Nat) (hs : Kept s₀ s) :
    Kept s₀ (State.chargeStack s k p charge) := by
  unfold State.chargeStack
  repeat' first
    | with_reducible assumption
    | with_reducible apply State.modStack_kept
    | split

theorem State.chargeHbm_kept {s₀ : State} {s : State} (p : Nat) (write : Bool) (a : Nat) (n : Nat) (hs : Kept s₀ s) :
    Kept s₀ (State.chargeHbm s p write a n) := by
  unfold State.chargeHbm
  repeat' first
    | with_reducible assumption
    | with_reducible apply State.forN_kept
    | with_reducible apply State.chargeStack_kept
    | extract_lets
    | split
    | intro _

theorem State.scramble_kept {s₀ : State} {s : State} (lo : Nat) (hi : Nat) (hs : Kept s₀ s) :
    Kept s₀ (State.scramble s lo hi) := by
  unfold State.scramble
  repeat' first
    | with_reducible assumption
    | extract_lets
    | intro _
    | dsimp +zetaDelta only
    | fail_if_no_progress (with_reducible apply Kept.mk_of <;> try first | with_reducible rfl | exact id | exact Nat.le_refl _)
    | with_reducible apply Memory.writeCells_wf
    | with_reducible apply Memory.filter_wf
    | exact Nat.le_succ _

theorem State.scrambleAll_kept {s₀ : State} {s : State} (rs : List (Nat × Nat)) (hs : Kept s₀ s) :
    Kept s₀ (State.scrambleAll s rs) := by
  unfold State.scrambleAll
  repeat' first
    | with_reducible assumption
    | with_reducible apply State.scramble_kept
    | with_reducible apply Kept.foldl
    | extract_lets
    | intro _

theorem State.poke_kept {s₀ : State} {s : State} (a : Nat) (bs : List Byte) (hs : Kept s₀ s) :
    Kept s₀ (State.poke s a bs) := by
  unfold State.poke
  repeat' first
    | with_reducible assumption
    | extract_lets
    | intro _
    | fail_if_no_progress (with_reducible apply Kept.mk_of <;> try first | with_reducible rfl | exact id | exact Nat.le_refl _)
    | with_reducible apply Memory.writeBytes_wf

theorem State.savePart_kept {s₀ : State} {s : State} (p : Nat) (part : Nat) (hs : Kept s₀ s) :
    Kept s₀ (State.savePart s p part) := by
  unfold State.savePart
  repeat' first
    | with_reducible assumption
    | with_reducible apply State.scramble_kept
    | with_reducible apply State.modHusk_kept
    | with_reducible apply State.chargeStack_kept

theorem State.cow_kept {s₀ : State} {s : State} (p : Nat) (a : Nat) (n : Nat) (hs : Kept s₀ s) :
    KeptIf s₀ (State.cow s p a n) := by
  unfold State.cow
  repeat' first
    | with_reducible assumption
    | with_reducible apply State.savePart_kept
    | with_reducible apply Kept.foldl
    | with_reducible apply KeptIf.none
    | with_reducible apply KeptIf.some
    | extract_lets
    | split
    | intro _

theorem State.storeSince_kept {s₀ : State} {s : State} (since : Nat) (a : Nat) (bs : List Byte) (hs : Kept s₀ s) :
    Kept s₀ (State.storeSince s since a bs) := by
  unfold State.storeSince
  repeat' first
    | with_reducible assumption
    | with_reducible apply State.poke_kept
    | with_reducible apply State.modHusk_kept
    | with_reducible apply State.cow_kept
    | with_reducible apply Kept.of_some (by assumption)
    | extract_lets
    | split

theorem State.storeGranule_kept {s₀ : State} {s : State} (a : Nat) (bs : List Byte) (hs : Kept s₀ s) :
    Kept s₀ (State.storeGranule s a bs) := by
  unfold State.storeGranule
  repeat' first
    | with_reducible assumption
    | with_reducible apply State.storeSince_kept

theorem State.storeFuel_kept {s₀ : State} (a1 : Nat) {a2 : State} (a3 : Nat) (a4 : List Byte) (ha2 : Kept s₀ a2) :
    Kept s₀ (State.storeFuel a1 a2 a3 a4) := by
  induction a1 generalizing a2 a3 a4 ha2 with
  | zero =>
    unfold State.storeFuel
    repeat' first
      | with_reducible assumption
  | succ i ih =>
    unfold State.storeFuel
    repeat' first
      | with_reducible assumption
      | with_reducible apply ih
      | with_reducible apply State.storeGranule_kept
      | extract_lets
      | split

theorem State.store_kept {s₀ : State} {s : State} (a : Nat) (bs : List Byte) (hs : Kept s₀ s) :
    Kept s₀ (State.store s a bs) := by
  unfold State.store
  repeat' first
    | with_reducible assumption
    | with_reducible apply State.storeFuel_kept
    | with_reducible apply State.poke_kept
    | split

end Sys2Proof.Machine
end

