-- ==== Sys2Proof/Laws/Work.lean ====
section
/-!
SUPPORT. What the operations of Machine/Work.lean keep (Laws/Kept.lean).
-/
namespace Sys2Proof.Machine

open Sys2Proof

theorem State.keysFrom_kept {s₀ : State} {s : State} {old : State} (hs : Kept s₀ s) (hold : Kept s₀ old) :
    Kept s₀ (State.keysFrom s old) := by
  unfold State.keysFrom
  repeat' first
    | with_reducible assumption
    | with_reducible apply State.setFlagIf_kept

theorem State.offerTail_kept {s₀ : State} {s : State} (t : Nat) (r : Nat) (new : W32) (hs : Kept s₀ s) :
    Kept s₀ (State.offerTail s t r new) := by
  unfold State.offerTail
  repeat' first
    | with_reducible assumption
    | with_reducible apply State.modRing_kept
    | with_reducible apply State.setFlag_kept
    | split

theorem State.ctFire_kept {s₀ : State} {s : State} (t : Nat) (h : Nat) (hs : Kept s₀ s) :
    Kept s₀ (State.ctFire s t h) := by
  unfold State.ctFire
  repeat' first
    | with_reducible assumption
    | with_reducible apply State.setFlag_kept
    | with_reducible apply State.modTile_kept

theorem State.ctrSet_kept {s₀ : State} {s : State} (n : Nat) (v : W64) (hs : Kept s₀ s) :
    Kept s₀ (State.ctrSet s n v) := by
  unfold State.ctrSet
  repeat' first
    | with_reducible assumption
    | with_reducible apply State.offerTail_kept
    | with_reducible apply State.ctFire_kept
    | with_reducible apply Kept.foldl
    | extract_lets
    | split
    | intro _
    | dsimp +zetaDelta only
    | fail_if_no_progress (with_reducible apply Kept.mk_of <;> try first | with_reducible rfl | exact id | exact Nat.le_refl _)

theorem State.ctrAdd_kept {s₀ : State} {s : State} (n : Nat) (x : W64) (hs : Kept s₀ s) :
    Kept s₀ (State.ctrAdd s n x) := by
  unfold State.ctrAdd
  repeat' first
    | with_reducible assumption
    | with_reducible apply State.ctrSet_kept

theorem State.ibi_kept {s₀ : State} {s : State} (b : Nat) (hs : Kept s₀ s) :
    Kept s₀ (State.ibi s b) := by
  unfold State.ibi
  repeat' first
    | with_reducible assumption
    | with_reducible apply State.emit_kept
    | split

theorem State.notify_kept {s₀ : State} {s : State} (kind : Nat) (part : Option Nat) (detail : List Nat) (hs : Kept s₀ s) :
    Kept s₀ (State.notify s kind part detail) := by
  unfold State.notify
  repeat' first
    | with_reducible assumption
    | with_reducible apply State.store_kept
    | with_reducible apply State.ctrAdd_kept
    | with_reducible apply State.modSunas_kept
    | with_reducible apply State.logEv_kept
    | extract_lets
    | split
    | intro _
    | dsimp +zetaDelta only
    | with_reducible rfl

theorem State.raiseService_kept {s₀ : State} {s : State} (kind : Nat) (idx : Nat) (hs : Kept s₀ s) :
    Kept s₀ (State.raiseService s kind idx) := by
  unfold State.raiseService
  repeat' first
    | with_reducible assumption
    | with_reducible apply State.ibi_kept
    | with_reducible apply State.notify_kept
    | with_reducible apply State.setFlag_kept
    | with_reducible apply State.modLog_kept
    | split

theorem State.clearService_kept {s₀ : State} {s : State} (kind : Nat) (idx : Nat) (hs : Kept s₀ s) :
    Kept s₀ (State.clearService s kind idx) := by
  unfold State.clearService
  repeat' first
    | with_reducible assumption
    | with_reducible apply State.ibi_kept
    | with_reducible apply State.notify_kept
    | with_reducible apply State.setFlag_kept
    | with_reducible apply State.modLog_kept
    | split

theorem State.cricketReply_kept {s₀ : State} {s : State} (bs : List Byte) (hs : Kept s₀ s) :
    Kept s₀ (State.cricketReply s bs) := by
  unfold State.cricketReply
  repeat' first
    | with_reducible assumption
    | extract_lets
    | dsimp +zetaDelta only
    | fail_if_no_progress (with_reducible apply Kept.mk_of <;> try first | with_reducible rfl | exact id | exact Nat.le_refl _)

theorem State.writeResponse_kept {s₀ : State} {s : State} (m : Nat) (status : Nat) (detail : Nat) (payload : List Byte) (hs : Kept s₀ s) :
    Kept s₀ (State.writeResponse s m status detail payload) := by
  unfold State.writeResponse
  repeat' first
    | with_reducible assumption
    | with_reducible apply State.poke_kept
    | with_reducible apply State.setFlag_kept
    | with_reducible apply State.modMbox_kept
    | with_reducible apply State.ibi_kept
    | with_reducible apply State.cricketReply_kept
    | extract_lets
    | split

theorem State.respond_kept {s₀ : State} {s : State} (m : Nat) (status : Nat) (detail : Nat) (payload : List Byte) (hs : Kept s₀ s) :
    Kept s₀ (State.respond s m status detail payload) := by
  unfold State.respond
  repeat' first
    | with_reducible assumption
    | with_reducible apply State.writeResponse_kept
    | with_reducible apply State.ctrAdd_kept
    | extract_lets
    | split

theorem State.respondWaiting_kept {s₀ : State} {s : State} (w : CmdWait) (status : Nat) (detail : Nat) (payload : List Byte) (hs : Kept s₀ s) :
    Kept s₀ (State.respondWaiting s w status detail payload) := by
  unfold State.respondWaiting
  repeat' first
    | with_reducible assumption
    | with_reducible apply State.respond_kept
    | with_reducible apply Kept.foldl
    | extract_lets
    | intro _

theorem State.endTicket_kept {s₀ : State} {s : State} (n : Nat) (status : Nat) (hs : Kept s₀ s) :
    Kept s₀ (State.endTicket s n status) := by
  unfold State.endTicket
  repeat' first
    | with_reducible assumption
    | with_reducible apply State.modSunas_kept
    | with_reducible apply State.respondWaiting_kept
    | with_reducible apply State.notify_kept
    | with_reducible apply State.ctrAdd_kept
    | extract_lets
    | split
    | intro _
    | dsimp +zetaDelta only
    | with_reducible rfl

theorem State.endTickets_kept {s₀ : State} {s : State} (f : Ticket → Bool) (hs : Kept s₀ s) :
    Kept s₀ (State.endTickets s f) := by
  unfold State.endTickets
  repeat' first
    | with_reducible assumption
    | with_reducible apply State.endTicket_kept
    | with_reducible apply Kept.foldl
    | extract_lets
    | intro _

theorem State.writeRecord_kept {s₀ : State} {s : State} (t : Nat) (r : Nat) (tag : Nat) (index : Nat) (status : Nat) (f : FaultRec) (discarded : Nat) (other : Nat) (ret : Nat) (hs : Kept s₀ s) :
    Kept s₀ (State.writeRecord s t r tag index status f discarded other ret) := by
  unfold State.writeRecord
  repeat' first
    | with_reducible assumption
    | with_reducible apply State.store_kept
    | with_reducible apply State.chargeHbm_kept
    | with_reducible apply State.modRing_kept
    | with_reducible apply State.modTile_kept
    | extract_lets
    | split

theorem State.countEntry_kept {s₀ : State} {s : State} (t : Nat) (r : Nat) (status : Nat) (hs : Kept s₀ s) :
    Kept s₀ (State.countEntry s t r status) := by
  unfold State.countEntry
  repeat' first
    | with_reducible assumption
    | with_reducible apply State.modTile_kept
    | with_reducible apply State.setFlag_kept
    | with_reducible apply State.modRing_kept
    | extract_lets
    | split

theorem State.updSafe_kept {s₀ : State} {s : State} (hs : Kept s₀ s) :
    Kept s₀ (State.updSafe s) := by
  unfold State.updSafe
  repeat' first
    | with_reducible assumption
    | with_reducible apply State.logEv_kept
    | with_reducible apply State.modPower_kept
    | extract_lets
    | split

theorem State.partSettle_kept {s₀ : State} {s : State} (p : Nat) (hs : Kept s₀ s) :
    Kept s₀ (State.partSettle s p) := by
  unfold State.partSettle
  repeat' first
    | with_reducible assumption
    | with_reducible apply State.updSafe_kept
    | with_reducible apply State.respondWaiting_kept
    | with_reducible apply State.modPart_kept
    | split

theorem State.endEntry_kept {s₀ : State} {s : State} (t : Nat) (c : Nat) (status : Nat) (f : FaultRec) (ret : Nat) (hs : Kept s₀ s) :
    Kept s₀ (State.endEntry s t c status f ret) := by
  unfold State.endEntry
  repeat' first
    | with_reducible assumption
    | with_reducible apply State.ctrAdd_kept
    | with_reducible apply State.writeRecord_kept
    | with_reducible apply State.countEntry_kept
    | with_reducible apply State.modTile_kept
    | with_reducible apply State.modRing_kept
    | with_reducible apply State.partSettle_kept
    | with_reducible apply State.modCtx_kept
    | extract_lets
    | split

theorem State.openRecord_kept {s₀ : State} {s : State} (code : Nat) (hs : Kept s₀ s) :
    Kept s₀ (State.openRecord s code).2 := by
  unfold State.openRecord
  repeat' first
    | with_reducible assumption
    | with_reducible apply State.fresh_kept

theorem State.discard_kept {s₀ : State} {s : State} (t : Nat) (c : Nat) (hs : Kept s₀ s) :
    Kept s₀ (State.discard s t c) := by
  unfold State.discard
  repeat' first
    | with_reducible assumption
    | with_reducible apply State.modTile_kept
    | with_reducible apply State.modCtx_kept

theorem State.ctxFault_kept {s₀ : State} {s : State} (t : Nat) (c : Nat) (f : FaultRec) (unconfirmed : Bool) (hs : Kept s₀ s) :
    Kept s₀ (State.ctxFault s t c f unconfirmed) := by
  unfold State.ctxFault
  repeat' first
    | with_reducible assumption
    | with_reducible apply State.discard_kept
    | with_reducible apply State.modCtx_kept
    | extract_lets
    | split

theorem State.ctxCancel_kept {s₀ : State} {s : State} (t : Nat) (c : Nat) (hs : Kept s₀ s) :
    Kept s₀ (State.ctxCancel s t c) := by
  unfold State.ctxCancel
  repeat' first
    | with_reducible assumption
    | with_reducible apply State.discard_kept
    | with_reducible apply State.modCtx_kept
    | extract_lets
    | split

theorem State.coreNext_kept {s₀ : State} {s : State} (t : Nat) (k : Nat) (hs : Kept s₀ s) :
    Kept s₀ (State.coreNext s t k) := by
  unfold State.coreNext
  repeat' first
    | with_reducible assumption
    | with_reducible apply State.modTile_kept
    | with_reducible apply State.modCtx_kept
    | extract_lets
    | split

theorem State.cancelWhere_kept {s₀ : State} {s : State} (t : Nat) (f : Ctx → Bool) (hs : Kept s₀ s) :
    Kept s₀ (State.cancelWhere s t f) := by
  unfold State.cancelWhere
  repeat' first
    | with_reducible assumption
    | with_reducible apply State.forN_kept
    | with_reducible apply State.ctxCancel_kept
    | with_reducible apply State.coreNext_kept
    | with_reducible apply Kept.foldl
    | extract_lets
    | intro _

theorem State.ringDisable_kept {s₀ : State} {s : State} (t : Nat) (r : Nat) (hs : Kept s₀ s) :
    Kept s₀ (State.ringDisable s t r) := by
  unfold State.ringDisable
  repeat' first
    | with_reducible assumption
    | with_reducible apply State.modTile_kept
    | with_reducible apply State.cancelWhere_kept
    | with_reducible apply State.modRing_kept

theorem State.releaseHeld_kept {s₀ : State} {s : State} (p : Nat) (hs : Kept s₀ s) :
    Kept s₀ (State.releaseHeld s p) := by
  unfold State.releaseHeld
  repeat' first
    | with_reducible assumption
    | with_reducible apply State.storeSince_kept
    | with_reducible apply State.modHusk_kept
    | with_reducible apply Kept.foldl
    | extract_lets
    | intro _

theorem State.huskFails_kept {s₀ : State} {s : State} (p : Nat) (hs : Kept s₀ s) :
    Kept s₀ (State.huskFails s p) := by
  unfold State.huskFails
  repeat' first
    | with_reducible assumption
    | with_reducible apply State.fresh_kept
    | with_reducible apply State.respondWaiting_kept
    | with_reducible apply State.endTicket_kept
    | with_reducible apply Kept.foldl
    | extract_lets
    | intro _

theorem State.huskAbandon_kept {s₀ : State} {s : State} (p : Nat) (name : String) (hs : Kept s₀ s) :
    Kept s₀ (State.huskAbandon s p name) := by
  unfold State.huskAbandon
  repeat' first
    | with_reducible assumption
    | with_reducible apply State.modHusk_kept
    | with_reducible apply State.releaseHeld_kept
    | with_reducible apply State.ctrAdd_kept
    | with_reducible apply State.huskFails_kept
    | with_reducible apply State.setFlag_kept
    | with_reducible apply State.logEv_kept
    | extract_lets
    | split
    | dsimp +zetaDelta only
    | fail_if_no_progress (with_reducible apply Kept.mk_of <;> try first | with_reducible rfl | exact id | exact Nat.le_refl _)

theorem State.partReset_kept {s₀ : State} {s : State} (p : Nat) (hs : Kept s₀ s) :
    Kept s₀ (State.partReset s p) := by
  unfold State.partReset
  repeat' first
    | with_reducible assumption
    | with_reducible apply State.cancelWhere_kept
    | with_reducible apply State.modNet_kept
    | with_reducible apply State.huskAbandon_kept
    | with_reducible apply State.forN_kept
    | with_reducible apply State.modArr_kept
    | with_reducible apply State.partSettle_kept
    | with_reducible apply State.modPart_kept
    | with_reducible apply Kept.foldl
    | extract_lets
    | split
    | intro _
    | dsimp +zetaDelta only
    | fail_if_no_progress (with_reducible apply Kept.mk_of <;> try first | with_reducible rfl | exact id | exact Nat.le_refl _)

theorem State.tillerOffline_kept {s₀ : State} {s : State} (t : Nat) (service : Bool) (hs : Kept s₀ s) :
    Kept s₀ (State.tillerOffline s t service) := by
  unfold State.tillerOffline
  repeat' first
    | with_reducible assumption
    | with_reducible apply State.scrambleAll_kept
    | with_reducible apply State.fresh_kept
    | with_reducible apply State.ctrAdd_kept
    | with_reducible apply State.modTile_kept
    | with_reducible apply State.modCtx_kept
    | with_reducible apply State.endEntry_kept
    | with_reducible apply State.logEv_kept
    | with_reducible apply State.keysFrom_kept
    | with_reducible apply State.modIsland_kept
    | with_reducible apply State.raiseService_kept
    | with_reducible apply Kept.foldl
    | with_reducible apply Kept.of_snd (by assumption)
    | extract_lets
    | split
    | intro _
    | dsimp +zetaDelta only
    | fail_if_no_progress (with_reducible apply Kept.mk_of <;> try first | with_reducible rfl | exact id | exact Nat.le_refl _)

theorem State.movePoison_kept {s₀ : State} {s : State} {t : State} (hs : Kept s₀ s) (ht : Kept s₀ t) :
    Kept s₀ (State.movePoison s t) := by
  unfold State.movePoison
  repeat' first
    | with_reducible assumption
    | extract_lets
    | dsimp +zetaDelta only
    | fail_if_no_progress (with_reducible apply Kept.mk_of <;> try first | with_reducible rfl | exact id | exact Nat.le_refl _)

theorem State.setStackSt_kept {s₀ : State} {s : State} (k : Nat) (st : Nat) (hs : Kept s₀ s) :
    Kept s₀ (State.setStackSt s k st) := by
  unfold State.setStackSt
  repeat' first
    | with_reducible assumption
    | with_reducible apply State.setFlag_kept
    | with_reducible apply State.modStack_kept
    | split

theorem State.stackLost_kept {s₀ : State} {s : State} (k : Nat) (hs : Kept s₀ s) :
    Kept s₀ (State.stackLost s k) := by
  unfold State.stackLost
  repeat' first
    | with_reducible assumption
    | with_reducible apply State.forN_kept
    | with_reducible apply State.partReset_kept
    | with_reducible apply State.scramble_kept
    | with_reducible apply State.raiseService_kept
    | with_reducible apply State.logEv_kept
    | with_reducible apply State.movePoison_kept
    | with_reducible apply State.setStackSt_kept
    | extract_lets
    | split
    | intro _
    | dsimp +zetaDelta only

theorem State.hbmCe_kept {s₀ : State} {s : State} (pa : Nat) (hs : Kept s₀ s) :
    Kept s₀ (State.hbmCe s pa) := by
  unfold State.hbmCe
  repeat' first
    | with_reducible assumption
    | with_reducible apply State.setFlag_kept
    | with_reducible apply State.modStack_kept
    | split

theorem State.hbmUe_kept {s₀ : State} {s : State} (pa : Nat) (hs : Kept s₀ s) :
    Kept s₀ (State.hbmUe s pa) := by
  unfold State.hbmUe
  repeat' first
    | with_reducible assumption
    | with_reducible apply State.poke_kept
    | with_reducible apply State.modStack_kept
    | with_reducible apply State.logEv_kept
    | with_reducible apply State.setFlag_kept
    | with_reducible apply State.stackLost_kept
    | extract_lets
    | split
    | dsimp +zetaDelta only
    | fail_if_no_progress (with_reducible apply Kept.mk_of <;> try first | with_reducible rfl | exact id | exact Nat.le_refl _)

theorem State.bankRetire_kept {s₀ : State} {s : State} (t : Nat) (b : Nat) (hs : Kept s₀ s) :
    Kept s₀ (State.bankRetire s t b) := by
  unfold State.bankRetire
  repeat' first
    | with_reducible assumption
    | with_reducible apply State.cancelWhere_kept
    | with_reducible apply State.modTile_kept
    | with_reducible apply State.logEv_kept
    | with_reducible apply State.scramble_kept
    | with_reducible apply State.tillerOffline_kept
    | extract_lets
    | split

theorem State.bankFailing_kept {s₀ : State} {s : State} (t : Nat) (b : Nat) (hs : Kept s₀ s) :
    Kept s₀ (State.bankFailing s t b) := by
  unfold State.bankFailing
  repeat' first
    | with_reducible assumption
    | with_reducible apply State.bankRetire_kept
    | with_reducible apply State.modTile_kept
    | extract_lets
    | split

theorem State.spmCe_kept {s₀ : State} {s : State} (t : Nat) (off : Nat) (hs : Kept s₀ s) :
    Kept s₀ (State.spmCe s t off) := by
  unfold State.spmCe
  repeat' first
    | with_reducible assumption
    | with_reducible apply State.modTile_kept
    | with_reducible apply State.bankFailing_kept
    | extract_lets
    | split

theorem State.noteCe_kept {s₀ : State} {s : State} (g : Nat) (hs : Kept s₀ s) :
    Kept s₀ (State.noteCe s g) := by
  unfold State.noteCe
  repeat' first
    | with_reducible assumption
    | with_reducible apply State.modArr_kept
    | with_reducible apply State.spmCe_kept
    | with_reducible apply State.hbmCe_kept
    | extract_lets
    | split

theorem State.noteUe_kept {s₀ : State} {s : State} (g : Nat) (hs : Kept s₀ s) :
    Kept s₀ (State.noteUe s g) := by
  unfold State.noteUe
  repeat' first
    | with_reducible assumption
    | with_reducible apply State.setFlag_kept
    | with_reducible apply State.modArr_kept
    | with_reducible apply State.bankFailing_kept
    | with_reducible apply State.hbmUe_kept
    | extract_lets
    | split
    | fail_if_no_progress (with_reducible apply Kept.mk_of <;> try first | with_reducible rfl | exact id | exact Nat.le_refl _)

theorem State.readErr_kept {s₀ : State} {s : State} (mf : MemFaults) (a : Nat) (n : Nat) (hs : Kept s₀ s) :
    Kept s₀ (State.readErr s mf a n).2 := by
  unfold State.readErr
  repeat' first
    | with_reducible assumption
    | with_reducible apply State.noteCe_kept
    | with_reducible apply State.noteUe_kept
    | with_reducible apply Kept.foldl
    | extract_lets
    | split
    | dsimp +zetaDelta only

theorem State.mergeErr_kept {s₀ : State} {s : State} (mf : MemFaults) (a : Nat) (n : Nat) (hs : Kept s₀ s) :
    Kept s₀ (State.mergeErr s mf a n).2 := by
  unfold State.mergeErr
  repeat' first
    | with_reducible assumption
    | with_reducible apply State.noteUe_kept
    | split

theorem State.storeChecked_kept {s₀ : State} {s : State} (mf : MemFaults) (a : Nat) (bs : List Byte) (hs : Kept s₀ s) :
    Kept s₀ (State.storeChecked s mf a bs).2 := by
  unfold State.storeChecked
  repeat' first
    | with_reducible assumption
    | with_reducible apply State.mergeErr_kept
    | with_reducible apply State.store_kept
    | with_reducible apply Kept.of_snd (by assumption)
    | split

theorem State.load_kept {s₀ : State} {s : State} (mf : MemFaults) (a : Nat) (n : Nat) (hs : Kept s₀ s) :
    Kept s₀ (State.load s mf a n).2 := by
  unfold State.load
  repeat' first
    | with_reducible assumption
    | with_reducible apply State.readErr_kept
    | with_reducible apply Kept.of_snd (by assumption)
    | split

end Sys2Proof.Machine
end

