-- ==== Sys2Proof/Laws/Sequencer.lean ====
section
/-!
SUPPORT. What the operations of Machine/Sequencer.lean keep (Laws/Kept.lean).
-/
namespace Sys2Proof.Machine

open Sys2Proof

theorem State.leave_kept {s₀ : State} {s : State} (t : Nat) (c : Nat) (st : CtxState) (w : CtxWait) (hs : Kept s₀ s) :
    Kept s₀ (State.leave s t c st w) := by
  unfold State.leave
  repeat' first
    | with_reducible assumption
    | with_reducible apply State.coreNext_kept
    | with_reducible apply State.modCtx_kept

theorem State.wake_kept {s₀ : State} {s : State} (t : Nat) (c : Nat) (f : Ctx → Ctx) (hs : Kept s₀ s) :
    Kept s₀ (State.wake s t c f) := by
  unfold State.wake
  repeat' first
    | with_reducible assumption
    | with_reducible apply State.coreNext_kept
    | with_reducible apply State.modCtx_kept

theorem State.seqFault_kept {s₀ : State} {s : State} (t : Nat) (c : Nat) (code : Nat) (info : Nat) (hs : Kept s₀ s) :
    Kept s₀ (State.seqFault s t c code info) := by
  unfold State.seqFault
  repeat' first
    | with_reducible assumption
    | with_reducible apply State.coreNext_kept
    | with_reducible apply State.ctxFault_kept

theorem State.next_kept {s₀ : State} {s : State} (t : Nat) (c : Nat) (rd : Nat) (v : W64) (hs : Kept s₀ s) :
    Kept s₀ (State.next s t c rd v) := by
  unfold State.next
  repeat' first
    | with_reducible assumption
    | with_reducible apply State.modCtx_kept

theorem State.fetch_kept {s₀ : State} {s : State} (mf : MemFaults) (t : Nat) (c : Nat) (hs : Kept s₀ s) :
    Kept s₀ (State.fetch s mf t c).2 := by
  unfold State.fetch
  repeat' first
    | with_reducible assumption
    | with_reducible apply State.load_kept
    | with_reducible apply State.chargeHbm_kept
    | with_reducible apply Kept.of_snd (by assumption)
    | extract_lets
    | split

theorem State.runInstr_kept {s₀ : State} {s : State} (t : Fin 4) (c : Fin 128) (mf : MemFaults) (is : W128 → Bool) (body : W128 → Ctx → State → State) (hs : Kept s₀ s) (hbody : ∀ (x0 : W128) (x1 : Ctx) (x2 : State), Kept s₀ x2 → Kept s₀ (body x0 x1 x2)) :
    Kept s₀ (State.runInstr s t c mf is body) := by
  unfold State.runInstr
  repeat' first
    | with_reducible assumption
    | with_reducible apply hbody
    | with_reducible apply State.fetch_kept
    | with_reducible apply State.seqFault_kept
    | with_reducible apply Kept.of_snd (by assumption)
    | split

theorem State.jump_kept {s₀ : State} {s : State} (t : Nat) (c : Nat) (target : W64) (rd : Nat) (hs : Kept s₀ s) :
    Kept s₀ (State.jump s t c target rd) := by
  unfold State.jump
  repeat' first
    | with_reducible assumption
    | with_reducible apply State.seqFault_kept
    | with_reducible apply State.modCtx_kept
    | extract_lets
    | split

theorem State.enqueue_kept {s₀ : State} {s : State} (t : Nat) (c : Nat) (code : Nat) (w : W128) (hs : Kept s₀ s) :
    Kept s₀ (State.enqueue s t c code w) := by
  unfold State.enqueue
  repeat' first
    | with_reducible assumption
    | with_reducible apply State.leave_kept
    | with_reducible apply State.modQueue_kept
    | with_reducible apply State.modTile_kept
    | with_reducible apply State.next_kept
    | extract_lets
    | split

theorem State.endProgram_kept {s₀ : State} {s : State} (t : Nat) (c : Nat) (abort : Option Nat) (hs : Kept s₀ s) :
    Kept s₀ (State.endProgram s t c abort) := by
  unfold State.endProgram
  repeat' first
    | with_reducible assumption
    | with_reducible apply State.leave_kept
    | with_reducible apply State.modCtx_kept

theorem State.fenceOn_kept {s₀ : State} {s : State} (t : Nat) (c : Nat) (ids : List Nat) (hs : Kept s₀ s) :
    Kept s₀ (State.fenceOn s t c ids) := by
  unfold State.fenceOn
  repeat' first
    | with_reducible assumption
    | with_reducible apply State.next_kept
    | with_reducible apply State.leave_kept
    | split

theorem State.pickRing_kept {s₀ : State} {s : State} (t : Nat) (hs : Kept s₀ s) :
    KeptIfSnd s₀ (State.pickRing s t) := by
  unfold State.pickRing
  dsimp only
  split
  · exact KeptIfSnd.none
  · refine KeptIfSnd.map _ fun a => State.modTile_kept _ _ ?_
    split
    · exact hs
    · exact State.modTile_kept _ _ hs

theorem State.endNoCtx_kept {s₀ : State} {s : State} (t : Nat) (r : Nat) (index : Nat) (status : Nat) (w : Nat → Nat) (f : FaultRec) (hs : Kept s₀ s) :
    Kept s₀ (State.endNoCtx s t r index status w f) := by
  unfold State.endNoCtx
  repeat' first
    | with_reducible assumption
    | with_reducible apply State.ctrAdd_kept
    | with_reducible apply State.fresh_kept
    | with_reducible apply State.writeRecord_kept
    | with_reducible apply State.countEntry_kept
    | with_reducible apply State.modTile_kept
    | with_reducible apply Kept.of_snd (by assumption)
    | extract_lets
    | split
    | dsimp +zetaDelta only

theorem State.startEntry_kept {s₀ : State} {s : State} (t : Nat) (r : Nat) (mf : MemFaults) (hs : Kept s₀ s) :
    Kept s₀ (State.startEntry s t r mf) := by
  unfold State.startEntry
  repeat' first
    | with_reducible assumption
    | with_reducible apply State.modRing_kept
    | with_reducible apply State.chargeHbm_kept
    | with_reducible apply State.modTile_kept
    | with_reducible apply State.load_kept
    | with_reducible apply State.fresh_kept
    | with_reducible apply State.endNoCtx_kept
    | with_reducible apply State.openRecord_kept
    | with_reducible apply State.coreNext_kept
    | with_reducible apply State.modCtx_kept
    | with_reducible apply Kept.of_snd (by assumption)
    | extract_lets
    | split

theorem State.releaseCondition_kept {s₀ : State} {s : State} (t : Nat) (q : Nat) (op : Nat → Bool) (hs : Kept s₀ s) :
    Kept s₀ (State.releaseCondition s t q op) := by
  unfold State.releaseCondition
  repeat' first
    | with_reducible assumption
    | with_reducible apply State.modQueue_kept
    | split

theorem State.timeoutCondition_kept {s₀ : State} {s : State} (t : Nat) (q : Nat) (op : Nat → Bool) (hs : Kept s₀ s) :
    Kept s₀ (State.timeoutCondition s t q op) := by
  unfold State.timeoutCondition
  repeat' first
    | with_reducible assumption
    | with_reducible apply State.coreNext_kept
    | with_reducible apply State.ctxFault_kept
    | with_reducible apply State.modQueue_kept
    | split

end Sys2Proof.Machine
end

