-- ==== Sys2Proof/Laws/Views.lean ====
section
/-!
SUPPORT. What the operations of Machine/Views.lean keep (Laws/Kept.lean).
-/
namespace Sys2Proof.Machine

open Sys2Proof

theorem State.viewRefused_kept {s₀ : State} {s : State} (t : Nat) (hs : Kept s₀ s) :
    Kept s₀ (State.viewRefused s t) := by
  unfold State.viewRefused
  repeat' first
    | with_reducible assumption
    | with_reducible apply State.setFlag_kept

theorem State.viewCount_kept {s₀ : State} {s : State} (v : Nat) (t : Nat) (sat : Nat) (nan : Nat) (uf : Nat) (wovf : Nat) (wnan : Nat) (bytes : Nat) (hs : Kept s₀ s) :
    Kept s₀ (State.viewCount s v t sat nan uf wovf wnan bytes) := by
  unfold State.viewCount
  repeat' first
    | with_reducible assumption
    | with_reducible apply State.modTile_kept
    | with_reducible apply State.setFlagIf_kept

theorem State.readElems_kept {s₀ : State} {s : State} (mf : MemFaults) (n : Nat) (a1 : List (Option Nat)) (hs : Kept s₀ s) :
    Kept s₀ (State.readElems s mf n a1).2 := by
  induction a1 generalizing s mf n hs with
  | nil =>
    unfold State.readElems
    repeat' first
      | with_reducible assumption
  | cons x l ih =>
    cases x <;>
    unfold State.readElems
    repeat' first
      | with_reducible assumption
      | with_reducible apply ih
      | with_reducible apply State.load_kept
      | with_reducible apply Kept.of_snd (by assumption)
      | split

theorem State.chargeViewRead_kept {s₀ : State} {s : State} (p : Nat) (as : List Nat) (hs : Kept s₀ s) :
    Kept s₀ (State.chargeViewRead s p as) := by
  unfold State.chargeViewRead
  repeat' first
    | with_reducible assumption
    | with_reducible apply State.chargeStack_kept
    | with_reducible apply Kept.foldl
    | extract_lets
    | split
    | intro _

theorem State.chargeViewWrite_kept {s₀ : State} {s : State} (p : Nat) (n : Nat) (accum : Bool) (as : List Nat) (hs : Kept s₀ s) :
    Kept s₀ (State.chargeViewWrite s p n accum as) := by
  unfold State.chargeViewWrite
  repeat' first
    | with_reducible assumption
    | with_reducible apply State.chargeStack_kept
    | with_reducible apply Kept.foldl
    | extract_lets
    | split
    | intro _

theorem State.viewUnit_kept {s₀ : State} {s : State} (mf : MemFaults) (v : Nat) (u : VUnit) (hs : Kept s₀ s) :
    Kept s₀ (State.viewUnit s mf v u).2 := by
  unfold State.viewUnit
  repeat' first
    | with_reducible assumption
    | with_reducible apply State.readElems_kept
    | with_reducible apply State.viewCount_kept
    | with_reducible apply Kept.of_snd (by assumption)
    | extract_lets
    | split

theorem State.viewUnits_kept {s₀ : State} {s : State} (mf : MemFaults) (v : Nat) (a1 : List VUnit) (a2 : List (VUnit × VConv)) (hs : Kept s₀ s) :
    Kept s₀ (State.viewUnits s mf v a1 a2).2.2 := by
  induction a1 generalizing s mf v a2 hs with
  | nil =>
    unfold State.viewUnits
    repeat' first
      | with_reducible assumption
  | cons x l ih =>
    unfold State.viewUnits
    repeat' first
      | with_reducible assumption
      | with_reducible apply ih
      | with_reducible apply State.viewUnit_kept
      | with_reducible apply Kept.of_snd (by assumption)
      | split

theorem State.viewConvert_kept {s₀ : State} {s : State} (mf : MemFaults) (v : Nat) (us : List VUnit) (hs : Kept s₀ s) :
    Kept s₀ (State.viewConvert s mf v us).2.2 := by
  unfold State.viewConvert
  repeat' first
    | with_reducible assumption
    | with_reducible apply State.viewUnits_kept
    | with_reducible apply State.chargeViewRead_kept

theorem State.viewRead_kept {s₀ : State} {s : State} (mf : MemFaults) (v : Nat) (off : Nat) (n : Nat) (hs : Kept s₀ s) :
    Kept s₀ (State.viewRead s mf v off n).2.2 := by
  unfold State.viewRead
  repeat' first
    | with_reducible assumption
    | with_reducible apply State.viewConvert_kept
    | with_reducible apply Kept.of_thd (by assumption)
    | extract_lets
    | split

theorem State.viewStore_kept {s₀ : State} {s : State} (mf : MemFaults) (v : Nat) (e : Nat × Nat) (x : FVal) (hs : Kept s₀ s) :
    Kept s₀ (State.viewStore s mf v e x).2 := by
  unfold State.viewStore
  repeat' first
    | with_reducible assumption
    | with_reducible apply State.storeChecked_kept
    | with_reducible apply State.viewCount_kept
    | with_reducible apply State.load_kept
    | with_reducible apply Kept.of_snd (by assumption)
    | extract_lets
    | split
    | dsimp +zetaDelta only

theorem State.viewStores_kept {s₀ : State} {s : State} (mf : MemFaults) (v : Nat) (a1 : List ((Nat × Nat) × FVal)) (a2 : Nat) (hs : Kept s₀ s) :
    Kept s₀ (State.viewStores s mf v a1 a2).2.2 := by
  induction a1 generalizing s mf v a2 hs with
  | nil =>
    unfold State.viewStores
    repeat' first
      | with_reducible assumption
  | cons x l ih =>
    unfold State.viewStores
    repeat' first
      | with_reducible assumption
      | with_reducible apply ih
      | with_reducible apply State.viewStore_kept
      | with_reducible apply Kept.of_snd (by assumption)
      | split

theorem State.viewWriteCharge_kept {s₀ : State} {s : State} (v : Nat) (els : List (Nat × Nat)) (hs : Kept s₀ s) :
    Kept s₀ (State.viewWriteCharge s v els) := by
  unfold State.viewWriteCharge
  repeat' first
    | with_reducible assumption
    | with_reducible apply State.chargeViewWrite_kept

theorem State.viewWrite_kept {s₀ : State} {s : State} (mf : MemFaults) (v : Nat) (off : Nat) (bs : List Byte) (hs : Kept s₀ s) :
    Kept s₀ (State.viewWrite s mf v off bs).2.2 := by
  unfold State.viewWrite
  repeat' first
    | with_reducible assumption
    | with_reducible apply State.viewStores_kept
    | with_reducible apply State.viewWriteCharge_kept

theorem State.viewWriteBlock_kept {s₀ : State} {s : State} (mf : MemFaults) (v : Nat) (u : VUnit) (scale : Nat) (codes : List Nat) (hs : Kept s₀ s) :
    Kept s₀ (State.viewWriteBlock s mf v u scale codes).2 := by
  unfold State.viewWriteBlock
  repeat' first
    | with_reducible assumption
    | with_reducible apply State.viewStores_kept

end Sys2Proof.Machine
end

