-- ==== Sys2Proof/Laws/Local.lean ====
section
/-!
SUPPORT. What the operations of Machine/Local.lean keep (Laws/Kept.lean).
-/
namespace Sys2Proof.Machine

open Sys2Proof

theorem State.popHead_kept {s₀ : State} {s : State} (t : Nat) (code : Nat) (is : Nat → Bool) (hs : Kept s₀ s) :
    KeptIfSnd s₀ (State.popHead s t code is) := by
  unfold State.popHead
  repeat' first
    | with_reducible assumption
    | with_reducible apply State.modQueue_kept
    | with_reducible apply KeptIfSnd.none
    | with_reducible apply KeptIfSnd.some
    | split

theorem State.addInc_kept {s₀ : State} {s : State} (e : QEntry) (hs : Kept s₀ s) :
    Kept s₀ (State.addInc s e) := by
  unfold State.addInc
  repeat' first
    | with_reducible assumption
    | with_reducible apply State.ctrAdd_kept
    | split

theorem State.activate_kept {s₀ : State} {s : State} (t : Nat) (code : Nat) (e : QEntry) (hs : Kept s₀ s) :
    Kept s₀ (State.activate s t code e) := by
  unfold State.activate
  repeat' first
    | with_reducible assumption
    | with_reducible apply State.modQueue_kept

theorem State.retire_kept {s₀ : State} {s : State} (t : Nat) (code : Nat) (id : Nat) (hs : Kept s₀ s) :
    Kept s₀ (State.retire s t code id) := by
  unfold State.retire
  repeat' first
    | with_reducible assumption
    | with_reducible apply State.modQueue_kept

theorem State.completeFirst_kept {s₀ : State} {s : State} (t : Nat) (code : Nat) (is : Nat → Bool) (hs : Kept s₀ s) :
    Kept s₀ (State.completeFirst s t code is) := by
  unfold State.completeFirst
  repeat' first
    | with_reducible assumption
    | with_reducible apply State.addInc_kept
    | with_reducible apply State.retire_kept
    | split

theorem State.failEntry_kept {s₀ : State} {s : State} (t : Nat) (code : Nat) (e : QEntry) (fault : Nat) (done : Nat) (info : Nat) (unconfirmed : Bool) (hs : Kept s₀ s) :
    Kept s₀ (State.failEntry s t code e fault done info unconfirmed) := by
  unfold State.failEntry
  repeat' first
    | with_reducible assumption
    | with_reducible apply State.coreNext_kept
    | with_reducible apply State.ctxFault_kept
    | with_reducible apply State.retire_kept

theorem State.noteRefusal_kept {s₀ : State} {s : State} (t : Nat) (c : Nat × Nat) (hs : Kept s₀ s) :
    Kept s₀ (State.noteRefusal s t c) := by
  unfold State.noteRefusal
  repeat' first
    | with_reducible assumption
    | with_reducible apply State.viewRefused_kept
    | split

theorem State.localRead_kept {s₀ : State} {s : State} (mf : MemFaults) (t : Nat) (p : Nat) (a : Nat) (n : Nat) (hs : Kept s₀ s) :
    Kept s₀ (State.localRead s mf t p a n).2.2 := by
  unfold State.localRead
  repeat' first
    | with_reducible assumption
    | with_reducible apply State.viewRead_kept
    | with_reducible apply State.readErr_kept
    | with_reducible apply State.chargeHbm_kept
    | with_reducible apply Kept.of_snd (by assumption)
    | extract_lets
    | split

theorem State.localWrite_kept {s₀ : State} {s : State} (mf : MemFaults) (t : Nat) (p : Nat) (a : Nat) (bs : List Byte) (hs : Kept s₀ s) :
    Kept s₀ (State.localWrite s mf t p a bs).2.2 := by
  unfold State.localWrite
  repeat' first
    | with_reducible assumption
    | with_reducible apply State.viewWrite_kept
    | with_reducible apply State.mergeErr_kept
    | with_reducible apply State.store_kept
    | with_reducible apply State.chargeHbm_kept
    | with_reducible apply Kept.of_snd (by assumption)
    | extract_lets
    | split

end Sys2Proof.Machine
end

