-- ==== Sys2Proof/Laws/Copy.lean ====
section
/-!
SUPPORT. What the operations of Machine/Copy.lean keep (Laws/Kept.lean).
-/
namespace Sys2Proof.Machine

open Sys2Proof

theorem State.copyRows_kept {s₀ : State} {s : State} (mf : MemFaults) (t : Nat) (p : Nat) (n : Nat) (fill : List Byte) (a1 : List CopyRow) (a2 : Nat) (hs : Kept s₀ s) :
    Kept s₀ (State.copyRows s mf t p n fill a1 a2).2 := by
  induction a1 generalizing s mf t p n fill a2 hs with
  | nil =>
    unfold State.copyRows
    repeat' first
      | with_reducible assumption
  | cons x l ih =>
    unfold State.copyRows
    repeat' first
      | with_reducible assumption
      | with_reducible apply ih
      | with_reducible apply State.localRead_kept
      | with_reducible apply State.localWrite_kept
      | with_reducible apply Kept.of_thd (by assumption)
      | extract_lets
      | split

theorem State.localCopy_kept {s₀ : State} {s : State} (t : Nat) (q : Nat) (mf : MemFaults) (op : Nat) (rowsOf : State → QEntry → FmtK → List CopyRow × List Check × State) (rsvd : FmtK → Bool) (hs : Kept s₀ s) (hrowsOf : ∀ (x0 : State) (x1 : QEntry) (x2 : FmtK), Kept s₀ x0 → Kept s₀ (rowsOf x0 x1 x2).2.2) :
    Kept s₀ (State.localCopy s t q mf op rowsOf rsvd) := by
  unfold State.localCopy
  repeat' first
    | with_reducible assumption
    | with_reducible apply hrowsOf
    | with_reducible apply State.popHead_kept
    | with_reducible apply State.failEntry_kept
    | with_reducible apply State.noteRefusal_kept
    | with_reducible apply State.copyRows_kept
    | with_reducible apply State.activate_kept
    | with_reducible apply Kept.of_some_snd (by assumption)
    | with_reducible apply Kept.of_thd (by assumption)
    | with_reducible apply Kept.of_snd (by assumption)
    | extract_lets
    | split

theorem State.readIndices_kept {s₀ : State} {s : State} (mf : MemFaults) (t : Nat) (base : Nat) (a1 : Nat) (a2 : Nat) (hs : Kept s₀ s) :
    Kept s₀ (State.readIndices s mf t base a1 a2).2 := by
  induction a2 generalizing s mf t base a1 hs with
  | zero =>
    unfold State.readIndices
    repeat' first
      | with_reducible assumption
  | succ n ih =>
    unfold State.readIndices
    repeat' first
      | with_reducible assumption
      | with_reducible apply ih
      | with_reducible apply State.load_kept
      | with_reducible apply Kept.of_snd (by assumption)
      | split

end Sys2Proof.Machine
end

