-- ==== Sys2Proof/Laws/Prologue.lean ====
section
/-!
SUPPORT. What the operations of Machine/Prologue.lean keep (Laws/Kept.lean).
-/
namespace Sys2Proof.Machine

open Sys2Proof

theorem State.fetchRanges_kept {s₀ : State} {s : State} (mf : MemFaults) (p : Nat) (a1 : List (Nat × Nat)) (hs : Kept s₀ s) :
    Kept s₀ (State.fetchRanges s mf p a1).2 := by
  induction a1 generalizing s mf p hs with
  | nil =>
    unfold State.fetchRanges
    repeat' first
      | with_reducible assumption
  | cons x l ih =>
    unfold State.fetchRanges
    repeat' first
      | with_reducible assumption
      | with_reducible apply ih
      | with_reducible apply State.load_kept
      | with_reducible apply State.chargeHbm_kept
      | with_reducible apply Kept.of_snd (by assumption)
      | split

theorem State.srcFetch_kept {s₀ : State} {s : State} (mf : MemFaults) (p : Nat) (d : List W64) (rs : List (Nat × Nat)) (hs : Kept s₀ s) :
    Kept s₀ (State.srcFetch s mf p d rs).2 := by
  unfold State.srcFetch
  repeat' first
    | with_reducible assumption
    | with_reducible apply State.viewConvert_kept
    | with_reducible apply State.fetchRanges_kept
    | with_reducible apply Kept.of_thd (by assumption)
    | extract_lets
    | split

theorem State.readIdx_kept {s₀ : State} {s : State} (mf : MemFaults) (t : Nat) (d : List W64) (first : Nat) (n : Nat) (hs : Kept s₀ s) :
    Kept s₀ (State.readIdx s mf t d first n).2.2 := by
  unfold State.readIdx
  repeat' first
    | with_reducible assumption
    | with_reducible apply State.readIndices_kept
    | extract_lets
    | split

theorem State.fetchRow_kept {s₀ : State} {s : State} (mf : MemFaults) (t : Nat) (p : Nat) (o : Source) (k : Nat) (r : Option Nat) (hs : Kept s₀ s) :
    Kept s₀ (State.fetchRow s mf t p o k r).2 := by
  unfold State.fetchRow
  repeat' first
    | with_reducible assumption
    | with_reducible apply State.srcFetch_kept
    | with_reducible apply Kept.of_snd (by assumption)
    | split

theorem State.fetchCol_kept {s₀ : State} {s : State} (mf : MemFaults) (t : Nat) (p : Nat) (o : Source) (k : Nat) (i : Nat) (hs : Kept s₀ s) :
    Kept s₀ (State.fetchCol s mf t p o k i).2 := by
  unfold State.fetchCol
  repeat' first
    | with_reducible assumption
    | with_reducible apply State.srcFetch_kept
    | with_reducible apply Kept.of_snd (by assumption)
    | extract_lets
    | split

theorem State.startTest_kept {s₀ : State} {s : State} (t : Nat) (a : Nat) (hs : Kept s₀ s) :
    Kept s₀ (State.startTest s t a) := by
  unfold State.startTest
  repeat' first
    | with_reducible assumption
    | with_reducible apply State.logEv_kept
    | with_reducible apply State.modArr_kept

theorem State.arrBoundary_kept {s₀ : State} {s : State} (t : Nat) (a : Nat) (hs : Kept s₀ s) :
    Kept s₀ (State.arrBoundary s t a) := by
  unfold State.arrBoundary
  repeat' first
    | with_reducible assumption
    | with_reducible apply State.startTest_kept
    | split

theorem State.failArr_kept {s₀ : State} {s : State} (t : Nat) (a : Nat) (e : QEntry) (code : Nat) (done : Nat) (info : Nat) (hs : Kept s₀ s) :
    Kept s₀ (State.failArr s t a e code done info) := by
  unfold State.failArr
  repeat' first
    | with_reducible assumption
    | with_reducible apply State.arrBoundary_kept
    | with_reducible apply State.failEntry_kept

theorem State.takeArr_kept {s₀ : State} {α : Type} {s : State} (t : Nat) (a : Nat) (op : Nat) (rsvd : FmtM → Bool) (prep : State → QEntry → FmtM → Nat → List Check × α × State) (run : State → QEntry → FmtM → Nat → α → State) (hs : Kept s₀ s) (hprep : ∀ (x0 : State) (x1 : QEntry) (x2 : FmtM) (x3 : Nat), Kept s₀ x0 → Kept s₀ (prep x0 x1 x2 x3).2.2) (hrun : ∀ (x0 : State) (x1 : QEntry) (x2 : FmtM) (x3 : Nat) (x4 : α), Kept s₀ x0 → Kept s₀ (run x0 x1 x2 x3 x4)) :
    Kept s₀ (State.takeArr s t a op rsvd prep run) := by
  unfold State.takeArr
  repeat' first
    | with_reducible assumption
    | with_reducible apply hprep
    | with_reducible apply hrun
    | with_reducible apply State.popHead_kept
    | with_reducible apply State.failArr_kept
    | with_reducible apply State.noteRefusal_kept
    | with_reducible apply State.activate_kept
    | with_reducible apply Kept.of_some_snd (by assumption)
    | with_reducible apply Kept.of_thd (by assumption)
    | extract_lets
    | split

theorem State.arrFlags_kept {s₀ : State} {s : State} (t : Nat) (a : Nat) (f : FFlags) (hs : Kept s₀ s) :
    Kept s₀ (State.arrFlags s t a f) := by
  unfold State.arrFlags
  repeat' first
    | with_reducible assumption
    | with_reducible apply State.setFlagIf_kept

theorem State.acmRead_kept {s₀ : State} {s : State} (mf : MemFaults) (key : Nat) (w : Nat) (n : Nat) (hs : Kept s₀ s) :
    Kept s₀ (State.acmRead s mf key w n).2 := by
  unfold State.acmRead
  repeat' first
    | with_reducible assumption
    | with_reducible apply State.load_kept
    | with_reducible apply Kept.of_snd (by assumption)
    | split

theorem State.acmWrite_kept {s₀ : State} {s : State} (key : Nat) (w : Nat) (xs : List Nat) (hs : Kept s₀ s) :
    Kept s₀ (State.acmWrite s key w xs) := by
  unfold State.acmWrite
  repeat' first
    | with_reducible assumption
    | with_reducible apply State.poke_kept

theorem State.runRows_kept {s₀ : State} (t : Nat) (a : Nat) (e : QEntry) (base : Nat) (row : State → Nat → Except Nat State × State) (a1 : Nat) (a2 : Nat) {a3 : State} (hrow : ∀ (x0 : State) (x1 : Nat), Kept s₀ x0 → KeptRow s₀ (row x0 x1)) (ha3 : Kept s₀ a3) :
    Kept s₀ (State.runRows t a e base row a1 a2 a3) := by
  induction a1 generalizing t a e base row a2 a3 hrow ha3 with
  | zero =>
    unfold State.runRows
    repeat' first
      | with_reducible assumption
      | with_reducible apply State.arrBoundary_kept
  | succ i ih =>
    unfold State.runRows
    repeat' first
      | with_reducible assumption
      | with_reducible apply hrow
      | with_reducible apply ih
      | with_reducible apply State.failArr_kept
      | with_reducible apply Kept.of_row (by assumption)
      | with_reducible apply Kept.of_row_snd (by assumption)
      | split

end Sys2Proof.Machine
end

