-- ==== Sys2Proof/Laws/CoreBase.lean ====
section
/-!
SUPPORT. What the operations of Machine/CoreBase.lean keep (Laws/Kept.lean).
-/
namespace Sys2Proof.Machine

open Sys2Proof

theorem State.modCore_kept {s₀ : State} {s : State} (h : Nat) (f : Core → Core) (hs : Kept s₀ s) :
    Kept s₀ (State.modCore s h f) := by
  unfold State.modCore
  repeat' first
    | with_reducible assumption
    | extract_lets
    | dsimp +zetaDelta only
    | fail_if_no_progress (with_reducible apply Kept.mk_of <;> try first | with_reducible rfl | exact id | exact Nat.le_refl _)

theorem State.coreTrap_kept {s₀ : State} {s : State} (h : Nat) (cause : Nat) (tval : W64) (hs : Kept s₀ s) :
    Kept s₀ (State.coreTrap s h cause tval) := by
  unfold State.coreTrap
  repeat' first
    | with_reducible assumption
    | with_reducible apply State.modCore_kept

theorem State.illegal_kept {s₀ : State} {s : State} (h : Nat) (hs : Kept s₀ s) :
    Kept s₀ (State.illegal s h) := by
  unfold State.illegal
  repeat' first
    | with_reducible assumption
    | with_reducible apply State.coreTrap_kept

theorem State.accessFault_kept {s₀ : State} {s : State} (h : Nat) (store : Bool) (va : Nat) (pa : Nat) (reason : Nat) (hs : Kept s₀ s) :
    Kept s₀ (State.accessFault s h store va pa reason) := by
  unfold State.accessFault
  repeat' first
    | with_reducible assumption
    | with_reducible apply State.coreTrap_kept
    | with_reducible apply State.modCore_kept

theorem State.remoteStoreFail_kept {s₀ : State} {s : State} (h : Nat) (pa : Nat) (unconfirmed : Bool) (hs : Kept s₀ s) :
    Kept s₀ (State.remoteStoreFail s h pa unconfirmed) := by
  unfold State.remoteStoreFail
  repeat' first
    | with_reducible assumption
    | with_reducible apply State.setFlag_kept
    | with_reducible apply State.modCore_kept
    | with_reducible apply State.logEv_kept
    | split

theorem State.finishFirst_kept {s₀ : State} {s : State} (h : Nat) (bytes : Nat) (rd : Nat) (reason : Nat) (elems : List (Nat × Nat × Option Nat)) (hs : Kept s₀ s) :
    Kept s₀ (State.finishFirst s h bytes rd reason elems) := by
  unfold State.finishFirst
  repeat' first
    | with_reducible assumption
    | with_reducible apply State.accessFault_kept
    | with_reducible apply State.modCore_kept
    | extract_lets
    | split
    | dsimp +zetaDelta only

end Sys2Proof.Machine
end

