-- ==== Sys2Proof/Laws/Maint.lean ====
section
/-!
SUPPORT. What the operations of Machine/Maint.lean keep (Laws/Kept.lean).
-/
namespace Sys2Proof.Machine

open Sys2Proof

theorem State.modLaser_kept {s₀ : State} {s : State} (m : Nat) (f : LaserModule → LaserModule) (hs : Kept s₀ s) :
    Kept s₀ (State.modLaser s m f) := by
  unfold State.modLaser
  repeat' first
    | with_reducible assumption
    | extract_lets
    | dsimp +zetaDelta only
    | fail_if_no_progress (with_reducible apply Kept.mk_of <;> try first | with_reducible rfl | exact id | exact Nat.le_refl _)

theorem State.newTicket_kept {s₀ : State} {s : State} (t : Ticket) (hs : Kept s₀ s) :
    Kept s₀ (State.newTicket s t).2 := by
  unfold State.newTicket
  repeat' first
    | with_reducible assumption
    | with_reducible apply State.modSunas_kept
    | extract_lets
    | intro _
    | dsimp +zetaDelta only
    | with_reducible rfl

theorem State.retrainsEnd_kept {s₀ : State} {s : State} (hs : Kept s₀ s) :
    Kept s₀ (State.retrainsEnd s) := by
  unfold State.retrainsEnd
  repeat' first
    | with_reducible assumption
    | with_reducible apply State.endTickets_kept

theorem State.evacEnds_kept {s₀ : State} {s : State} (m : Nat) (hs : Kept s₀ s) :
    Kept s₀ (State.evacEnds s m) := by
  unfold State.evacEnds
  repeat' first
    | with_reducible assumption
    | with_reducible apply State.endTickets_kept

end Sys2Proof.Machine
end

