-- ==== Sys2Proof/Laws/PortTx.lean ====
section
/-!
SUPPORT. What the operations of Machine/PortTx.lean keep (Laws/Kept.lean).
-/
namespace Sys2Proof.Machine

open Sys2Proof

theorem State.modPort_kept {s₀ : State} {s : State} (k : Nat) (f : Port → Port) (hs : Kept s₀ s) :
    Kept s₀ (State.modPort s k f) := by
  unfold State.modPort
  repeat' first
    | with_reducible assumption
    | extract_lets
    | dsimp +zetaDelta only
    | fail_if_no_progress (with_reducible apply Kept.mk_of <;> try first | with_reducible rfl | exact id | exact Nat.le_refl _)

theorem State.portPump_kept {s₀ : State} {s : State} (k : Nat) (hs : Kept s₀ s) :
    Kept s₀ (State.portPump s k) := by
  unfold State.portPump
  repeat' first
    | with_reducible assumption
    | with_reducible apply State.emit_kept
    | with_reducible apply State.modPort_kept
    | with_reducible apply Kept.foldl
    | extract_lets
    | split
    | intro _

theorem State.portSend_kept {s₀ : State} {s : State} (k : Nat) (vc : Nat) (op : Nat) (piece : Nat) (hs : Kept s₀ s) :
    Kept s₀ (State.portSend s k vc op piece) := by
  unfold State.portSend
  repeat' first
    | with_reducible assumption
    | with_reducible apply State.portPump_kept
    | with_reducible apply State.modPort_kept

end Sys2Proof.Machine
end

