-- ==== Sys2Proof/Laws/Net.lean ====
section
/-!
SUPPORT. What the operations of Machine/Net.lean keep (Laws/Kept.lean).
-/
namespace Sys2Proof.Machine

open Sys2Proof

theorem State.targetStore_kept {s₀ : State} {s : State} (mf : MemFaults) (job : Nat) (a : Nat) (bs : List Byte) (hs : Kept s₀ s) :
    Kept s₀ (State.targetStore s mf job a bs).2 := by
  unfold State.targetStore
  repeat' first
    | with_reducible assumption
    | with_reducible apply State.storeChecked_kept
    | with_reducible apply State.chargeHbm_kept
    | with_reducible apply Kept.of_snd (by assumption)
    | split

theorem State.targetLoad_kept {s₀ : State} {s : State} (mf : MemFaults) (job : Nat) (a : Nat) (n : Nat) (hs : Kept s₀ s) :
    Kept s₀ (State.targetLoad s mf job a n).2 := by
  unfold State.targetLoad
  repeat' first
    | with_reducible assumption
    | with_reducible apply State.load_kept
    | with_reducible apply State.chargeHbm_kept
    | with_reducible apply Kept.of_snd (by assumption)
    | split

theorem State.targetAtomic_kept {s₀ : State} {s : State} (mf : MemFaults) (job : Nat) (op : Nat) (w64 : Bool) (a : Nat) (x : Nat) (cmp : Nat) (hs : Kept s₀ s) :
    Kept s₀ (State.targetAtomic s mf job op w64 a x cmp).2 := by
  unfold State.targetAtomic
  repeat' first
    | with_reducible assumption
    | with_reducible apply State.load_kept
    | with_reducible apply State.storeChecked_kept
    | with_reducible apply State.chargeHbm_kept
    | with_reducible apply Kept.of_snd (by assumption)
    | extract_lets
    | split

theorem State.targetAdd_kept {s₀ : State} {s : State} (job : Nat) (c : Nat) (x : W64) (hs : Kept s₀ s) :
    Kept s₀ (State.targetAdd s job c x).2 := by
  unfold State.targetAdd
  repeat' first
    | with_reducible assumption
    | with_reducible apply State.ctrAdd_kept
    | split

theorem State.targetPut_kept {s₀ : State} {s : State} (mf : MemFaults) (job : Nat) (w : Nat) (gen : Option Nat) (off : Nat) (bs : List Byte) (hs : Kept s₀ s) :
    Kept s₀ (State.targetPut s mf job w gen off bs).2 := by
  unfold State.targetPut
  repeat' first
    | with_reducible assumption
    | with_reducible apply State.storeChecked_kept
    | with_reducible apply State.chargeHbm_kept
    | with_reducible apply Kept.of_snd (by assumption)
    | extract_lets
    | split

theorem State.targetGet_kept {s₀ : State} {s : State} (mf : MemFaults) (job : Nat) (w : Nat) (gen : Option Nat) (off : Nat) (n : Nat) (hs : Kept s₀ s) :
    Kept s₀ (State.targetGet s mf job w gen off n).2 := by
  unfold State.targetGet
  repeat' first
    | with_reducible assumption
    | with_reducible apply State.load_kept
    | with_reducible apply State.chargeHbm_kept
    | with_reducible apply Kept.of_snd (by assumption)
    | extract_lets
    | split

theorem State.targetWinAdd_kept {s₀ : State} {s : State} (job : Nat) (w : Option Nat) (c : Nat) (x : W64) (hs : Kept s₀ s) :
    Kept s₀ (State.targetWinAdd s job w c x).2 := by
  unfold State.targetWinAdd
  repeat' first
    | with_reducible assumption
    | with_reducible apply State.ctrAdd_kept
    | extract_lets
    | split

theorem State.modOp_kept {s₀ : State} {s : State} (id : Nat) (f : RemOp → RemOp) (hs : Kept s₀ s) :
    Kept s₀ (State.modOp s id f) := by
  unfold State.modOp
  repeat' first
    | with_reducible assumption
    | with_reducible apply State.modNet_kept

theorem State.forgetOp_kept {s₀ : State} {s : State} (id : Nat) (failed : Bool) (hs : Kept s₀ s) :
    Kept s₀ (State.forgetOp s id failed) := by
  unfold State.forgetOp
  repeat' first
    | with_reducible assumption
    | with_reducible apply State.modNet_kept

theorem State.releaseAfter_kept {s₀ : State} {s : State} (id : Nat) (hs : Kept s₀ s) :
    Kept s₀ (State.releaseAfter s id) := by
  unfold State.releaseAfter
  repeat' first
    | with_reducible assumption
    | with_reducible apply State.modNet_kept

theorem State.fenceProgress_kept {s₀ : State} {s : State} (h : Nat) (id : Nat) (hs : Kept s₀ s) :
    Kept s₀ (State.fenceProgress s h id) := by
  unfold State.fenceProgress
  repeat' first
    | with_reducible assumption
    | with_reducible apply State.modCore_kept
    | extract_lets
    | split

theorem State.coreAnswer_kept {s₀ : State} {s : State} (h : Nat) (o : RemOp) (hs : Kept s₀ s) :
    Kept s₀ (State.coreAnswer s h o) := by
  unfold State.coreAnswer
  repeat' first
    | with_reducible assumption
    | with_reducible apply State.modCore_kept
    | with_reducible apply State.accessFault_kept
    | with_reducible apply State.finishFirst_kept
    | extract_lets
    | split

theorem State.opSettle_kept {s₀ : State} {s : State} (id : Nat) (hs : Kept s₀ s) :
    Kept s₀ (State.opSettle s id) := by
  unfold State.opSettle
  repeat' first
    | with_reducible assumption
    | with_reducible apply State.forgetOp_kept
    | with_reducible apply State.fenceProgress_kept
    | with_reducible apply State.coreAnswer_kept
    | with_reducible apply State.releaseAfter_kept
    | with_reducible apply State.setFlag_kept
    | with_reducible apply State.modNet_kept
    | with_reducible apply State.failEntry_kept
    | with_reducible apply State.remoteStoreFail_kept
    | with_reducible apply State.huskAbandon_kept
    | with_reducible apply Kept.foldl
    | extract_lets
    | split
    | intro _
    | dsimp +zetaDelta only

theorem State.pieceDone_kept {s₀ : State} {s : State} (id : Nat) (i : Nat) (hs : Kept s₀ s) :
    Kept s₀ (State.pieceDone s id i) := by
  unfold State.pieceDone
  repeat' first
    | with_reducible assumption
    | with_reducible apply State.modOp_kept

theorem State.pieceFail_kept {s₀ : State} {s : State} (id : Nat) (i : Nat) (st : PieceState) (code : Nat) (hs : Kept s₀ s) :
    Kept s₀ (State.pieceFail s id i st code) := by
  unfold State.pieceFail
  repeat' first
    | with_reducible assumption
    | with_reducible apply State.modOp_kept

theorem State.land_kept {s₀ : State} {s : State} (mf : MemFaults) (o : RemOp) (i : Nat) (bs : List Byte) (hs : Kept s₀ s) :
    Kept s₀ (State.land s mf o i bs) := by
  unfold State.land
  repeat' first
    | with_reducible assumption
    | with_reducible apply State.pieceDone_kept
    | with_reducible apply State.modOp_kept
    | with_reducible apply State.localWrite_kept
    | with_reducible apply State.pieceFail_kept
    | with_reducible apply Kept.of_thd (by assumption)
    | extract_lets
    | split

theorem State.ownPiece_kept {s₀ : State} {s : State} (mf : MemFaults) (o : RemOp) (i : Nat) (p : Piece) (hs : Kept s₀ s) :
    Kept s₀ (State.ownPiece s mf o i p) := by
  unfold State.ownPiece
  repeat' first
    | with_reducible assumption
    | with_reducible apply State.pieceFail_kept
    | with_reducible apply State.targetLoad_kept
    | with_reducible apply State.land_kept
    | with_reducible apply State.targetAtomic_kept
    | with_reducible apply State.modOp_kept
    | with_reducible apply State.targetStore_kept
    | with_reducible apply State.pieceDone_kept
    | with_reducible apply Kept.of_snd (by assumption)
    | extract_lets
    | split

theorem State.sendPiece_kept {s₀ : State} {s : State} (mf : MemFaults) (id : Nat) (i : Nat) (hs : Kept s₀ s) :
    Kept s₀ (State.sendPiece s mf id i) := by
  unfold State.sendPiece
  repeat' first
    | with_reducible assumption
    | with_reducible apply State.ownPiece_kept
    | with_reducible apply State.pieceFail_kept
    | with_reducible apply State.emit_kept
    | with_reducible apply State.modOp_kept
    | with_reducible apply State.portSend_kept
    | extract_lets
    | split

theorem State.sendPieces_kept {s₀ : State} {s : State} (mf : MemFaults) (id : Nat) (hs : Kept s₀ s) :
    Kept s₀ (State.sendPieces s mf id) := by
  unfold State.sendPieces
  repeat' first
    | with_reducible assumption
    | with_reducible apply State.sendPiece_kept
    | with_reducible apply State.opSettle_kept
    | with_reducible apply Kept.foldl
    | extract_lets
    | split
    | intro _

theorem State.sendAdd_kept {s₀ : State} {s : State} (id : Nat) (hs : Kept s₀ s) :
    Kept s₀ (State.sendAdd s id) := by
  unfold State.sendAdd
  repeat' first
    | with_reducible assumption
    | with_reducible apply State.targetAdd_kept
    | with_reducible apply State.modOp_kept
    | with_reducible apply State.emit_kept
    | with_reducible apply State.portSend_kept
    | with_reducible apply State.opSettle_kept
    | with_reducible apply Kept.of_snd (by assumption)
    | extract_lets
    | split

theorem State.newOp_kept {s₀ : State} {s : State} (o : RemOp) (hs : Kept s₀ s) :
    Kept s₀ (State.newOp s o) := by
  unfold State.newOp
  repeat' first
    | with_reducible assumption
    | with_reducible apply State.modNet_kept

theorem State.losePieces_kept {s₀ : State} {s : State} (f : RemOp → Piece → Bool) (unreach : Bool) (hs : Kept s₀ s) :
    Kept s₀ (State.losePieces s f unreach) := by
  unfold State.losePieces
  repeat' first
    | with_reducible assumption
    | with_reducible apply State.modOp_kept
    | with_reducible apply State.sendPieces_kept
    | with_reducible apply State.opSettle_kept
    | with_reducible apply Kept.foldl
    | extract_lets
    | split
    | intro _

theorem State.loseAdds_kept {s₀ : State} {s : State} (f : RemOp → Bool) (hs : Kept s₀ s) :
    Kept s₀ (State.loseAdds s f) := by
  unfold State.loseAdds
  repeat' first
    | with_reducible assumption
    | with_reducible apply State.modOp_kept
    | with_reducible apply State.opSettle_kept
    | with_reducible apply Kept.foldl
    | extract_lets
    | intro _

theorem State.setSlotSt_kept {s₀ : State} {s : State} (k : Nat) (st : Nat) (hs : Kept s₀ s) :
    Kept s₀ (State.setSlotSt s k st) := by
  unfold State.setSlotSt
  repeat' first
    | with_reducible assumption
    | with_reducible apply State.setFlag_kept
    | with_reducible apply State.modNet_kept
    | split

theorem State.slotLost_kept {s₀ : State} {s : State} (k : Nat) (hs : Kept s₀ s) :
    Kept s₀ (State.slotLost s k) := by
  unfold State.slotLost
  repeat' first
    | with_reducible assumption
    | with_reducible apply State.loseAdds_kept
    | with_reducible apply State.losePieces_kept

theorem State.planeLost_kept {s₀ : State} {s : State} (h : Nat) (hs : Kept s₀ s) :
    Kept s₀ (State.planeLost s h) := by
  unfold State.planeLost
  repeat' first
    | with_reducible assumption
    | with_reducible apply State.modNet_kept
    | with_reducible apply State.slotLost_kept
    | with_reducible apply State.setSlotSt_kept
    | with_reducible apply State.loseAdds_kept
    | with_reducible apply State.losePieces_kept
    | with_reducible apply State.logEv_kept
    | with_reducible apply State.setFlag_kept
    | with_reducible apply Kept.foldl
    | extract_lets
    | split
    | intro _

theorem State.planeBack_kept {s₀ : State} {s : State} (h : Nat) (hs : Kept s₀ s) :
    Kept s₀ (State.planeBack s h) := by
  unfold State.planeBack
  repeat' first
    | with_reducible assumption
    | with_reducible apply State.setSlotSt_kept
    | with_reducible apply State.modNet_kept
    | with_reducible apply State.setFlag_kept
    | with_reducible apply Kept.foldl
    | extract_lets
    | split
    | intro _

theorem State.sendPacket_kept {s₀ : State} {s : State} (c : Nat) (op : Nat) (part : Nat) (hs : Kept s₀ s) :
    Kept s₀ (State.sendPacket s c op part) := by
  unfold State.sendPacket
  repeat' first
    | with_reducible assumption
    | with_reducible apply State.emit_kept
    | with_reducible apply State.modConn_kept
    | with_reducible apply State.portSend_kept

theorem State.ownPut_kept {s₀ : State} {s : State} (mf : MemFaults) (o : RemOp) (i : Nat) (p : Piece) (hs : Kept s₀ s) :
    Kept s₀ (State.ownPut s mf o i p) := by
  unfold State.ownPut
  repeat' first
    | with_reducible assumption
    | with_reducible apply State.targetGet_kept
    | with_reducible apply State.land_kept
    | with_reducible apply State.pieceFail_kept
    | with_reducible apply State.targetPut_kept
    | with_reducible apply State.pieceDone_kept
    | with_reducible apply State.modOp_kept
    | with_reducible apply Kept.of_snd (by assumption)
    | extract_lets
    | split

theorem State.enterOp_kept {s₀ : State} {s : State} (mf : MemFaults) (id : Nat) (hs : Kept s₀ s) :
    Kept s₀ (State.enterOp s mf id) := by
  unfold State.enterOp
  repeat' first
    | with_reducible assumption
    | with_reducible apply State.ownPut_kept
    | with_reducible apply State.modOp_kept
    | with_reducible apply State.sendPacket_kept
    | with_reducible apply State.targetWinAdd_kept
    | with_reducible apply State.opSettle_kept
    | with_reducible apply Kept.foldl
    | with_reducible apply Kept.of_snd (by assumption)
    | extract_lets
    | split
    | intro _

theorem State.enterNext_kept {s₀ : State} {s : State} (mf : MemFaults) (id : Nat) (hs : Kept s₀ s) :
    Kept s₀ (State.enterNext s mf id) := by
  unfold State.enterNext
  repeat' first
    | with_reducible assumption
    | with_reducible apply State.enterOp_kept
    | split

theorem State.connPump_kept {s₀ : State} {s : State} (c : Nat) (hs : Kept s₀ s) :
    Kept s₀ (State.connPump s c) := by
  unfold State.connPump
  repeat' first
    | with_reducible assumption
    | with_reducible apply State.enterNext_kept
    | with_reducible apply Kept.foldl
    | extract_lets
    | intro _

theorem State.retransmit_kept {s₀ : State} {s : State} (c : Nat) (hs : Kept s₀ s) :
    Kept s₀ (State.retransmit s c) := by
  unfold State.retransmit
  repeat' first
    | with_reducible assumption
    | with_reducible apply State.modNet_kept
    | with_reducible apply State.portSend_kept
    | with_reducible apply State.emit_kept
    | with_reducible apply Kept.foldl
    | extract_lets
    | intro _

theorem State.hallPortLost_kept {s₀ : State} {s : State} (k : Nat) (hs : Kept s₀ s) :
    Kept s₀ (State.hallPortLost s k) := by
  unfold State.hallPortLost
  repeat' first
    | with_reducible assumption
    | with_reducible apply State.retransmit_kept
    | with_reducible apply State.modConn_kept
    | with_reducible apply Kept.foldl
    | extract_lets
    | split
    | intro _

theorem State.hallPortBack_kept {s₀ : State} {s : State} (k : Nat) (hs : Kept s₀ s) :
    Kept s₀ (State.hallPortBack s k) := by
  unfold State.hallPortBack
  repeat' first
    | with_reducible assumption
    | with_reducible apply State.retransmit_kept
    | with_reducible apply State.modConn_kept
    | with_reducible apply Kept.foldl
    | extract_lets
    | intro _

theorem State.revoked_kept {s₀ : State} {s : State} (m : Nat) (w : Nat) (hs : Kept s₀ s) :
    Kept s₀ (State.revoked s m w) := by
  unfold State.revoked
  repeat' first
    | with_reducible assumption
    | with_reducible apply State.respond_kept
    | with_reducible apply State.modNet_kept

theorem State.revokeGoes_kept {s₀ : State} {s : State} (c : Nat) (f : Nat → Bool) (hs : Kept s₀ s) :
    Kept s₀ (State.revokeGoes s c f) := by
  unfold State.revokeGoes
  repeat' first
    | with_reducible assumption
    | with_reducible apply State.revoked_kept
    | with_reducible apply State.modMbox_kept
    | with_reducible apply Kept.foldl
    | extract_lets
    | split
    | intro _

theorem State.connFail_kept {s₀ : State} {s : State} (c : Nat) (hs : Kept s₀ s) :
    Kept s₀ (State.connFail s c) := by
  unfold State.connFail
  repeat' first
    | with_reducible assumption
    | with_reducible apply State.modConn_kept
    | with_reducible apply State.setFlag_kept
    | with_reducible apply State.modNet_kept
    | with_reducible apply State.modOp_kept
    | with_reducible apply State.opSettle_kept
    | with_reducible apply State.revokeGoes_kept
    | with_reducible apply State.respondWaiting_kept
    | with_reducible apply Kept.foldl
    | extract_lets
    | split
    | intro _
    | dsimp +zetaDelta only

end Sys2Proof.Machine
end

