-- ==== Sys2Proof/Laws/Ports.lean ====
section
/-!
SUPPORT. What the operations of Machine/Ports.lean keep (Laws/Kept.lean).
-/
namespace Sys2Proof.Machine

open Sys2Proof

theorem State.setPortSt_kept {s₀ : State} {s : State} (k : Nat) (st : Nat) (hs : Kept s₀ s) :
    Kept s₀ (State.setPortSt s k st) := by
  unfold State.setPortSt
  repeat' first
    | with_reducible assumption
    | with_reducible apply State.retrainsEnd_kept
    | with_reducible apply State.setFlag_kept
    | with_reducible apply State.modPort_kept
    | split

theorem State.portStart_kept {s₀ : State} {s : State} (k : Nat) (hs : Kept s₀ s) :
    Kept s₀ (State.portStart s k) := by
  unfold State.portStart
  repeat' first
    | with_reducible assumption
    | with_reducible apply State.setPortSt_kept
    | with_reducible apply State.modPort_kept

theorem State.leaveActive_kept {s₀ : State} {s : State} (k : Nat) (st : Nat) (hs : Kept s₀ s) :
    Kept s₀ (State.leaveActive s k st) := by
  unfold State.leaveActive
  repeat' first
    | with_reducible assumption
    | with_reducible apply State.setPortSt_kept
    | with_reducible apply State.modPort_kept
    | with_reducible apply State.hallPortLost_kept
    | with_reducible apply State.planeLost_kept
    | extract_lets
    | split

theorem State.portOut_kept {s₀ : State} {s : State} (k : Nat) (hs : Kept s₀ s) :
    Kept s₀ (State.portOut s k) := by
  unfold State.portOut
  repeat' first
    | with_reducible assumption
    | with_reducible apply State.leaveActive_kept

theorem State.trainFail_kept {s₀ : State} {s : State} (k : Nat) (hs : Kept s₀ s) :
    Kept s₀ (State.trainFail s k) := by
  unfold State.trainFail
  repeat' first
    | with_reducible assumption
    | with_reducible apply State.logEv_kept
    | with_reducible apply State.modPort_kept
    | with_reducible apply State.setPortSt_kept
    | with_reducible apply State.raiseService_kept
    | extract_lets
    | split

theorem State.enterActive_kept {s₀ : State} {s : State} (k : Nat) (rtt : Nat) (version : Nat) (cred0 : Nat) (cred1 : Nat) (partner : Nat) (hs : Kept s₀ s) :
    Kept s₀ (State.enterActive s k rtt version cred0 cred1 partner) := by
  unfold State.enterActive
  repeat' first
    | with_reducible assumption
    | with_reducible apply State.modPort_kept
    | with_reducible apply State.logEv_kept
    | with_reducible apply State.setFlag_kept
    | with_reducible apply State.clearService_kept
    | with_reducible apply State.setPortSt_kept
    | with_reducible apply State.hallPortBack_kept
    | with_reducible apply State.planeBack_kept
    | extract_lets
    | split
    | dsimp +zetaDelta only

theorem State.sparingDone_kept {s₀ : State} {s : State} (k : Nat) (hs : Kept s₀ s) :
    Kept s₀ (State.sparingDone s k) := by
  unfold State.sparingDone
  repeat' first
    | with_reducible assumption
    | with_reducible apply State.modPort_kept
    | with_reducible apply State.logEv_kept
    | with_reducible apply State.setFlag_kept
    | extract_lets
    | split

theorem State.frameIn_kept {s₀ : State} {s : State} (k : Nat) (ty : Nat) (f : Frame) (body : State → State) (hs : Kept s₀ s) (hbody : ∀ (x0 : State), Kept s₀ x0 → Kept s₀ (body x0)) :
    Kept s₀ (State.frameIn s k ty f body) := by
  unfold State.frameIn
  repeat' first
    | with_reducible assumption
    | with_reducible apply hbody
    | with_reducible apply State.modPort_kept
    | split

theorem State.frameAck_kept {s₀ : State} {s : State} (k : Nat) (f : Frame) (hs : Kept s₀ s) :
    Kept s₀ (State.frameAck s k f) := by
  unfold State.frameAck
  repeat' first
    | with_reducible assumption
    | with_reducible apply State.portPump_kept
    | with_reducible apply State.sparingDone_kept
    | with_reducible apply State.modPort_kept

theorem State.resend_kept {s₀ : State} {s : State} (k : Nat) (hs : Kept s₀ s) :
    Kept s₀ (State.resend s k) := by
  unfold State.resend
  repeat' first
    | with_reducible assumption
    | with_reducible apply State.emit_kept
    | with_reducible apply Kept.foldl
    | extract_lets
    | intro _

theorem State.stepTimeout_kept {s₀ : State} {s : State} (k : Nat) (st : Nat) (hs : Kept s₀ s) :
    Kept s₀ (State.stepTimeout s k st) := by
  unfold State.stepTimeout
  repeat' first
    | with_reducible assumption
    | with_reducible apply State.trainFail_kept
    | split

theorem State.mated_kept {s₀ : State} {s : State} (r : Nat) (hs : Kept s₀ s) :
    Kept s₀ (State.mated s r) := by
  unfold State.mated
  repeat' first
    | with_reducible assumption
    | extract_lets
    | dsimp +zetaDelta only
    | fail_if_no_progress (with_reducible apply Kept.mk_of <;> try first | with_reducible rfl | exact id | exact Nat.le_refl _)

theorem State.setSources_kept {s₀ : State} {s : State} (k : Nat) (a : Bool) (b : Bool) (hs : Kept s₀ s) :
    Kept s₀ (State.setSources s k a b) := by
  unfold State.setSources
  repeat' first
    | with_reducible assumption
    | with_reducible apply State.setFlag_kept
    | with_reducible apply State.modPort_kept
    | with_reducible apply State.leaveActive_kept
    | with_reducible apply State.portStart_kept
    | extract_lets
    | split

theorem State.feedPorts_kept {s₀ : State} {s : State} (m : Nat) (works : Bool) (hs : Kept s₀ s) :
    Kept s₀ (State.feedPorts s m works) := by
  unfold State.feedPorts
  repeat' first
    | with_reducible assumption
    | with_reducible apply State.setSources_kept
    | with_reducible apply Kept.foldl
    | extract_lets
    | intro _

theorem State.setModuleSt_kept {s₀ : State} {s : State} (m : Nat) (st : Nat) (hs : Kept s₀ s) :
    Kept s₀ (State.setModuleSt s m st) := by
  unfold State.setModuleSt
  repeat' first
    | with_reducible assumption
    | with_reducible apply State.setFlag_kept
    | with_reducible apply State.modLaser_kept
    | split

theorem State.lsmEn_kept {s₀ : State} {s : State} (m : Nat) (on : Bool) (hs : Kept s₀ s) :
    Kept s₀ (State.lsmEn s m on) := by
  unfold State.lsmEn
  repeat' first
    | with_reducible assumption
    | with_reducible apply State.modPower_kept

theorem State.moduleFail_kept {s₀ : State} {s : State} (m : Nat) (st : Nat) (hs : Kept s₀ s) :
    Kept s₀ (State.moduleFail s m st) := by
  unfold State.moduleFail
  repeat' first
    | with_reducible assumption
    | with_reducible apply State.raiseService_kept
    | with_reducible apply State.logEv_kept
    | with_reducible apply State.feedPorts_kept
    | with_reducible apply State.setModuleSt_kept
    | with_reducible apply State.lsmEn_kept

theorem State.releaseDeferred_kept {s₀ : State} {s : State} (m : Nat) (hs : Kept s₀ s) :
    Kept s₀ (State.releaseDeferred s m) := by
  unfold State.releaseDeferred
  repeat' first
    | with_reducible assumption
    | with_reducible apply State.portStart_kept
    | with_reducible apply State.modPort_kept
    | with_reducible apply Kept.foldl
    | extract_lets
    | split
    | intro _

theorem State.moduleStart_kept {s₀ : State} {s : State} (m : Nat) (ok : Bool) (vendor : Nat) (hs : Kept s₀ s) :
    Kept s₀ (State.moduleStart s m ok vendor) := by
  unfold State.moduleStart
  repeat' first
    | with_reducible assumption
    | with_reducible apply State.modLaser_kept
    | with_reducible apply State.raiseService_kept
    | with_reducible apply State.logEv_kept
    | with_reducible apply State.setModuleSt_kept
    | with_reducible apply State.lsmEn_kept
    | extract_lets
    | split

theorem State.evacuate_kept {s₀ : State} {s : State} (m : Nat) (hs : Kept s₀ s) :
    Kept s₀ (State.evacuate s m) := by
  unfold State.evacuate
  repeat' first
    | with_reducible assumption
    | with_reducible apply State.setModuleSt_kept
    | with_reducible apply State.modLaser_kept
    | with_reducible apply State.setPortSt_kept
    | with_reducible apply State.modPort_kept
    | with_reducible apply State.logEv_kept
    | with_reducible apply State.lsmEn_kept
    | with_reducible apply State.feedPorts_kept
    | with_reducible apply Kept.foldl
    | extract_lets
    | split
    | intro _

theorem State.evacCancel_kept {s₀ : State} {s : State} (m : Nat) (hs : Kept s₀ s) :
    Kept s₀ (State.evacCancel s m) := by
  unfold State.evacCancel
  repeat' first
    | with_reducible assumption
    | with_reducible apply State.modLaser_kept
    | with_reducible apply State.setModuleSt_kept
    | with_reducible apply State.lsmEn_kept
    | with_reducible apply State.raiseService_kept
    | with_reducible apply State.releaseDeferred_kept
    | with_reducible apply State.evacEnds_kept
    | extract_lets
    | split

theorem State.requestEvac_kept {s₀ : State} {s : State} (m : Nat) (hs : Kept s₀ s) :
    Kept s₀ (State.requestEvac s m) := by
  unfold State.requestEvac
  repeat' first
    | with_reducible assumption
    | with_reducible apply State.newTicket_kept
    | with_reducible apply State.evacuate_kept
    | split

end Sys2Proof.Machine
end

