-- ==== Sys2Proof/Laws/Islands.lean ====
section
/-!
SUPPORT. What the operations of Machine/Islands.lean keep (Laws/Kept.lean).
-/
namespace Sys2Proof.Machine

open Sys2Proof

theorem Kept.with_cores {s₀ s : State} (c : Cores) (hs : Kept s₀ s) : Kept s₀ { s with cores := c } :=
  hs.trans ⟨rfl, id, le_refl _, le_refl _, le_refl _, rfl⟩

theorem State.islandUp_kept {s₀ : State} {s : State} (i : Nat) (hs : Kept s₀ s) :
    Kept s₀ (State.islandUp s i) := by
  unfold State.islandUp
  repeat' first
    | with_reducible assumption
    | with_reducible apply State.modIsland_kept

theorem State.disturb_kept {s₀ : State} {s : State} (lo : Nat) (hi : Nat) (hs : Kept s₀ s) :
    Kept s₀ (State.disturb s lo hi) := by
  unfold State.disturb
  repeat' first
    | with_reducible assumption
    | extract_lets
    | intro _
    | fail_if_no_progress (with_reducible apply Kept.mk_of <;> try first | with_reducible rfl | exact id | exact Nat.le_refl _)
    | with_reducible apply Memory.writeCells_wf
    | exact Nat.le_succ _

theorem State.stageDone_kept {s₀ : State} {s : State} (k : Nat) (hs : Kept s₀ s) :
    Kept s₀ (State.stageDone s k) := by
  unfold State.stageDone
  repeat' first
    | with_reducible assumption
    | with_reducible apply State.logEv_kept
    | with_reducible apply State.setFlag_kept
    | with_reducible apply State.modStart_kept
    | extract_lets
    | intro _
    | rfl

theorem State.stageFail_kept {s₀ : State} {s : State} (k : Nat) (reason : Nat) (hs : Kept s₀ s) :
    Kept s₀ (State.stageFail s k reason) := by
  unfold State.stageFail
  repeat' first
    | with_reducible assumption
    | with_reducible apply State.logEv_kept
    | with_reducible apply State.setFlag_kept
    | with_reducible apply State.modStart_kept
    | extract_lets
    | intro _
    | rfl

theorem State.stopAll_kept {s₀ : State} {s : State} (hs : Kept s₀ s) :
    Kept s₀ (State.stopAll s) := by
  unfold State.stopAll
  repeat' first
    | with_reducible assumption
    | extract_lets
    | dsimp +zetaDelta only
    | fail_if_no_progress (with_reducible apply Kept.mk_of <;> try first | with_reducible rfl | exact id | exact Nat.le_refl _)
    | rfl

theorem State.askPinned_kept {s₀ : State} {s : State} (hs : Kept s₀ s) :
    Kept s₀ (State.askPinned s) := by
  unfold State.askPinned
  repeat' first
    | with_reducible assumption
    | extract_lets
    | dsimp +zetaDelta only
    | fail_if_no_progress (with_reducible apply Kept.mk_of <;> try first | with_reducible rfl | exact id | exact Nat.le_refl _)

theorem State.restart1_kept {s₀ : State} {s : State} (hs : Kept s₀ s) :
    Kept s₀ (State.restart1 s) := by
  unfold State.restart1
  repeat' first
    | with_reducible assumption
    | with_reducible apply State.modLog_kept
    | with_reducible apply State.stopAll_kept
    | with_reducible apply State.modPower_kept
    | with_reducible apply State.askPinned_kept
    | with_reducible apply State.modStart_kept
    | extract_lets
    | intro _
    | rfl

theorem State.thermTrip_kept {s₀ : State} {s : State} (source : Nat) (idx : Nat) (temp : Int) (hs : Kept s₀ s) :
    Kept s₀ (State.thermTrip s source idx temp) := by
  unfold State.thermTrip
  repeat' first
    | with_reducible assumption
    | with_reducible apply State.logEv_kept
    | with_reducible apply State.ibi_kept
    | with_reducible apply State.setFlag_kept
    | with_reducible apply State.modPower_kept
    | with_reducible apply State.stageFail_kept
    | with_reducible apply State.stopAll_kept
    | extract_lets
    | split

theorem State.coresStop_kept {s₀ : State} {s : State} (hs : Kept s₀ s) :
    Kept s₀ (State.coresStop s) := by
  unfold State.coresStop
  refine State.modStart_kept _ (State.modNet_kept _ (Kept.with_cores _ (State.modIsland_kept _ _ (State.disturb_kept _ _
    (State.forN_kept _ _ hs fun _ _ h => State.partReset_kept _ h))))) ?_
  intro x
  rfl

theorem State.stopIsland_kept {s₀ : State} {s : State} (i : Nat) (hs : Kept s₀ s) :
    Kept s₀ (State.stopIsland s i) := by
  unfold State.stopIsland
  repeat' first
    | with_reducible assumption
    | with_reducible apply State.tillerOffline_kept
    | with_reducible apply State.modIsland_kept
    | with_reducible apply State.stackLost_kept
    | with_reducible apply State.coresStop_kept
    | with_reducible apply State.forN_kept
    | with_reducible apply State.leaveActive_kept
    | extract_lets
    | split
    | intro _

theorem State.pin_kept {s₀ : State} {s : State} (kind : Nat) (unit : Nat) (value : Nat) (hs : Kept s₀ s) :
    Kept s₀ (State.pin s kind unit value) := by
  unfold State.pin
  repeat' first
    | with_reducible assumption
    | with_reducible apply State.modLog_kept

theorem State.retireCore_kept {s₀ : State} {s : State} (h : Nat) (hs : Kept s₀ s) :
    Kept s₀ (State.retireCore s h) := by
  unfold State.retireCore
  repeat' first
    | with_reducible assumption
    | with_reducible apply State.pin_kept
    | with_reducible apply State.modCore_kept
    | with_reducible apply State.notify_kept
    | with_reducible apply State.logEv_kept
    | with_reducible apply State.setFlag_kept
    | with_reducible apply State.raiseService_kept
    | extract_lets
    | split
    | dsimp +zetaDelta only
    | fail_if_no_progress (with_reducible apply Kept.mk_of <;> try first | with_reducible rfl | exact id | exact Nat.le_refl _)

end Sys2Proof.Machine
end

