-- ==== Sys2Proof/Laws/Repair.lean ====
section
/-!
SUPPORT. What the operations of Machine/Repair.lean keep (Laws/Kept.lean).
-/
namespace Sys2Proof.Machine

open Sys2Proof

theorem State.logRemap_kept {s₀ : State} {s : State} (n : Nat) (a1 : Nat) (a2 : List Nat) (hs : Kept s₀ s) :
    Kept s₀ (State.logRemap s n a1 a2) := by
  induction a1 generalizing s n a2 hs with
  | zero =>
    unfold State.logRemap
    repeat' first
      | with_reducible assumption
  | succ i ih =>
    unfold State.logRemap
    repeat' first
      | with_reducible assumption
      | with_reducible apply ih
      | with_reducible apply State.logPart_kept
      | cases ‹_ + 1 = Nat.succ _›
      | split

theorem State.arrRetire_kept {s₀ : State} {s : State} (t : Nat) (a : Nat) (hs : Kept s₀ s) :
    Kept s₀ (State.arrRetire s t a) := by
  unfold State.arrRetire
  repeat' first
    | with_reducible assumption
    | with_reducible apply State.logEv_kept
    | with_reducible apply State.setFlag_kept
    | with_reducible apply State.modArr_kept
    | with_reducible apply State.tillerOffline_kept
    | extract_lets
    | split

theorem State.arrRepair_kept {s₀ : State} {s : State} (t : Nat) (a : Nat) (defects : List Nat) (hs : Kept s₀ s) :
    Kept s₀ (State.arrRepair s t a defects) := by
  unfold State.arrRepair
  repeat' first
    | with_reducible assumption
    | with_reducible apply State.arrRetire_kept
    | with_reducible apply State.modArr_kept
    | with_reducible apply State.pin_kept
    | with_reducible apply State.logRemap_kept
    | with_reducible apply Kept.foldl
    | extract_lets
    | split
    | intro _

theorem State.bankSpare_kept {s₀ : State} {s : State} (t : Nat) (b : Nat) (hs : Kept s₀ s) :
    Kept s₀ (State.bankSpare s t b) := by
  unfold State.bankSpare
  repeat' first
    | with_reducible assumption
    | with_reducible apply State.logEv_kept
    | with_reducible apply State.pin_kept
    | with_reducible apply State.modTile_kept

theorem State.bankNext_kept {s₀ : State} {s : State} (t : Nat) (a1 : Nat) (hs : Kept s₀ s) :
    Kept s₀ (State.bankNext s t a1) := by
  induction a1 generalizing s t hs with
  | zero =>
    unfold State.bankNext
    repeat' first
      | with_reducible assumption
  | succ i ih =>
    unfold State.bankNext
    repeat' first
      | with_reducible assumption
      | with_reducible apply ih
      | with_reducible apply State.bankRetire_kept
      | split

theorem State.reportRow_kept {s₀ : State} {s : State} (k : Nat) (r : Nat) (hs : Kept s₀ s) :
    Kept s₀ (State.reportRow s k r).2 := by
  unfold State.reportRow
  repeat' first
    | with_reducible assumption
    | with_reducible apply State.notify_kept

theorem State.stackFull_kept {s₀ : State} {s : State} (k : Nat) (hs : Kept s₀ s) :
    Kept s₀ (State.stackFull s k) := by
  unfold State.stackFull
  repeat' first
    | with_reducible assumption
    | with_reducible apply State.raiseService_kept
    | with_reducible apply State.setFlag_kept
    | with_reducible apply State.setStackSt_kept
    | split

theorem State.rowRetire_kept {s₀ : State} {s : State} (k : Nat) (r : Nat) (hs : Kept s₀ s) :
    Kept s₀ (State.rowRetire s k r) := by
  unfold State.rowRetire
  repeat' first
    | with_reducible assumption
    | with_reducible apply State.reportRow_kept
    | with_reducible apply State.modStack_kept
    | with_reducible apply State.logEv_kept
    | with_reducible apply State.stackFull_kept
    | with_reducible apply State.setFlag_kept
    | with_reducible apply State.pin_kept
    | extract_lets
    | split

theorem State.rowScan_kept {s₀ : State} {s : State} (mf : MemFaults) (k : Nat) (r : Nat) (hs : Kept s₀ s) :
    Kept s₀ (State.rowScan s mf k r) := by
  unfold State.rowScan
  repeat' first
    | with_reducible assumption
    | with_reducible apply State.readErr_kept
    | with_reducible apply Kept.foldl
    | extract_lets
    | split
    | intro _

theorem State.rowRepair_kept {s₀ : State} {s : State} (mf : MemFaults) (k : Nat) (r : Nat) (hs : Kept s₀ s) :
    Kept s₀ (State.rowRepair s mf k r) := by
  unfold State.rowRepair
  repeat' first
    | with_reducible assumption
    | with_reducible apply State.rowRetire_kept
    | with_reducible apply State.rowScan_kept
    | with_reducible apply State.logEv_kept
    | with_reducible apply State.pin_kept
    | with_reducible apply State.modStack_kept
    | extract_lets
    | split

theorem State.rowFence_kept {s₀ : State} {s : State} (k : Nat) (r : Nat) (hs : Kept s₀ s) :
    Kept s₀ (State.rowFence s k r) := by
  unfold State.rowFence
  repeat' first
    | with_reducible assumption
    | with_reducible apply State.modStack_kept

theorem State.scrubOne_kept {s₀ : State} {s : State} (mf : MemFaults) (k : Nat) (hs : Kept s₀ s) :
    Kept s₀ (State.scrubOne s mf k) := by
  unfold State.scrubOne
  repeat' first
    | with_reducible assumption
    | with_reducible apply State.readErr_kept
    | with_reducible apply State.modStack_kept
    | extract_lets
    | split

end Sys2Proof.Machine
end

