-- ==== Sys2Proof/Laws/Arrays.lean ====
section
/-!
SUPPORT. What the operations of Machine/Arrays.lean keep (Laws/Kept.lean).
-/
namespace Sys2Proof.Machine

open Sys2Proof

theorem State.fetchAll_kept {s₀ : State} (get : State → Nat → Except Nat (List Nat × List Nat) × State) (a1 : Nat) (a2 : Nat) {a3 : State} (hget : ∀ (x0 : State) (x1 : Nat), Kept s₀ x0 → Kept s₀ (get x0 x1).2) (ha3 : Kept s₀ a3) :
    Kept s₀ (State.fetchAll get a1 a2 a3).2 := by
  induction a1 generalizing get a2 a3 hget ha3 with
  | zero =>
    unfold State.fetchAll
    repeat' first
      | with_reducible assumption
  | succ i ih =>
    unfold State.fetchAll
    repeat' first
      | with_reducible assumption
      | with_reducible apply hget
      | with_reducible apply ih
      | with_reducible apply Kept.of_snd (by assumption)
      | split

theorem State.fetchA_kept {s₀ : State} {s : State} (mf : MemFaults) (t : Nat) (r : MmulRun) (k : Nat) (i : Nat) (hs : Kept s₀ s) :
    Kept s₀ (State.fetchA s mf t r k i).2 := by
  unfold State.fetchA
  repeat' first
    | with_reducible assumption
    | with_reducible apply State.fetchCol_kept
    | with_reducible apply State.fetchRow_kept
    | split

theorem State.noteMismatch_kept {s₀ : State} {s : State} (t : Nat) (a : Nat) (n : Nat) (hs : Kept s₀ s) :
    Kept s₀ (State.noteMismatch s t a n) := by
  unfold State.noteMismatch
  repeat' first
    | with_reducible assumption
    | with_reducible apply State.setFlag_kept
    | with_reducible apply State.modArr_kept

theorem State.noteTransient_kept {s₀ : State} {s : State} (t : Nat) (a : Nat) (hs : Kept s₀ s) :
    Kept s₀ (State.noteTransient s t a) := by
  unfold State.noteTransient
  repeat' first
    | with_reducible assumption
    | with_reducible apply State.modArr_kept

theorem State.loseArr_kept {s₀ : State} {s : State} (t : Nat) (a : Nat) (e : QEntry) (done : Nat) (hs : Kept s₀ s) :
    Kept s₀ (State.loseArr s t a e done) := by
  unfold State.loseArr
  repeat' first
    | with_reducible assumption
    | with_reducible apply State.arrRetire_kept
    | with_reducible apply State.failEntry_kept

theorem State.runPasses_kept {s₀ : State} (t : Nat) (a : Nat) (mf : MemFaults) (mism : List Nat) (r : MmulRun) (a1 : Nat) (a2 : Nat) (a3 : Bool) {a4 : State} (ha4 : Kept s₀ a4) :
    Kept s₀ (State.runPasses t a mf mism r a1 a2 a3 a4) := by
  induction a1 generalizing t a mf mism r a2 a3 a4 ha4 with
  | zero =>
    unfold State.runPasses
    repeat' first
      | with_reducible assumption
      | with_reducible apply State.arrBoundary_kept
  | succ i ih =>
    unfold State.runPasses
    repeat' first
      | with_reducible assumption
      | with_reducible apply ih
      | with_reducible apply State.fetchA_kept
      | with_reducible apply State.failArr_kept
      | with_reducible apply State.acmRead_kept
      | with_reducible apply State.arrFlags_kept
      | with_reducible apply State.acmWrite_kept
      | with_reducible apply State.loseArr_kept
      | with_reducible apply State.noteMismatch_kept
      | with_reducible apply State.noteTransient_kept
      | with_reducible apply State.startTest_kept
      | with_reducible apply State.modArr_kept
      | with_reducible apply Kept.of_snd (by assumption)
      | extract_lets
      | split

theorem State.wideRead_kept {s₀ : State} {s : State} (mf : MemFaults) (t : Nat) (a : Nat) (i : Nat) (n : Nat) (hs : Kept s₀ s) :
    Kept s₀ (State.wideRead s mf t a i n).2 := by
  unfold State.wideRead
  repeat' first
    | with_reducible assumption
    | with_reducible apply State.acmRead_kept
    | with_reducible apply Kept.of_snd (by assumption)
    | split

end Sys2Proof.Machine
end

