-- ==== Sys2Proof/Laws/Blocks.lean ====
section
/-!
SUPPORT. Which block, and which offset in it, an address of the MMIO map names.
-/
namespace Sys2Proof.Machine

open Sys2Proof

/-- An address of the map, by its offset from the map's start. -/
theorem blockAt_offset (r : Nat) (hr : r < 0x10000000000) :
    blockAt (mmioBase + r) =
      if r < 0x4000000 then tillerBlock (r / 0x1000000) (r % 0x1000000)
      else if r < 0x4010000 then some (.ac, r - 0x4000000)
      else if 0x5000000 ≤ r ∧ r < 0x5018000 then some (.op ((r - 0x5000000) / 0x1000), r % 0x1000)
      else if 0x6000000 ≤ r ∧ r < 0x6040000 then some (.mb ((r - 0x6000000) / 0x1000), r % 0x1000)
      else if 0x7010000 ≤ r ∧ r < 0x7012000 then some (.ic, r - 0x7010000)
      else (singleBlocks.find? fun b => decide (b.1 ≤ r ∧ r < b.1 + 0x1000)).map fun b => (b.2, r - b.1) := by
  have h1 : ¬ (mmioBase + r < mmioBase ∨ 0x040000000000 ≤ mmioBase + r) := by simp only [mmioBase]; omega
  have h2 : mmioBase + r - mmioBase = r := by omega
  unfold blockAt
  rw [if_neg h1]
  simp only [h2]

/-- An address of Tiller t names what its offset names there. -/
theorem blockAt_tiller (t o : Nat) (ht : t < 4) (ho : o < 0x1000000) : blockAt (tillerBase t + o) = tillerBlock t o := by
  have e : tillerBase t + o = mmioBase + (t * 0x1000000 + o) := by simp only [tillerBase]; omega
  have h4 : (t * 0x1000000 + o) / 0x1000000 = t := by omega
  have h5 : (t * 0x1000000 + o) % 0x1000000 = o := by omega
  rw [e, blockAt_offset _ (by omega), if_pos (by omega), h4, h5]

theorem blockAt_array (t a o : Nat) (ht : t < 4) (ha : a < 4) (ho : o < 0x1000) :
    blockAt (arrayBase t a + o) = some (.array t a, o) := by
  have e : arrayBase t a + o = tillerBase t + (0x100000 + a * 0x1000 + o) := by simp only [arrayBase]; omega
  rw [e, blockAt_tiller t _ ht (by omega), tillerBlock, if_pos (by omega)]
  congr 2
  · congr 1; omega
  · omega

theorem blockAt_ve (t o : Nat) (ht : t < 4) (ho : o < 0x1000) : blockAt (veBase t + o) = some (.ve t, o) := by
  have e : veBase t + o = tillerBase t + (0x140000 + o) := by simp only [veBase]; omega
  rw [e, blockAt_tiller t _ ht (by omega), tillerBlock, if_neg (by omega), if_pos (by omega)]
  congr 2; omega

theorem blockAt_sq (t o : Nat) (ht : t < 4) (ho : o < 0x1000) : blockAt (sqBase t + o) = some (.sq t, o) := by
  have e : sqBase t + o = tillerBase t + (0x180000 + o) := by simp only [sqBase]; omega
  rw [e, blockAt_tiller t _ ht (by omega), tillerBlock, if_neg (by omega), if_neg (by omega), if_pos (by omega)]
  congr 2; omega

theorem blockAt_hc (k o : Nat) (hk : k < 8) (ho : o < 0x10000) : blockAt (hcBase k + o) = some (.hc k, o) := by
  have e : hcBase k + o = tillerBase (k / 2) + (0x200000 + k % 2 * 0x10000 + o) := by simp only [hcBase]; omega
  rw [e, blockAt_tiller _ _ (by omega) (by omega), tillerBlock, if_neg (by omega), if_neg (by omega), if_neg (by omega),
    if_pos (by omega)]
  congr 2
  · congr 1; omega
  · omega

theorem blockAt_wv (t o : Nat) (ht : t < 4) (ho : o < 0x1000) : blockAt (wvBase t + o) = some (.wv t, o) := by
  have e : wvBase t + o = tillerBase t + (0x220000 + o) := by simp only [wvBase]; omega
  rw [e, blockAt_tiller t _ ht (by omega), tillerBlock, if_neg (by omega), if_neg (by omega), if_neg (by omega), if_neg (by omega),
    if_pos (by omega)]
  congr 2; omega

theorem blockAt_ct (t o : Nat) (ht : t < 4) (ho : o < 0x10000) : blockAt (ctBase t + o) = some (.ct t, o) := by
  have e : ctBase t + o = tillerBase t + (0x240000 + o) := by simp only [ctBase]; omega
  rw [e, blockAt_tiller t _ ht (by omega), tillerBlock, if_neg (by omega), if_neg (by omega), if_neg (by omega), if_neg (by omega),
    if_neg (by omega), if_pos (by omega)]
  congr 2; omega

theorem blockAt_db (t o : Nat) (ht : t < 4) (ho : o < 0x10000) : blockAt (dbBase t + o) = some (.db t, o) := by
  have e : dbBase t + o = tillerBase t + (0x300000 + o) := by simp only [dbBase]; omega
  rw [e, blockAt_tiller t _ ht (by omega), tillerBlock, if_neg (by omega), if_neg (by omega), if_neg (by omega), if_neg (by omega),
    if_neg (by omega), if_neg (by omega), if_pos (by omega)]
  congr 2; omega

theorem blockAt_rp (t o : Nat) (ht : t < 4) (ho : o < 0x400) : blockAt (rpBase t + o) = some (.rp t, o) := by
  have e : rpBase t + o = tillerBase t + (0x310000 + o) := by simp only [rpBase]; omega
  rw [e, blockAt_tiller t _ ht (by omega), tillerBlock, if_neg (by omega), if_neg (by omega), if_neg (by omega), if_neg (by omega),
    if_neg (by omega), if_neg (by omega), if_neg (by omega), if_pos (by omega)]
  congr 2; omega

theorem blockAt_ac (o : Nat) (ho : o < 0x10000) : blockAt (acBase + o) = some (.ac, o) := by
  have e : acBase + o = mmioBase + (0x4000000 + o) := Nat.add_assoc mmioBase 0x4000000 o
  rw [e, blockAt_offset _ (by omega), if_neg (by omega), if_pos (by omega), Nat.add_sub_cancel_left]

theorem blockAt_op (k o : Nat) (hk : k < 24) (ho : o < 0x1000) : blockAt (opBase k + o) = some (.op k, o) := by
  have e : opBase k + o = mmioBase + (0x5000000 + k * 0x1000 + o) := by simp only [opBase]; omega
  rw [e, blockAt_offset _ (by omega), if_neg (by omega), if_neg (by omega), if_pos (by omega)]
  congr 2
  · congr 1; omega
  · omega

theorem blockAt_mb (m o : Nat) (hm : m < 64) (ho : o < 0x1000) : blockAt (mbBase m + o) = some (.mb m, o) := by
  have e : mbBase m + o = mmioBase + (0x6000000 + m * 0x1000 + o) := by simp only [mbBase, mmioBase]; omega
  rw [e, blockAt_offset _ (by omega), if_neg (by omega), if_neg (by omega), if_neg (by omega), if_pos (by omega)]
  congr 2
  · congr 1; omega
  · omega

theorem blockAt_ic (o : Nat) (ho : o < 0x2000) : blockAt (icBase + o) = some (.ic, o) := by
  have e : icBase + o = mmioBase + (0x7010000 + o) := Nat.add_assoc mmioBase 0x7010000 o
  rw [e, blockAt_offset _ (by omega), if_neg (by omega), if_neg (by omega), if_neg (by omega), if_neg (by omega), if_pos (by omega),
    Nat.add_sub_cancel_left]

/-- The search in a list of blocks of 4 KiB that do not meet. -/
theorem find_block (l : List (Nat × Blk)) (r o : Nat) (b : Blk) (h : (r, b) ∈ l) (ho : o < 0x1000)
    (apart : l.Pairwise fun x y => x.1 + 0x1000 ≤ y.1) :
    (l.find? fun x => decide (x.1 ≤ r + o ∧ r + o < x.1 + 0x1000)) = some (r, b) := by
  induction l with
  | nil => cases h
  | cons y l ih =>
    rw [List.find?_cons]
    rw [List.pairwise_cons] at apart
    rcases List.mem_cons.mp h with rfl | hm
    · rw [decide_eq_true (by constructor <;> omega)]
    · have := apart.1 _ hm
      rw [decide_eq_false (by simp only at this; omega)]
      exact ih hm apart.2

/-- The blocks of 4 KiB that stand alone. -/
theorem blockAt_single (r o : Nat) (b : Blk) (h : (r, b) ∈ singleBlocks) (ho : o < 0x1000) :
    blockAt (mmioBase + r + o) = some (b, o) := by
  have hr : 0x4800000 ≤ r ∧ r + o < 0x8000000 ∧ ¬ (0x5000000 ≤ r + o ∧ r + o < 0x5018000) ∧ ¬ (0x6000000 ≤ r + o ∧ r + o < 0x6040000) ∧
      ¬ (0x7010000 ≤ r + o ∧ r + o < 0x7012000) := by
    simp only [singleBlocks, List.mem_cons, Prod.mk.injEq, List.not_mem_nil, or_false] at h
    rcases h with ⟨rfl, -⟩ | ⟨rfl, -⟩ | ⟨rfl, -⟩ | ⟨rfl, -⟩ | ⟨rfl, -⟩ | ⟨rfl, -⟩ | ⟨rfl, -⟩ | ⟨rfl, -⟩ | ⟨rfl, -⟩ | ⟨rfl, -⟩ | ⟨rfl, -⟩ <;> omega
  rw [Nat.add_assoc, blockAt_offset _ (by omega), if_neg (by omega), if_neg (by omega), if_neg hr.2.2.1, if_neg hr.2.2.2.1,
    if_neg hr.2.2.2.2, find_block _ r o b h ho (by decide)]
  simp

/-- A write to a block whose island does not answer is refused, and does nothing else (R47, R960). -/
theorem State.writeRow_refused (s : State) (m : Master) (a : Nat) (v : W32) (b : Blk) (o : Nat)
    (hm : s.masterRuns m = true) (e : blockAt a = some (b, o)) (hb : s.blockRefuses b = true) :
    s.writeRow m a v = s.regRefuse m true a reasonIsland := by
  simp only [State.writeRow, State.regWrite, e, hb, hm]; rfl

/-- A read of a block whose island does not answer is refused, and does nothing else (R47, R960). -/
theorem State.readRow_refused (s : State) (m : Master) (a : Nat) (b : Blk) (o : Nat)
    (hm : s.masterRuns m = true) (e : blockAt a = some (b, o)) (hb : s.blockRefuses b = true) :
    s.readRow m a = s.regRefuse m false a reasonIsland := by
  simp only [State.readRow, State.regRead, e, hb, hm]; rfl

end Sys2Proof.Machine
end

