-- ==== Sys2Proof/Laws/SunasTable.lean ====
section
/-!
SUPPORT. What the operations of Machine/SunasTable.lean keep (Laws/Kept.lean).
-/
namespace Sys2Proof.Machine

open Sys2Proof

theorem State.takeMbox_kept {s₀ : State} {s : State} (m : Nat) (hs : Kept s₀ s) :
    Kept s₀ (State.takeMbox s m) := by
  unfold State.takeMbox
  repeat' first
    | with_reducible assumption
    | with_reducible apply State.modSunas_kept
    | extract_lets
    | intro _
    | dsimp +zetaDelta only
    | with_reducible rfl

theorem State.drainFuel_kept {s₀ : State} (a1 : Nat) {a2 : State} (ha2 : Kept s₀ a2) :
    Kept s₀ (State.drainFuel a1 a2) := by
  induction a1 generalizing a2 ha2 with
  | zero =>
    unfold State.drainFuel
    repeat' first
      | with_reducible assumption
  | succ i ih =>
    unfold State.drainFuel
    repeat' first
      | with_reducible assumption
      | with_reducible apply ih
      | with_reducible apply State.respond_kept
      | with_reducible apply State.takeMbox_kept
      | split

theorem State.drainBad_kept {s₀ : State} {s : State} (hs : Kept s₀ s) :
    Kept s₀ (State.drainBad s) := by
  unfold State.drainBad
  repeat' first
    | with_reducible assumption
    | with_reducible apply State.drainFuel_kept

end Sys2Proof.Machine
end

