-- ==== Sys2Proof/Laws/Mailbox.lean ====
section
/-!
SUPPORT. What the operations of Machine/Mailbox.lean keep (Laws/Kept.lean).
-/
namespace Sys2Proof.Machine

open Sys2Proof

theorem State.ringDoorbell_kept {s₀ : State} {s : State} (m : Nat) (seq : Nat) (hs : Kept s₀ s) :
    Kept s₀ (State.ringDoorbell s m seq) := by
  unfold State.ringDoorbell
  repeat' first
    | with_reducible assumption
    | with_reducible apply State.modMbox_kept
    | with_reducible apply State.setFlag_kept
    | with_reducible apply State.drainBad_kept
    | with_reducible apply State.modSunas_kept
    | extract_lets
    | split
    | intro _
    | dsimp +zetaDelta only
    | with_reducible rfl

end Sys2Proof.Machine
end

