-- ==== Sys2Proof/Laws/Mmio.lean ====
section
/-!
SUPPORT. What the operations of Machine/Mmio.lean keep (Laws/Kept.lean).
-/
namespace Sys2Proof.Machine

open Sys2Proof

theorem State.cfgErr_kept {s₀ : State} {s : State} (b : Blk) (hs : Kept s₀ s) :
    Kept s₀ (State.cfgErr s b) := by
  unfold State.cfgErr
  repeat' first
    | with_reducible assumption
    | with_reducible apply State.setFlag_kept

theorem State.setIndex_kept {s₀ : State} {s : State} (b : Blk) (key : Nat) (v : Nat) (hs : Kept s₀ s) :
    Kept s₀ (State.setIndex s b key v) := by
  unfold State.setIndex
  repeat' first
    | with_reducible assumption
    | extract_lets
    | dsimp +zetaDelta only
    | fail_if_no_progress (with_reducible apply Kept.mk_of <;> try first | with_reducible rfl | exact id | exact Nat.le_refl _)

theorem State.autoInc_kept {s₀ : State} {s : State} (b : Blk) (i : IndexReg) (hs : Kept s₀ s) :
    Kept s₀ (State.autoInc s b i) := by
  unfold State.autoInc
  repeat' first
    | with_reducible assumption
    | with_reducible apply State.setIndex_kept
    | extract_lets
    | split

theorem State.writeIndex_kept {s₀ : State} {s : State} (b : Blk) (i : IndexReg) (v : Nat) (hs : Kept s₀ s) :
    Kept s₀ (State.writeIndex s b i v) := by
  unfold State.writeIndex
  repeat' first
    | with_reducible assumption
    | with_reducible apply State.cfgErr_kept
    | with_reducible apply State.setIndex_kept
    | split

theorem State.writeCtrl_kept {s₀ : State} {s : State} (b : Blk) (bits : Nat) (v : Nat) (hs : Kept s₀ s) :
    Kept s₀ (State.writeCtrl s b bits v) := by
  unfold State.writeCtrl
  repeat' first
    | with_reducible assumption
    | extract_lets
    | dsimp +zetaDelta only
    | fail_if_no_progress (with_reducible apply Kept.mk_of <;> try first | with_reducible rfl | exact id | exact Nat.le_refl _)

theorem State.readFlags_kept {s₀ : State} {s : State} (b : Blk) (hs : Kept s₀ s) :
    Kept s₀ (State.readFlags s b).2 := by
  unfold State.readFlags
  repeat' first
    | with_reducible assumption
    | with_reducible apply State.setFlags_kept

theorem State.latch_kept {s₀ : State} {s : State} (key : Nat) (v : Nat) (hs : Kept s₀ s) :
    Kept s₀ (State.latch s key v) := by
  unfold State.latch
  repeat' first
    | with_reducible assumption
    | extract_lets
    | dsimp +zetaDelta only
    | fail_if_no_progress (with_reducible apply Kept.mk_of <;> try first | with_reducible rfl | exact id | exact Nat.le_refl _)

theorem State.mboxWrite_kept {s₀ : State} {s : State} (mb : Nat) (off : Nat) (v : Nat) (hs : Kept s₀ s) :
    Kept s₀ (State.mboxWrite s mb off v) := by
  unfold State.mboxWrite
  repeat' first
    | with_reducible assumption
    | with_reducible apply State.ringDoorbell_kept
    | with_reducible apply State.writeCtrl_kept
    | with_reducible apply State.poke_kept
    | split

theorem State.modCtPort_kept {s₀ : State} {s : State} (t : Nat) (h : Nat) (f : CtPort → CtPort) (hs : Kept s₀ s) :
    Kept s₀ (State.modCtPort s t h f) := by
  unfold State.modCtPort
  repeat' first
    | with_reducible assumption
    | with_reducible apply State.modTile_kept

theorem State.ctPortRead_kept {s₀ : State} {s : State} (t : Nat) (h : Nat) (r : Nat) (hs : Kept s₀ s) :
    Kept s₀ (State.ctPortRead s t h r).2 := by
  unfold State.ctPortRead
  repeat' first
    | with_reducible assumption
    | with_reducible apply State.modCtPort_kept
    | extract_lets
    | split

theorem State.ctPortOp_kept {s₀ : State} {s : State} (t : Nat) (h : Nat) (op : Nat) (n : Nat) (hs : Kept s₀ s) :
    Kept s₀ (State.ctPortOp s t h op n) := by
  unfold State.ctPortOp
  repeat' first
    | with_reducible assumption
    | with_reducible apply State.modCtPort_kept
    | with_reducible apply State.ctrAdd_kept
    | with_reducible apply State.ctrSet_kept
    | with_reducible apply State.modTile_kept
    | with_reducible apply State.ctFire_kept
    | extract_lets
    | split

theorem State.ctPortStart_kept {s₀ : State} {s : State} (t : Nat) (h : Nat) (v : Nat) (hs : Kept s₀ s) :
    Kept s₀ (State.ctPortStart s t h v) := by
  unfold State.ctPortStart
  repeat' first
    | with_reducible assumption
    | with_reducible apply State.cfgErr_kept
    | with_reducible apply State.modCtPort_kept
    | with_reducible apply State.ctPortOp_kept
    | with_reducible apply State.setFlag_kept
    | extract_lets
    | split

theorem State.ctPortWrite_kept {s₀ : State} {s : State} (t : Nat) (h : Nat) (r : Nat) (v : Nat) (hs : Kept s₀ s) :
    Kept s₀ (State.ctPortWrite s t h r v) := by
  unfold State.ctPortWrite
  repeat' first
    | with_reducible assumption
    | with_reducible apply State.modCtPort_kept
    | with_reducible apply State.ctPortStart_kept
    | split

theorem State.ringWrite_kept {s₀ : State} {s : State} (m : Master) (t : Nat) (r : Nat) (chead : Bool) (v : W32) (hs : Kept s₀ s) :
    Kept s₀ (State.ringWrite s m t r chead v) := by
  unfold State.ringWrite
  repeat' first
    | with_reducible assumption
    | with_reducible apply State.setFlag_kept
    | with_reducible apply State.modRing_kept
    | with_reducible apply State.offerTail_kept
    | extract_lets
    | split

theorem State.pendRead_kept {s₀ : State} {s : State} (m : Master) (t : Nat) (w : Nat) (hs : Kept s₀ s) :
    Kept s₀ (State.pendRead s m t w).2 := by
  unfold State.pendRead
  repeat' first
    | with_reducible assumption
    | with_reducible apply State.modTile_kept

end Sys2Proof.Machine
end

