-- ==== Sys2Proof/Laws/RegAccess.lean ====
section
/-!
SUPPORT. What the operations of Machine/RegAccess.lean keep (Laws/Kept.lean).
-/
namespace Sys2Proof.Machine

open Sys2Proof

theorem State.readData_kept {s₀ : State} {s : State} (b : Blk) (key : Nat) (e : Nat) (hs : Kept s₀ s) :
    Kept s₀ (State.readData s b key e).2 := by
  unfold State.readData
  repeat' first
    | with_reducible assumption
    | with_reducible apply State.cfgErr_kept
    | with_reducible apply State.modRing_kept
    | with_reducible apply State.latch_kept
    | extract_lets
    | split

theorem State.readPlain_kept {s₀ : State} {s : State} (m : Master) (b : Blk) (off : Nat) (hs : Kept s₀ s) :
    Kept s₀ (State.readPlain s m b off).2 := by
  unfold State.readPlain
  repeat' first
    | with_reducible assumption
    | with_reducible apply State.latch_kept
    | with_reducible apply State.modTile_kept
    | with_reducible apply State.ctPortRead_kept
    | with_reducible apply State.pendRead_kept
    | extract_lets
    | split

theorem State.readBlock_kept {s₀ : State} {s : State} (m : Master) (b : Blk) (off : Nat) (hs : Kept s₀ s) :
    Kept s₀ (State.readBlock s m b off).2 := by
  unfold State.readBlock
  repeat' first
    | with_reducible assumption
    | with_reducible apply State.readData_kept
    | with_reducible apply State.autoInc_kept
    | with_reducible apply State.readFlags_kept
    | with_reducible apply State.readPlain_kept
    | extract_lets
    | split

theorem State.regRead_kept {s₀ : State} {s : State} (m : Master) (a : Nat) (hs : Kept s₀ s) :
    Kept s₀ (State.regRead s m a).2 := by
  unfold State.regRead
  repeat' first
    | with_reducible assumption
    | with_reducible apply State.setFlag_kept
    | with_reducible apply State.readBlock_kept
    | extract_lets
    | split

theorem State.mapWrite_kept {s₀ : State} {s : State} (t : Nat) (a : Nat) (e : Nat) (p : Nat) (hs : Kept s₀ s) :
    Kept s₀ (State.mapWrite s t a e p) := by
  unfold State.mapWrite
  repeat' first
    | with_reducible assumption
    | with_reducible apply State.cfgErr_kept
    | with_reducible apply State.modArr_kept
    | extract_lets
    | split

theorem State.repairWrite_kept {s₀ : State} {s : State} (m : Master) (t : Nat) (a : Nat) (kind : Nat) (v : Nat) (hs : Kept s₀ s) :
    Kept s₀ (State.repairWrite s m t a kind v) := by
  unfold State.repairWrite
  repeat' first
    | with_reducible assumption
    | with_reducible apply State.setFlag_kept
    | with_reducible apply State.cfgErr_kept
    | with_reducible apply State.mapWrite_kept
    | extract_lets
    | split

theorem State.scrubWrite_kept {s₀ : State} {s : State} (m : Master) (k : Nat) (kind : Nat) (v : Nat) (hs : Kept s₀ s) :
    Kept s₀ (State.scrubWrite s m k kind v) := by
  unfold State.scrubWrite
  repeat' first
    | with_reducible assumption
    | with_reducible apply State.setFlag_kept
    | with_reducible apply State.modStack_kept
    | with_reducible apply State.cfgErr_kept
    | extract_lets
    | split

theorem State.cohWrite_kept {s₀ : State} {s : State} (v : Nat) (hs : Kept s₀ s) :
    Kept s₀ (State.cohWrite s v) := by
  unfold State.cohWrite
  repeat' first
    | with_reducible assumption
    | with_reducible apply State.cfgErr_kept
    | extract_lets
    | split
    | dsimp +zetaDelta only
    | fail_if_no_progress (with_reducible apply Kept.mk_of <;> try first | with_reducible rfl | exact id | exact Nat.le_refl _)

theorem State.lineWrite_kept {s₀ : State} {s : State} (v : Nat) (hs : Kept s₀ s) :
    Kept s₀ (State.lineWrite s v) := by
  unfold State.lineWrite
  repeat' first
    | with_reducible assumption
    | with_reducible apply State.cfgErr_kept
    | extract_lets
    | split
    | dsimp +zetaDelta only
    | fail_if_no_progress (with_reducible apply Kept.mk_of <;> try first | with_reducible rfl | exact id | exact Nat.le_refl _)

theorem State.writeBlock_kept {s₀ : State} {s : State} (m : Master) (b : Blk) (off : Nat) (v : Nat) (hs : Kept s₀ s) :
    Kept s₀ (State.writeBlock s m b off v) := by
  unfold State.writeBlock
  repeat' first
    | with_reducible assumption
    | with_reducible apply State.writeIndex_kept
    | with_reducible apply State.writeCtrl_kept
    | with_reducible apply State.autoInc_kept
    | with_reducible apply State.repairWrite_kept
    | with_reducible apply State.scrubWrite_kept
    | with_reducible apply State.ctPortWrite_kept
    | with_reducible apply State.ringWrite_kept
    | with_reducible apply State.cohWrite_kept
    | with_reducible apply State.modCore_kept
    | with_reducible apply State.lineWrite_kept
    | with_reducible apply State.mboxWrite_kept
    | extract_lets
    | split
    | dsimp +zetaDelta only

theorem State.regWrite_kept {s₀ : State} {s : State} (m : Master) (a : Nat) (v : W32) (hs : Kept s₀ s) :
    Kept s₀ (State.regWrite s m a v).2 := by
  unfold State.regWrite
  repeat' first
    | with_reducible assumption
    | with_reducible apply State.setFlag_kept
    | with_reducible apply State.writeBlock_kept
    | extract_lets
    | split

theorem State.regRefuse_kept {s₀ : State} {s : State} (m : Master) (store : Bool) (a : Nat) (reason : Nat) (hs : Kept s₀ s) :
    Kept s₀ (State.regRefuse s m store a reason) := by
  unfold State.regRefuse
  repeat' first
    | with_reducible assumption
    | with_reducible apply State.emit_kept
    | with_reducible apply State.accessFault_kept
    | split

theorem State.readRow_kept {s₀ : State} {s : State} (m : Master) (a : Nat) (hs : Kept s₀ s) :
    Kept s₀ (State.readRow s m a) := by
  unfold State.readRow
  repeat' first
    | with_reducible assumption
    | with_reducible apply State.regRead_kept
    | with_reducible apply State.emit_kept
    | with_reducible apply State.regRefuse_kept
    | with_reducible apply Kept.of_snd (by assumption)
    | split

theorem State.writeRow_kept {s₀ : State} {s : State} (m : Master) (a : Nat) (v : W32) (hs : Kept s₀ s) :
    Kept s₀ (State.writeRow s m a v) := by
  unfold State.writeRow
  repeat' first
    | with_reducible assumption
    | with_reducible apply State.regWrite_kept
    | with_reducible apply State.regRefuse_kept
    | with_reducible apply Kept.of_snd (by assumption)
    | split

end Sys2Proof.Machine
end

