-- ==== Sys2Proof/Laws/CoreMem.lean ====
section
/-!
SUPPORT. What the operations of Machine/CoreMem.lean keep (Laws/Kept.lean).
-/
namespace Sys2Proof.Machine

open Sys2Proof

theorem State.coreFault_kept {s₀ : State} {s : State} (h : Nat) (store : Bool) (va : Nat) (pa : Nat) (f : XFault) (hs : Kept s₀ s) :
    Kept s₀ (State.coreFault s h store va pa f) := by
  unfold State.coreFault
  repeat' first
    | with_reducible assumption
    | with_reducible apply State.coreTrap_kept
    | with_reducible apply State.accessFault_kept
    | with_reducible apply State.fresh_kept
    | extract_lets
    | split

theorem State.walk_kept {s₀ : State} {s : State} (mf : MemFaults) (c : Core) (mode : Mode) (store : Bool) (va : Nat) (a1 : Nat) (a2 : Nat) (hs : Kept s₀ s) :
    Kept s₀ (State.walk s mf c mode store va a1 a2).2 := by
  induction a1 generalizing s mf c mode store va a2 hs with
  | zero =>
    unfold State.walk
    repeat' first
      | with_reducible assumption
  | succ i ih =>
    unfold State.walk
    repeat' first
      | with_reducible assumption
      | with_reducible apply ih
      | with_reducible apply State.load_kept
      | with_reducible apply Kept.of_snd (by assumption)
      | extract_lets
      | split

theorem State.translate_kept {s₀ : State} {s : State} (mf : MemFaults) (h : Nat) (store : Bool) (va : Nat) (n : Nat) (hs : Kept s₀ s) :
    Kept s₀ (State.translate s mf h store va n).2 := by
  unfold State.translate
  repeat' first
    | with_reducible assumption
    | with_reducible apply State.walk_kept
    | with_reducible apply Kept.of_snd (by assumption)
    | extract_lets
    | split
    | dsimp +zetaDelta only

theorem State.xlate_kept {s₀ : State} {s : State} (mf : MemFaults) (h : Nat) (store : Bool) (a1 : List (Nat × Nat)) (hs : Kept s₀ s) :
    Kept s₀ (State.xlate s mf h store a1).2 := by
  induction a1 generalizing s mf h store hs with
  | nil =>
    unfold State.xlate
    repeat' first
      | with_reducible assumption
  | cons x l ih =>
    unfold State.xlate
    repeat' first
      | with_reducible assumption
      | with_reducible apply ih
      | with_reducible apply State.translate_kept
      | with_reducible apply Kept.of_snd (by assumption)
      | split

theorem State.coreCharge_kept {s₀ : State} {s : State} (h : Nat) (write : Bool) (pa : Nat) (n : Nat) (hs : Kept s₀ s) :
    Kept s₀ (State.coreCharge s h write pa n) := by
  unfold State.coreCharge
  repeat' first
    | with_reducible assumption
    | with_reducible apply State.chargeHbm_kept
    | split

theorem State.coreRead_kept {s₀ : State} {s : State} (mf : MemFaults) (h : Nat) (pa : Nat) (n : Nat) (hs : Kept s₀ s) :
    Kept s₀ (State.coreRead s mf h pa n).2 := by
  unfold State.coreRead
  repeat' first
    | with_reducible assumption
    | with_reducible apply State.viewRefused_kept
    | with_reducible apply State.viewRead_kept
    | with_reducible apply State.regRead_kept
    | with_reducible apply State.load_kept
    | with_reducible apply State.coreCharge_kept
    | with_reducible apply Kept.of_thd (by assumption)
    | with_reducible apply Kept.of_snd (by assumption)
    | split

theorem State.coreReadAll_kept {s₀ : State} {s : State} (mf : MemFaults) (h : Nat) (a1 : List (Nat × Nat × Nat)) (hs : Kept s₀ s) :
    Kept s₀ (State.coreReadAll s mf h a1).2 := by
  induction a1 generalizing s mf h hs with
  | nil =>
    unfold State.coreReadAll
    repeat' first
      | with_reducible assumption
  | cons x l ih =>
    unfold State.coreReadAll
    repeat' first
      | with_reducible assumption
      | with_reducible apply ih
      | with_reducible apply State.coreRead_kept
      | with_reducible apply Kept.of_snd (by assumption)
      | split

theorem State.coreLoad_kept {s₀ : State} {s : State} (mf : MemFaults) (h : Nat) (va : Nat) (n : Nat) (signed : Bool) (unit : Nat) (rd : Nat) (mask : Nat) (hs : Kept s₀ s) :
    Kept s₀ (State.coreLoad s mf h va n signed unit rd mask) := by
  unfold State.coreLoad
  repeat' first
    | with_reducible assumption
    | with_reducible apply State.xlate_kept
    | with_reducible apply State.coreFault_kept
    | with_reducible apply State.accessFault_kept
    | with_reducible apply State.sendPieces_kept
    | with_reducible apply State.newOp_kept
    | with_reducible apply State.modCore_kept
    | with_reducible apply State.coreReadAll_kept
    | with_reducible apply Kept.of_snd (by assumption)
    | extract_lets
    | split

theorem State.storeRefused_kept {s₀ : State} {s : State} (mf : MemFaults) (h : Nat) (pa : Nat) (n : Nat) (hs : Kept s₀ s) :
    Kept s₀ (State.storeRefused s mf h pa n) := by
  unfold State.storeRefused
  repeat' first
    | with_reducible assumption
    | with_reducible apply State.viewRefused_kept
    | with_reducible apply State.mergeErr_kept
    | split

theorem State.coreWrite_kept {s₀ : State} {s : State} (mf : MemFaults) (h : Nat) (pa : Nat) (bs : List Byte) (hs : Kept s₀ s) :
    Kept s₀ (State.coreWrite s mf h pa bs).2 := by
  unfold State.coreWrite
  repeat' first
    | with_reducible assumption
    | with_reducible apply State.viewWrite_kept
    | with_reducible apply State.regWrite_kept
    | with_reducible apply State.coreCharge_kept
    | with_reducible apply State.store_kept
    | with_reducible apply Kept.of_thd (by assumption)
    | with_reducible apply Kept.of_snd (by assumption)
    | split

theorem State.coreWriteAll_kept {s₀ : State} {s : State} (mf : MemFaults) (h : Nat) (a1 : List (Nat × List Byte)) (hs : Kept s₀ s) :
    Kept s₀ (State.coreWriteAll s mf h a1).2 := by
  induction a1 generalizing s mf h hs with
  | nil =>
    unfold State.coreWriteAll
    repeat' first
      | with_reducible assumption
  | cons x l ih =>
    unfold State.coreWriteAll
    repeat' first
      | with_reducible assumption
      | with_reducible apply ih
      | with_reducible apply State.coreWrite_kept
      | with_reducible apply Kept.of_snd (by assumption)
      | split

theorem State.coreStore_kept {s₀ : State} {s : State} (mf : MemFaults) (h : Nat) (va : Nat) (n : Nat) (runs : List (Nat × List Byte)) (hs : Kept s₀ s) :
    Kept s₀ (State.coreStore s mf h va n runs) := by
  unfold State.coreStore
  repeat' first
    | with_reducible assumption
    | with_reducible apply State.xlate_kept
    | with_reducible apply State.coreFault_kept
    | with_reducible apply State.accessFault_kept
    | with_reducible apply State.sendPieces_kept
    | with_reducible apply State.newOp_kept
    | with_reducible apply State.modCore_kept
    | with_reducible apply State.storeRefused_kept
    | with_reducible apply State.coreWriteAll_kept
    | with_reducible apply Kept.of_snd (by assumption)
    | extract_lets
    | split
    | with_reducible apply Kept.with_mem

theorem State.takeIntr_kept {s₀ : State} {s : State} (h : Nat) (hs : Kept s₀ s) :
    Kept s₀ (State.takeIntr s h) := by
  unfold State.takeIntr
  repeat' first
    | with_reducible assumption
    | with_reducible apply State.modCore_kept
    | split

theorem State.coreRun_kept {s₀ : State} {s : State} (h : Nat) (len : Nat) (body : Core → State → State) (hs : Kept s₀ s) (hbody : ∀ (x0 : Core) (x1 : State), Kept s₀ x1 → Kept s₀ (body x0 x1)) :
    Kept s₀ (State.coreRun s h len body) := by
  unfold State.coreRun
  repeat' first
    | with_reducible assumption
    | with_reducible apply hbody
    | with_reducible apply State.modCore_kept
    | with_reducible apply State.takeIntr_kept
    | extract_lets
    | split

end Sys2Proof.Machine
end

