-- ==== Sys2Proof/Laws/CoreCsr.lean ====
section
/-!
SUPPORT. What the operations of Machine/CoreCsr.lean keep (Laws/Kept.lean).
-/
namespace Sys2Proof.Machine

open Sys2Proof

theorem State.csrRead_kept {s₀ : State} {s : State} (h : Nat) (n : Nat) (hs : Kept s₀ s) :
    Kept s₀ (State.csrRead s h n).2 := by
  unfold State.csrRead
  dsimp only
  rw [apply_ite Prod.snd]
  exact iteInduction (motive := Kept s₀) (fun _ => State.fresh_kept 64 hs) (fun _ => hs)

theorem State.csrAccess_kept {s₀ : State} {s : State} (h : Nat) (n : Nat) (kind : Nat) (imm : Bool) (rd : Nat) (src : Nat) (hs : Kept s₀ s) :
    Kept s₀ (State.csrAccess s h n kind imm rd src) := by
  unfold State.csrAccess
  repeat' first
    | with_reducible assumption
    | with_reducible apply State.coreRun_kept
    | with_reducible apply State.illegal_kept
    | with_reducible apply State.csrRead_kept
    | with_reducible apply State.modCore_kept
    | with_reducible apply Kept.of_snd (by assumption)
    | extract_lets
    | split
    | intro _

end Sys2Proof.Machine
end

