-- ==== Sys2Proof/Laws/State.lean ====
section
/-!
SUPPORT. What the updates of the state leave alone, one lemma for each field, and what they read back as; reading and
writing the numbered tables.
-/
namespace Sys2Proof.Machine

open Sys2Proof

/-! ### Tables -/

/-- Writing an entry twice is writing it once. -/
theorem Tbl.set_set {α : Type} (t : Tbl α) (k : Nat) (v w : α) : Tbl.set (Tbl.set t k v) k w = Tbl.set t k w := by
  induction t with
  | nil => simp [Tbl.set]
  | cons p t ih =>
    obtain ⟨j, x⟩ := p
    simp only [Tbl.set]
    split
    · simp [Tbl.set]
    · split
      · simp [Tbl.set]
      · rename_i h1 h2; simp [Tbl.set, h1, h2, ih]

/-- Reading the entry that was written. -/
theorem Tbl.get_set {α : Type} (d : α) (t : Tbl α) (k : Nat) (v : α) : Tbl.get d (Tbl.set t k v) k = v := by
  induction t with
  | nil => simp [Tbl.set, Tbl.get]
  | cons p t ih =>
    obtain ⟨j, x⟩ := p
    simp only [Tbl.set]
    split
    · simp [Tbl.get]
    · split
      · simp [Tbl.get]
      · rename_i h1 h2; simp [Tbl.get, h1, h2, ih]

/-- The numbers of a table rise from at least `lo`: the form that every write keeps. -/
def Tbl.rises {α : Type} : Nat → Tbl α → Bool
  | _, [] => true
  | lo, (j, _) :: t => decide (lo ≤ j) && Tbl.rises (j + 1) t

/-- A write keeps the numbers rising. -/
theorem Tbl.set_rises {α : Type} (v : α) {k : Nat} : ∀ {t : Tbl α} {lo : Nat}, lo ≤ k → Tbl.rises lo t = true → Tbl.rises lo (Tbl.set t k v) = true
  | [], lo, h, _ => by simp [Tbl.set, Tbl.rises, h]
  | (j, x) :: t, lo, h, ht => by
    simp only [Tbl.rises, Bool.and_eq_true, decide_eq_true_eq] at ht
    unfold Tbl.set
    split_ifs with h1 h2
    · simp only [Tbl.rises, Bool.and_eq_true, decide_eq_true_eq]; exact ⟨h, by omega, ht.2⟩
    · subst h2; simp only [Tbl.rises, Bool.and_eq_true, decide_eq_true_eq]; exact ⟨h, ht.2⟩
    · simp only [Tbl.rises, Bool.and_eq_true, decide_eq_true_eq]; exact ⟨ht.1, Tbl.set_rises v (by omega) ht.2⟩

/-- Reading another entry of a table whose numbers rise. -/
theorem Tbl.get_set_ne {α : Type} (d : α) {i k : Nat} (v : α) (h : i ≠ k) :
    ∀ {t : Tbl α} {lo : Nat}, Tbl.rises lo t = true → Tbl.get d (Tbl.set t k v) i = Tbl.get d t i
  | [], _, _ => by simp [Tbl.set, Tbl.get, h]
  | (j, x) :: t, lo, ht => by
    simp only [Tbl.rises, Bool.and_eq_true, decide_eq_true_eq] at ht
    unfold Tbl.set
    split_ifs with h1 h2
    · unfold Tbl.get; rw [if_neg h]
      by_cases h3 : i < k
      · rw [if_pos h3, if_neg (by omega), if_pos (by omega)]
      · rw [if_neg h3]; rw [Tbl.get]
    · subst h2; unfold Tbl.get; rw [if_neg h, if_neg h]
    · unfold Tbl.get
      rw [Tbl.get_set_ne d v h ht.2]

/-- The entry that an update changes. -/
theorem Tbl.get_upd {α : Type} (d : α) (t : Tbl α) (k : Nat) (f : α → α) : Tbl.get d (Tbl.upd d t k f) k = f (Tbl.get d t k) :=
  Tbl.get_set ..

/-- Two updates of an entry are one. -/
theorem Tbl.upd_upd {α : Type} (d : α) (t : Tbl α) (k : Nat) (f g : α → α) :
    Tbl.upd d (Tbl.upd d t k f) k g = Tbl.upd d t k fun x => g (f x) := by
  unfold Tbl.upd; rw [Tbl.get_set, Tbl.set_set]

/-! ### What the updates read back as -/

@[simp] theorem State.modTile_tile (s : State) (t : Nat) (f : Tile → Tile) : (s.modTile t f).tile t = f (s.tile t) := Tbl.get_upd ..
@[simp] theorem State.modStack_stack (s : State) (k : Nat) (f : Stack → Stack) : (s.modStack k f).stack k = f (s.stack k) := Tbl.get_upd ..
@[simp] theorem State.modPart_part (s : State) (p : Nat) (f : Part → Part) : (s.modPart p f).part p = f (s.part p) := Tbl.get_upd ..
@[simp] theorem State.modHusk_husk (s : State) (p : Nat) (f : Husk → Husk) : (s.modHusk p f).husk p = f (s.husk p) := Tbl.get_upd ..
@[simp] theorem State.modIsland_island (s : State) (i : Nat) (f : Island → Island) : (s.modIsland i f).island i = f (s.island i) := Tbl.get_upd ..
@[simp] theorem State.modCore_core (s : State) (h : Nat) (f : Core → Core) : (s.modCore h f).core h = f (s.core h) := Tbl.get_upd ..
@[simp] theorem State.modConn_conn (s : State) (c : Nat) (f : Conn → Conn) : (s.modConn c f).conn c = f (s.conn c) := Tbl.get_upd ..
@[simp] theorem State.modMbox_mbox (s : State) (m : Nat) (f : Mbox → Mbox) : (s.modMbox m f).mbox m = f (s.mbox m) := Tbl.get_upd ..
@[simp] theorem State.modArr_arr (s : State) (t a : Nat) (f : Arr → Arr) : (s.modArr t a f).arr t a = f (s.arr t a) := by
  simp [State.arr, State.modArr, Tbl.get_upd]
@[simp] theorem State.modCtx_ctx (s : State) (t c : Nat) (f : Ctx → Ctx) : (s.modCtx t c f).ctx t c = f (s.ctx t c) := by
  simp [State.ctx, State.modCtx, Tbl.get_upd]
@[simp] theorem State.modQueue_queue (s : State) (t q : Nat) (f : EngQueue → EngQueue) : (s.modQueue t q f).queue t q = f (s.queue t q) := by
  simp [State.queue, State.modQueue, Tbl.get_upd]
@[simp] theorem State.modRing_ring (s : State) (t r : Nat) (f : Ring → Ring) : (s.modRing t r f).ring t r = f (s.ring t r) := by
  simp [State.ring, State.modRing, Tbl.get_upd]
@[simp] theorem State.setFlags_flagsOf (s : State) (ln : Nat) (v : W32) : (s.setFlags ln v).flagsOf ln = v := Tbl.get_set ..
@[simp] theorem State.modNet_net (s : State) (f : Net → Net) : (s.modNet f).net = f s.net := rfl
@[simp] theorem State.modLog_log (s : State) (f : Flash → Flash) : (s.modLog f).log = f s.log := rfl
@[simp] theorem State.modSunas_sunas (s : State) (f : Sunas → Sunas) : (s.modSunas f).sunas = f s.sunas := rfl
@[simp] theorem State.modPower_power (s : State) (f : Power → Power) : (s.modPower f).power = f s.power := rfl
@[simp] theorem State.modStart_start (s : State) (f : Start → Start) : (s.modStart f).start = f s.start := rfl
@[simp] theorem State.modCk_cricket (s : State) (f : Cricket → Cricket) : (s.modCk f).cricket = f s.cricket := rfl
@[simp] theorem State.emit_out (s : State) (m : OutMsg) : (s.emit m).out = m :: s.out := rfl

/-- Two changes of one core are one. -/
theorem State.modCore_modCore (s : State) (h : Nat) (f g : Core → Core) : (s.modCore h f).modCore h g = s.modCore h fun c => g (f c) := by
  simp only [State.modCore, Tbl.upd_upd]

/-- Two changes of one Tiller are one. -/
theorem State.modTile_modTile (s : State) (t : Nat) (f g : Tile → Tile) : (s.modTile t f).modTile t g = s.modTile t fun c => g (f c) := by
  simp only [State.modTile, Tbl.upd_upd]

/-- Two changes of a core that agree on that core are one change. -/
theorem State.modCore_congr {s : State} {h : Nat} {f g : Core → Core} (e : f (s.core h) = g (s.core h)) : s.modCore h f = s.modCore h g := by
  unfold State.core at e
  unfold State.modCore Tbl.upd
  rw [e]

/-! ### What the updates leave alone -/


@[simp] theorem State.modTile_pending (s : State) (t : Nat) (f : Tile → Tile) : (s.modTile t f).pending = s.pending := rfl
@[simp] theorem State.modTile_out (s : State) (t : Nat) (f : Tile → Tile) : (s.modTile t f).out = s.out := rfl
@[simp] theorem State.modTile_timeNs (s : State) (t : Nat) (f : Tile → Tile) : (s.modTile t f).timeNs = s.timeNs := rfl
@[simp] theorem State.modTile_freeCtr (s : State) (t : Nat) (f : Tile → Tile) : (s.modTile t f).freeCtr = s.freeCtr := rfl
@[simp] theorem State.modTile_mem (s : State) (t : Nat) (f : Tile → Tile) : (s.modTile t f).mem = s.mem := rfl
@[simp] theorem State.modTile_bad (s : State) (t : Nat) (f : Tile → Tile) : (s.modTile t f).bad = s.bad := rfl
@[simp] theorem State.modTile_hbm (s : State) (t : Nat) (f : Tile → Tile) : (s.modTile t f).hbm = s.hbm := rfl
@[simp] theorem State.modTile_views (s : State) (t : Nat) (f : Tile → Tile) : (s.modTile t f).views = s.views := rfl
@[simp] theorem State.modTile_parts (s : State) (t : Nat) (f : Tile → Tile) : (s.modTile t f).parts = s.parts := rfl
@[simp] theorem State.modTile_counters (s : State) (t : Nat) (f : Tile → Tile) : (s.modTile t f).counters = s.counters := rfl
@[simp] theorem State.modTile_regs (s : State) (t : Nat) (f : Tile → Tile) : (s.modTile t f).regs = s.regs := rfl
@[simp] theorem State.modTile_log (s : State) (t : Nat) (f : Tile → Tile) : (s.modTile t f).log = s.log := rfl
@[simp] theorem State.modTile_net (s : State) (t : Nat) (f : Tile → Tile) : (s.modTile t f).net = s.net := rfl
@[simp] theorem State.modTile_sunas (s : State) (t : Nat) (f : Tile → Tile) : (s.modTile t f).sunas = s.sunas := rfl
@[simp] theorem State.modTile_husks (s : State) (t : Nat) (f : Tile → Tile) : (s.modTile t f).husks = s.husks := rfl
@[simp] theorem State.modTile_power (s : State) (t : Nat) (f : Tile → Tile) : (s.modTile t f).power = s.power := rfl
@[simp] theorem State.modTile_start (s : State) (t : Nat) (f : Tile → Tile) : (s.modTile t f).start = s.start := rfl
@[simp] theorem State.modTile_places (s : State) (t : Nat) (f : Tile → Tile) : (s.modTile t f).places = s.places := rfl
@[simp] theorem State.modTile_optics (s : State) (t : Nat) (f : Tile → Tile) : (s.modTile t f).optics = s.optics := rfl
@[simp] theorem State.modTile_cores (s : State) (t : Nat) (f : Tile → Tile) : (s.modTile t f).cores = s.cores := rfl
@[simp] theorem State.modTile_cricket (s : State) (t : Nat) (f : Tile → Tile) : (s.modTile t f).cricket = s.cricket := rfl

@[simp] theorem State.modArr_pending (s : State) (t a : Nat) (f : Arr → Arr) : (s.modArr t a f).pending = s.pending := rfl
@[simp] theorem State.modArr_out (s : State) (t a : Nat) (f : Arr → Arr) : (s.modArr t a f).out = s.out := rfl
@[simp] theorem State.modArr_timeNs (s : State) (t a : Nat) (f : Arr → Arr) : (s.modArr t a f).timeNs = s.timeNs := rfl
@[simp] theorem State.modArr_freeCtr (s : State) (t a : Nat) (f : Arr → Arr) : (s.modArr t a f).freeCtr = s.freeCtr := rfl
@[simp] theorem State.modArr_mem (s : State) (t a : Nat) (f : Arr → Arr) : (s.modArr t a f).mem = s.mem := rfl
@[simp] theorem State.modArr_bad (s : State) (t a : Nat) (f : Arr → Arr) : (s.modArr t a f).bad = s.bad := rfl
@[simp] theorem State.modArr_hbm (s : State) (t a : Nat) (f : Arr → Arr) : (s.modArr t a f).hbm = s.hbm := rfl
@[simp] theorem State.modArr_views (s : State) (t a : Nat) (f : Arr → Arr) : (s.modArr t a f).views = s.views := rfl
@[simp] theorem State.modArr_parts (s : State) (t a : Nat) (f : Arr → Arr) : (s.modArr t a f).parts = s.parts := rfl
@[simp] theorem State.modArr_counters (s : State) (t a : Nat) (f : Arr → Arr) : (s.modArr t a f).counters = s.counters := rfl
@[simp] theorem State.modArr_regs (s : State) (t a : Nat) (f : Arr → Arr) : (s.modArr t a f).regs = s.regs := rfl
@[simp] theorem State.modArr_log (s : State) (t a : Nat) (f : Arr → Arr) : (s.modArr t a f).log = s.log := rfl
@[simp] theorem State.modArr_net (s : State) (t a : Nat) (f : Arr → Arr) : (s.modArr t a f).net = s.net := rfl
@[simp] theorem State.modArr_sunas (s : State) (t a : Nat) (f : Arr → Arr) : (s.modArr t a f).sunas = s.sunas := rfl
@[simp] theorem State.modArr_husks (s : State) (t a : Nat) (f : Arr → Arr) : (s.modArr t a f).husks = s.husks := rfl
@[simp] theorem State.modArr_power (s : State) (t a : Nat) (f : Arr → Arr) : (s.modArr t a f).power = s.power := rfl
@[simp] theorem State.modArr_start (s : State) (t a : Nat) (f : Arr → Arr) : (s.modArr t a f).start = s.start := rfl
@[simp] theorem State.modArr_places (s : State) (t a : Nat) (f : Arr → Arr) : (s.modArr t a f).places = s.places := rfl
@[simp] theorem State.modArr_optics (s : State) (t a : Nat) (f : Arr → Arr) : (s.modArr t a f).optics = s.optics := rfl
@[simp] theorem State.modArr_cores (s : State) (t a : Nat) (f : Arr → Arr) : (s.modArr t a f).cores = s.cores := rfl
@[simp] theorem State.modArr_cricket (s : State) (t a : Nat) (f : Arr → Arr) : (s.modArr t a f).cricket = s.cricket := rfl

@[simp] theorem State.modCtx_pending (s : State) (t c : Nat) (f : Ctx → Ctx) : (s.modCtx t c f).pending = s.pending := rfl
@[simp] theorem State.modCtx_out (s : State) (t c : Nat) (f : Ctx → Ctx) : (s.modCtx t c f).out = s.out := rfl
@[simp] theorem State.modCtx_timeNs (s : State) (t c : Nat) (f : Ctx → Ctx) : (s.modCtx t c f).timeNs = s.timeNs := rfl
@[simp] theorem State.modCtx_freeCtr (s : State) (t c : Nat) (f : Ctx → Ctx) : (s.modCtx t c f).freeCtr = s.freeCtr := rfl
@[simp] theorem State.modCtx_mem (s : State) (t c : Nat) (f : Ctx → Ctx) : (s.modCtx t c f).mem = s.mem := rfl
@[simp] theorem State.modCtx_bad (s : State) (t c : Nat) (f : Ctx → Ctx) : (s.modCtx t c f).bad = s.bad := rfl
@[simp] theorem State.modCtx_hbm (s : State) (t c : Nat) (f : Ctx → Ctx) : (s.modCtx t c f).hbm = s.hbm := rfl
@[simp] theorem State.modCtx_views (s : State) (t c : Nat) (f : Ctx → Ctx) : (s.modCtx t c f).views = s.views := rfl
@[simp] theorem State.modCtx_parts (s : State) (t c : Nat) (f : Ctx → Ctx) : (s.modCtx t c f).parts = s.parts := rfl
@[simp] theorem State.modCtx_counters (s : State) (t c : Nat) (f : Ctx → Ctx) : (s.modCtx t c f).counters = s.counters := rfl
@[simp] theorem State.modCtx_regs (s : State) (t c : Nat) (f : Ctx → Ctx) : (s.modCtx t c f).regs = s.regs := rfl
@[simp] theorem State.modCtx_log (s : State) (t c : Nat) (f : Ctx → Ctx) : (s.modCtx t c f).log = s.log := rfl
@[simp] theorem State.modCtx_net (s : State) (t c : Nat) (f : Ctx → Ctx) : (s.modCtx t c f).net = s.net := rfl
@[simp] theorem State.modCtx_sunas (s : State) (t c : Nat) (f : Ctx → Ctx) : (s.modCtx t c f).sunas = s.sunas := rfl
@[simp] theorem State.modCtx_husks (s : State) (t c : Nat) (f : Ctx → Ctx) : (s.modCtx t c f).husks = s.husks := rfl
@[simp] theorem State.modCtx_power (s : State) (t c : Nat) (f : Ctx → Ctx) : (s.modCtx t c f).power = s.power := rfl
@[simp] theorem State.modCtx_start (s : State) (t c : Nat) (f : Ctx → Ctx) : (s.modCtx t c f).start = s.start := rfl
@[simp] theorem State.modCtx_places (s : State) (t c : Nat) (f : Ctx → Ctx) : (s.modCtx t c f).places = s.places := rfl
@[simp] theorem State.modCtx_optics (s : State) (t c : Nat) (f : Ctx → Ctx) : (s.modCtx t c f).optics = s.optics := rfl
@[simp] theorem State.modCtx_cores (s : State) (t c : Nat) (f : Ctx → Ctx) : (s.modCtx t c f).cores = s.cores := rfl
@[simp] theorem State.modCtx_cricket (s : State) (t c : Nat) (f : Ctx → Ctx) : (s.modCtx t c f).cricket = s.cricket := rfl

@[simp] theorem State.modQueue_pending (s : State) (t q : Nat) (f : EngQueue → EngQueue) : (s.modQueue t q f).pending = s.pending := rfl
@[simp] theorem State.modQueue_out (s : State) (t q : Nat) (f : EngQueue → EngQueue) : (s.modQueue t q f).out = s.out := rfl
@[simp] theorem State.modQueue_timeNs (s : State) (t q : Nat) (f : EngQueue → EngQueue) : (s.modQueue t q f).timeNs = s.timeNs := rfl
@[simp] theorem State.modQueue_freeCtr (s : State) (t q : Nat) (f : EngQueue → EngQueue) : (s.modQueue t q f).freeCtr = s.freeCtr := rfl
@[simp] theorem State.modQueue_mem (s : State) (t q : Nat) (f : EngQueue → EngQueue) : (s.modQueue t q f).mem = s.mem := rfl
@[simp] theorem State.modQueue_bad (s : State) (t q : Nat) (f : EngQueue → EngQueue) : (s.modQueue t q f).bad = s.bad := rfl
@[simp] theorem State.modQueue_hbm (s : State) (t q : Nat) (f : EngQueue → EngQueue) : (s.modQueue t q f).hbm = s.hbm := rfl
@[simp] theorem State.modQueue_views (s : State) (t q : Nat) (f : EngQueue → EngQueue) : (s.modQueue t q f).views = s.views := rfl
@[simp] theorem State.modQueue_parts (s : State) (t q : Nat) (f : EngQueue → EngQueue) : (s.modQueue t q f).parts = s.parts := rfl
@[simp] theorem State.modQueue_counters (s : State) (t q : Nat) (f : EngQueue → EngQueue) : (s.modQueue t q f).counters = s.counters := rfl
@[simp] theorem State.modQueue_regs (s : State) (t q : Nat) (f : EngQueue → EngQueue) : (s.modQueue t q f).regs = s.regs := rfl
@[simp] theorem State.modQueue_log (s : State) (t q : Nat) (f : EngQueue → EngQueue) : (s.modQueue t q f).log = s.log := rfl
@[simp] theorem State.modQueue_net (s : State) (t q : Nat) (f : EngQueue → EngQueue) : (s.modQueue t q f).net = s.net := rfl
@[simp] theorem State.modQueue_sunas (s : State) (t q : Nat) (f : EngQueue → EngQueue) : (s.modQueue t q f).sunas = s.sunas := rfl
@[simp] theorem State.modQueue_husks (s : State) (t q : Nat) (f : EngQueue → EngQueue) : (s.modQueue t q f).husks = s.husks := rfl
@[simp] theorem State.modQueue_power (s : State) (t q : Nat) (f : EngQueue → EngQueue) : (s.modQueue t q f).power = s.power := rfl
@[simp] theorem State.modQueue_start (s : State) (t q : Nat) (f : EngQueue → EngQueue) : (s.modQueue t q f).start = s.start := rfl
@[simp] theorem State.modQueue_places (s : State) (t q : Nat) (f : EngQueue → EngQueue) : (s.modQueue t q f).places = s.places := rfl
@[simp] theorem State.modQueue_optics (s : State) (t q : Nat) (f : EngQueue → EngQueue) : (s.modQueue t q f).optics = s.optics := rfl
@[simp] theorem State.modQueue_cores (s : State) (t q : Nat) (f : EngQueue → EngQueue) : (s.modQueue t q f).cores = s.cores := rfl
@[simp] theorem State.modQueue_cricket (s : State) (t q : Nat) (f : EngQueue → EngQueue) : (s.modQueue t q f).cricket = s.cricket := rfl

@[simp] theorem State.modRing_pending (s : State) (t r : Nat) (f : Ring → Ring) : (s.modRing t r f).pending = s.pending := rfl
@[simp] theorem State.modRing_out (s : State) (t r : Nat) (f : Ring → Ring) : (s.modRing t r f).out = s.out := rfl
@[simp] theorem State.modRing_timeNs (s : State) (t r : Nat) (f : Ring → Ring) : (s.modRing t r f).timeNs = s.timeNs := rfl
@[simp] theorem State.modRing_freeCtr (s : State) (t r : Nat) (f : Ring → Ring) : (s.modRing t r f).freeCtr = s.freeCtr := rfl
@[simp] theorem State.modRing_mem (s : State) (t r : Nat) (f : Ring → Ring) : (s.modRing t r f).mem = s.mem := rfl
@[simp] theorem State.modRing_bad (s : State) (t r : Nat) (f : Ring → Ring) : (s.modRing t r f).bad = s.bad := rfl
@[simp] theorem State.modRing_hbm (s : State) (t r : Nat) (f : Ring → Ring) : (s.modRing t r f).hbm = s.hbm := rfl
@[simp] theorem State.modRing_views (s : State) (t r : Nat) (f : Ring → Ring) : (s.modRing t r f).views = s.views := rfl
@[simp] theorem State.modRing_parts (s : State) (t r : Nat) (f : Ring → Ring) : (s.modRing t r f).parts = s.parts := rfl
@[simp] theorem State.modRing_counters (s : State) (t r : Nat) (f : Ring → Ring) : (s.modRing t r f).counters = s.counters := rfl
@[simp] theorem State.modRing_regs (s : State) (t r : Nat) (f : Ring → Ring) : (s.modRing t r f).regs = s.regs := rfl
@[simp] theorem State.modRing_log (s : State) (t r : Nat) (f : Ring → Ring) : (s.modRing t r f).log = s.log := rfl
@[simp] theorem State.modRing_net (s : State) (t r : Nat) (f : Ring → Ring) : (s.modRing t r f).net = s.net := rfl
@[simp] theorem State.modRing_sunas (s : State) (t r : Nat) (f : Ring → Ring) : (s.modRing t r f).sunas = s.sunas := rfl
@[simp] theorem State.modRing_husks (s : State) (t r : Nat) (f : Ring → Ring) : (s.modRing t r f).husks = s.husks := rfl
@[simp] theorem State.modRing_power (s : State) (t r : Nat) (f : Ring → Ring) : (s.modRing t r f).power = s.power := rfl
@[simp] theorem State.modRing_start (s : State) (t r : Nat) (f : Ring → Ring) : (s.modRing t r f).start = s.start := rfl
@[simp] theorem State.modRing_places (s : State) (t r : Nat) (f : Ring → Ring) : (s.modRing t r f).places = s.places := rfl
@[simp] theorem State.modRing_optics (s : State) (t r : Nat) (f : Ring → Ring) : (s.modRing t r f).optics = s.optics := rfl
@[simp] theorem State.modRing_cores (s : State) (t r : Nat) (f : Ring → Ring) : (s.modRing t r f).cores = s.cores := rfl
@[simp] theorem State.modRing_cricket (s : State) (t r : Nat) (f : Ring → Ring) : (s.modRing t r f).cricket = s.cricket := rfl

@[simp] theorem State.modStack_pending (s : State) (k : Nat) (f : Stack → Stack) : (s.modStack k f).pending = s.pending := rfl
@[simp] theorem State.modStack_out (s : State) (k : Nat) (f : Stack → Stack) : (s.modStack k f).out = s.out := rfl
@[simp] theorem State.modStack_timeNs (s : State) (k : Nat) (f : Stack → Stack) : (s.modStack k f).timeNs = s.timeNs := rfl
@[simp] theorem State.modStack_freeCtr (s : State) (k : Nat) (f : Stack → Stack) : (s.modStack k f).freeCtr = s.freeCtr := rfl
@[simp] theorem State.modStack_mem (s : State) (k : Nat) (f : Stack → Stack) : (s.modStack k f).mem = s.mem := rfl
@[simp] theorem State.modStack_bad (s : State) (k : Nat) (f : Stack → Stack) : (s.modStack k f).bad = s.bad := rfl
@[simp] theorem State.modStack_tiles (s : State) (k : Nat) (f : Stack → Stack) : (s.modStack k f).tiles = s.tiles := rfl
@[simp] theorem State.modStack_views (s : State) (k : Nat) (f : Stack → Stack) : (s.modStack k f).views = s.views := rfl
@[simp] theorem State.modStack_parts (s : State) (k : Nat) (f : Stack → Stack) : (s.modStack k f).parts = s.parts := rfl
@[simp] theorem State.modStack_counters (s : State) (k : Nat) (f : Stack → Stack) : (s.modStack k f).counters = s.counters := rfl
@[simp] theorem State.modStack_regs (s : State) (k : Nat) (f : Stack → Stack) : (s.modStack k f).regs = s.regs := rfl
@[simp] theorem State.modStack_log (s : State) (k : Nat) (f : Stack → Stack) : (s.modStack k f).log = s.log := rfl
@[simp] theorem State.modStack_net (s : State) (k : Nat) (f : Stack → Stack) : (s.modStack k f).net = s.net := rfl
@[simp] theorem State.modStack_sunas (s : State) (k : Nat) (f : Stack → Stack) : (s.modStack k f).sunas = s.sunas := rfl
@[simp] theorem State.modStack_husks (s : State) (k : Nat) (f : Stack → Stack) : (s.modStack k f).husks = s.husks := rfl
@[simp] theorem State.modStack_power (s : State) (k : Nat) (f : Stack → Stack) : (s.modStack k f).power = s.power := rfl
@[simp] theorem State.modStack_start (s : State) (k : Nat) (f : Stack → Stack) : (s.modStack k f).start = s.start := rfl
@[simp] theorem State.modStack_places (s : State) (k : Nat) (f : Stack → Stack) : (s.modStack k f).places = s.places := rfl
@[simp] theorem State.modStack_optics (s : State) (k : Nat) (f : Stack → Stack) : (s.modStack k f).optics = s.optics := rfl
@[simp] theorem State.modStack_cores (s : State) (k : Nat) (f : Stack → Stack) : (s.modStack k f).cores = s.cores := rfl
@[simp] theorem State.modStack_cricket (s : State) (k : Nat) (f : Stack → Stack) : (s.modStack k f).cricket = s.cricket := rfl

@[simp] theorem State.modPart_pending (s : State) (p : Nat) (f : Part → Part) : (s.modPart p f).pending = s.pending := rfl
@[simp] theorem State.modPart_out (s : State) (p : Nat) (f : Part → Part) : (s.modPart p f).out = s.out := rfl
@[simp] theorem State.modPart_timeNs (s : State) (p : Nat) (f : Part → Part) : (s.modPart p f).timeNs = s.timeNs := rfl
@[simp] theorem State.modPart_freeCtr (s : State) (p : Nat) (f : Part → Part) : (s.modPart p f).freeCtr = s.freeCtr := rfl
@[simp] theorem State.modPart_mem (s : State) (p : Nat) (f : Part → Part) : (s.modPart p f).mem = s.mem := rfl
@[simp] theorem State.modPart_bad (s : State) (p : Nat) (f : Part → Part) : (s.modPart p f).bad = s.bad := rfl
@[simp] theorem State.modPart_tiles (s : State) (p : Nat) (f : Part → Part) : (s.modPart p f).tiles = s.tiles := rfl
@[simp] theorem State.modPart_hbm (s : State) (p : Nat) (f : Part → Part) : (s.modPart p f).hbm = s.hbm := rfl
@[simp] theorem State.modPart_views (s : State) (p : Nat) (f : Part → Part) : (s.modPart p f).views = s.views := rfl
@[simp] theorem State.modPart_counters (s : State) (p : Nat) (f : Part → Part) : (s.modPart p f).counters = s.counters := rfl
@[simp] theorem State.modPart_regs (s : State) (p : Nat) (f : Part → Part) : (s.modPart p f).regs = s.regs := rfl
@[simp] theorem State.modPart_log (s : State) (p : Nat) (f : Part → Part) : (s.modPart p f).log = s.log := rfl
@[simp] theorem State.modPart_net (s : State) (p : Nat) (f : Part → Part) : (s.modPart p f).net = s.net := rfl
@[simp] theorem State.modPart_sunas (s : State) (p : Nat) (f : Part → Part) : (s.modPart p f).sunas = s.sunas := rfl
@[simp] theorem State.modPart_husks (s : State) (p : Nat) (f : Part → Part) : (s.modPart p f).husks = s.husks := rfl
@[simp] theorem State.modPart_power (s : State) (p : Nat) (f : Part → Part) : (s.modPart p f).power = s.power := rfl
@[simp] theorem State.modPart_start (s : State) (p : Nat) (f : Part → Part) : (s.modPart p f).start = s.start := rfl
@[simp] theorem State.modPart_places (s : State) (p : Nat) (f : Part → Part) : (s.modPart p f).places = s.places := rfl
@[simp] theorem State.modPart_optics (s : State) (p : Nat) (f : Part → Part) : (s.modPart p f).optics = s.optics := rfl
@[simp] theorem State.modPart_cores (s : State) (p : Nat) (f : Part → Part) : (s.modPart p f).cores = s.cores := rfl
@[simp] theorem State.modPart_cricket (s : State) (p : Nat) (f : Part → Part) : (s.modPart p f).cricket = s.cricket := rfl

@[simp] theorem State.modHusk_pending (s : State) (p : Nat) (f : Husk → Husk) : (s.modHusk p f).pending = s.pending := rfl
@[simp] theorem State.modHusk_out (s : State) (p : Nat) (f : Husk → Husk) : (s.modHusk p f).out = s.out := rfl
@[simp] theorem State.modHusk_timeNs (s : State) (p : Nat) (f : Husk → Husk) : (s.modHusk p f).timeNs = s.timeNs := rfl
@[simp] theorem State.modHusk_freeCtr (s : State) (p : Nat) (f : Husk → Husk) : (s.modHusk p f).freeCtr = s.freeCtr := rfl
@[simp] theorem State.modHusk_mem (s : State) (p : Nat) (f : Husk → Husk) : (s.modHusk p f).mem = s.mem := rfl
@[simp] theorem State.modHusk_bad (s : State) (p : Nat) (f : Husk → Husk) : (s.modHusk p f).bad = s.bad := rfl
@[simp] theorem State.modHusk_tiles (s : State) (p : Nat) (f : Husk → Husk) : (s.modHusk p f).tiles = s.tiles := rfl
@[simp] theorem State.modHusk_hbm (s : State) (p : Nat) (f : Husk → Husk) : (s.modHusk p f).hbm = s.hbm := rfl
@[simp] theorem State.modHusk_views (s : State) (p : Nat) (f : Husk → Husk) : (s.modHusk p f).views = s.views := rfl
@[simp] theorem State.modHusk_parts (s : State) (p : Nat) (f : Husk → Husk) : (s.modHusk p f).parts = s.parts := rfl
@[simp] theorem State.modHusk_counters (s : State) (p : Nat) (f : Husk → Husk) : (s.modHusk p f).counters = s.counters := rfl
@[simp] theorem State.modHusk_regs (s : State) (p : Nat) (f : Husk → Husk) : (s.modHusk p f).regs = s.regs := rfl
@[simp] theorem State.modHusk_log (s : State) (p : Nat) (f : Husk → Husk) : (s.modHusk p f).log = s.log := rfl
@[simp] theorem State.modHusk_net (s : State) (p : Nat) (f : Husk → Husk) : (s.modHusk p f).net = s.net := rfl
@[simp] theorem State.modHusk_sunas (s : State) (p : Nat) (f : Husk → Husk) : (s.modHusk p f).sunas = s.sunas := rfl
@[simp] theorem State.modHusk_power (s : State) (p : Nat) (f : Husk → Husk) : (s.modHusk p f).power = s.power := rfl
@[simp] theorem State.modHusk_start (s : State) (p : Nat) (f : Husk → Husk) : (s.modHusk p f).start = s.start := rfl
@[simp] theorem State.modHusk_places (s : State) (p : Nat) (f : Husk → Husk) : (s.modHusk p f).places = s.places := rfl
@[simp] theorem State.modHusk_optics (s : State) (p : Nat) (f : Husk → Husk) : (s.modHusk p f).optics = s.optics := rfl
@[simp] theorem State.modHusk_cores (s : State) (p : Nat) (f : Husk → Husk) : (s.modHusk p f).cores = s.cores := rfl
@[simp] theorem State.modHusk_cricket (s : State) (p : Nat) (f : Husk → Husk) : (s.modHusk p f).cricket = s.cricket := rfl

@[simp] theorem State.modIsland_pending (s : State) (i : Nat) (f : Island → Island) : (s.modIsland i f).pending = s.pending := rfl
@[simp] theorem State.modIsland_out (s : State) (i : Nat) (f : Island → Island) : (s.modIsland i f).out = s.out := rfl
@[simp] theorem State.modIsland_timeNs (s : State) (i : Nat) (f : Island → Island) : (s.modIsland i f).timeNs = s.timeNs := rfl
@[simp] theorem State.modIsland_freeCtr (s : State) (i : Nat) (f : Island → Island) : (s.modIsland i f).freeCtr = s.freeCtr := rfl
@[simp] theorem State.modIsland_mem (s : State) (i : Nat) (f : Island → Island) : (s.modIsland i f).mem = s.mem := rfl
@[simp] theorem State.modIsland_bad (s : State) (i : Nat) (f : Island → Island) : (s.modIsland i f).bad = s.bad := rfl
@[simp] theorem State.modIsland_tiles (s : State) (i : Nat) (f : Island → Island) : (s.modIsland i f).tiles = s.tiles := rfl
@[simp] theorem State.modIsland_hbm (s : State) (i : Nat) (f : Island → Island) : (s.modIsland i f).hbm = s.hbm := rfl
@[simp] theorem State.modIsland_views (s : State) (i : Nat) (f : Island → Island) : (s.modIsland i f).views = s.views := rfl
@[simp] theorem State.modIsland_parts (s : State) (i : Nat) (f : Island → Island) : (s.modIsland i f).parts = s.parts := rfl
@[simp] theorem State.modIsland_counters (s : State) (i : Nat) (f : Island → Island) : (s.modIsland i f).counters = s.counters := rfl
@[simp] theorem State.modIsland_regs (s : State) (i : Nat) (f : Island → Island) : (s.modIsland i f).regs = s.regs := rfl
@[simp] theorem State.modIsland_log (s : State) (i : Nat) (f : Island → Island) : (s.modIsland i f).log = s.log := rfl
@[simp] theorem State.modIsland_net (s : State) (i : Nat) (f : Island → Island) : (s.modIsland i f).net = s.net := rfl
@[simp] theorem State.modIsland_sunas (s : State) (i : Nat) (f : Island → Island) : (s.modIsland i f).sunas = s.sunas := rfl
@[simp] theorem State.modIsland_husks (s : State) (i : Nat) (f : Island → Island) : (s.modIsland i f).husks = s.husks := rfl
@[simp] theorem State.modIsland_start (s : State) (i : Nat) (f : Island → Island) : (s.modIsland i f).start = s.start := rfl
@[simp] theorem State.modIsland_places (s : State) (i : Nat) (f : Island → Island) : (s.modIsland i f).places = s.places := rfl
@[simp] theorem State.modIsland_optics (s : State) (i : Nat) (f : Island → Island) : (s.modIsland i f).optics = s.optics := rfl
@[simp] theorem State.modIsland_cores (s : State) (i : Nat) (f : Island → Island) : (s.modIsland i f).cores = s.cores := rfl
@[simp] theorem State.modIsland_cricket (s : State) (i : Nat) (f : Island → Island) : (s.modIsland i f).cricket = s.cricket := rfl

@[simp] theorem State.modNet_pending (s : State) (f : Net → Net) : (s.modNet f).pending = s.pending := rfl
@[simp] theorem State.modNet_out (s : State) (f : Net → Net) : (s.modNet f).out = s.out := rfl
@[simp] theorem State.modNet_timeNs (s : State) (f : Net → Net) : (s.modNet f).timeNs = s.timeNs := rfl
@[simp] theorem State.modNet_freeCtr (s : State) (f : Net → Net) : (s.modNet f).freeCtr = s.freeCtr := rfl
@[simp] theorem State.modNet_mem (s : State) (f : Net → Net) : (s.modNet f).mem = s.mem := rfl
@[simp] theorem State.modNet_bad (s : State) (f : Net → Net) : (s.modNet f).bad = s.bad := rfl
@[simp] theorem State.modNet_tiles (s : State) (f : Net → Net) : (s.modNet f).tiles = s.tiles := rfl
@[simp] theorem State.modNet_hbm (s : State) (f : Net → Net) : (s.modNet f).hbm = s.hbm := rfl
@[simp] theorem State.modNet_views (s : State) (f : Net → Net) : (s.modNet f).views = s.views := rfl
@[simp] theorem State.modNet_parts (s : State) (f : Net → Net) : (s.modNet f).parts = s.parts := rfl
@[simp] theorem State.modNet_counters (s : State) (f : Net → Net) : (s.modNet f).counters = s.counters := rfl
@[simp] theorem State.modNet_regs (s : State) (f : Net → Net) : (s.modNet f).regs = s.regs := rfl
@[simp] theorem State.modNet_log (s : State) (f : Net → Net) : (s.modNet f).log = s.log := rfl
@[simp] theorem State.modNet_sunas (s : State) (f : Net → Net) : (s.modNet f).sunas = s.sunas := rfl
@[simp] theorem State.modNet_husks (s : State) (f : Net → Net) : (s.modNet f).husks = s.husks := rfl
@[simp] theorem State.modNet_power (s : State) (f : Net → Net) : (s.modNet f).power = s.power := rfl
@[simp] theorem State.modNet_start (s : State) (f : Net → Net) : (s.modNet f).start = s.start := rfl
@[simp] theorem State.modNet_places (s : State) (f : Net → Net) : (s.modNet f).places = s.places := rfl
@[simp] theorem State.modNet_optics (s : State) (f : Net → Net) : (s.modNet f).optics = s.optics := rfl
@[simp] theorem State.modNet_cores (s : State) (f : Net → Net) : (s.modNet f).cores = s.cores := rfl
@[simp] theorem State.modNet_cricket (s : State) (f : Net → Net) : (s.modNet f).cricket = s.cricket := rfl

@[simp] theorem State.modConn_pending (s : State) (c : Nat) (f : Conn → Conn) : (s.modConn c f).pending = s.pending := rfl
@[simp] theorem State.modConn_out (s : State) (c : Nat) (f : Conn → Conn) : (s.modConn c f).out = s.out := rfl
@[simp] theorem State.modConn_timeNs (s : State) (c : Nat) (f : Conn → Conn) : (s.modConn c f).timeNs = s.timeNs := rfl
@[simp] theorem State.modConn_freeCtr (s : State) (c : Nat) (f : Conn → Conn) : (s.modConn c f).freeCtr = s.freeCtr := rfl
@[simp] theorem State.modConn_mem (s : State) (c : Nat) (f : Conn → Conn) : (s.modConn c f).mem = s.mem := rfl
@[simp] theorem State.modConn_bad (s : State) (c : Nat) (f : Conn → Conn) : (s.modConn c f).bad = s.bad := rfl
@[simp] theorem State.modConn_tiles (s : State) (c : Nat) (f : Conn → Conn) : (s.modConn c f).tiles = s.tiles := rfl
@[simp] theorem State.modConn_hbm (s : State) (c : Nat) (f : Conn → Conn) : (s.modConn c f).hbm = s.hbm := rfl
@[simp] theorem State.modConn_views (s : State) (c : Nat) (f : Conn → Conn) : (s.modConn c f).views = s.views := rfl
@[simp] theorem State.modConn_parts (s : State) (c : Nat) (f : Conn → Conn) : (s.modConn c f).parts = s.parts := rfl
@[simp] theorem State.modConn_counters (s : State) (c : Nat) (f : Conn → Conn) : (s.modConn c f).counters = s.counters := rfl
@[simp] theorem State.modConn_regs (s : State) (c : Nat) (f : Conn → Conn) : (s.modConn c f).regs = s.regs := rfl
@[simp] theorem State.modConn_log (s : State) (c : Nat) (f : Conn → Conn) : (s.modConn c f).log = s.log := rfl
@[simp] theorem State.modConn_sunas (s : State) (c : Nat) (f : Conn → Conn) : (s.modConn c f).sunas = s.sunas := rfl
@[simp] theorem State.modConn_husks (s : State) (c : Nat) (f : Conn → Conn) : (s.modConn c f).husks = s.husks := rfl
@[simp] theorem State.modConn_power (s : State) (c : Nat) (f : Conn → Conn) : (s.modConn c f).power = s.power := rfl
@[simp] theorem State.modConn_start (s : State) (c : Nat) (f : Conn → Conn) : (s.modConn c f).start = s.start := rfl
@[simp] theorem State.modConn_places (s : State) (c : Nat) (f : Conn → Conn) : (s.modConn c f).places = s.places := rfl
@[simp] theorem State.modConn_optics (s : State) (c : Nat) (f : Conn → Conn) : (s.modConn c f).optics = s.optics := rfl
@[simp] theorem State.modConn_cores (s : State) (c : Nat) (f : Conn → Conn) : (s.modConn c f).cores = s.cores := rfl
@[simp] theorem State.modConn_cricket (s : State) (c : Nat) (f : Conn → Conn) : (s.modConn c f).cricket = s.cricket := rfl

@[simp] theorem State.modLog_pending (s : State) (f : Flash → Flash) : (s.modLog f).pending = s.pending := rfl
@[simp] theorem State.modLog_out (s : State) (f : Flash → Flash) : (s.modLog f).out = s.out := rfl
@[simp] theorem State.modLog_timeNs (s : State) (f : Flash → Flash) : (s.modLog f).timeNs = s.timeNs := rfl
@[simp] theorem State.modLog_freeCtr (s : State) (f : Flash → Flash) : (s.modLog f).freeCtr = s.freeCtr := rfl
@[simp] theorem State.modLog_mem (s : State) (f : Flash → Flash) : (s.modLog f).mem = s.mem := rfl
@[simp] theorem State.modLog_bad (s : State) (f : Flash → Flash) : (s.modLog f).bad = s.bad := rfl
@[simp] theorem State.modLog_tiles (s : State) (f : Flash → Flash) : (s.modLog f).tiles = s.tiles := rfl
@[simp] theorem State.modLog_hbm (s : State) (f : Flash → Flash) : (s.modLog f).hbm = s.hbm := rfl
@[simp] theorem State.modLog_views (s : State) (f : Flash → Flash) : (s.modLog f).views = s.views := rfl
@[simp] theorem State.modLog_parts (s : State) (f : Flash → Flash) : (s.modLog f).parts = s.parts := rfl
@[simp] theorem State.modLog_counters (s : State) (f : Flash → Flash) : (s.modLog f).counters = s.counters := rfl
@[simp] theorem State.modLog_regs (s : State) (f : Flash → Flash) : (s.modLog f).regs = s.regs := rfl
@[simp] theorem State.modLog_net (s : State) (f : Flash → Flash) : (s.modLog f).net = s.net := rfl
@[simp] theorem State.modLog_sunas (s : State) (f : Flash → Flash) : (s.modLog f).sunas = s.sunas := rfl
@[simp] theorem State.modLog_husks (s : State) (f : Flash → Flash) : (s.modLog f).husks = s.husks := rfl
@[simp] theorem State.modLog_power (s : State) (f : Flash → Flash) : (s.modLog f).power = s.power := rfl
@[simp] theorem State.modLog_start (s : State) (f : Flash → Flash) : (s.modLog f).start = s.start := rfl
@[simp] theorem State.modLog_places (s : State) (f : Flash → Flash) : (s.modLog f).places = s.places := rfl
@[simp] theorem State.modLog_optics (s : State) (f : Flash → Flash) : (s.modLog f).optics = s.optics := rfl
@[simp] theorem State.modLog_cores (s : State) (f : Flash → Flash) : (s.modLog f).cores = s.cores := rfl
@[simp] theorem State.modLog_cricket (s : State) (f : Flash → Flash) : (s.modLog f).cricket = s.cricket := rfl

@[simp] theorem State.modSunas_pending (s : State) (f : Sunas → Sunas) : (s.modSunas f).pending = s.pending := rfl
@[simp] theorem State.modSunas_out (s : State) (f : Sunas → Sunas) : (s.modSunas f).out = s.out := rfl
@[simp] theorem State.modSunas_timeNs (s : State) (f : Sunas → Sunas) : (s.modSunas f).timeNs = s.timeNs := rfl
@[simp] theorem State.modSunas_freeCtr (s : State) (f : Sunas → Sunas) : (s.modSunas f).freeCtr = s.freeCtr := rfl
@[simp] theorem State.modSunas_mem (s : State) (f : Sunas → Sunas) : (s.modSunas f).mem = s.mem := rfl
@[simp] theorem State.modSunas_bad (s : State) (f : Sunas → Sunas) : (s.modSunas f).bad = s.bad := rfl
@[simp] theorem State.modSunas_tiles (s : State) (f : Sunas → Sunas) : (s.modSunas f).tiles = s.tiles := rfl
@[simp] theorem State.modSunas_hbm (s : State) (f : Sunas → Sunas) : (s.modSunas f).hbm = s.hbm := rfl
@[simp] theorem State.modSunas_views (s : State) (f : Sunas → Sunas) : (s.modSunas f).views = s.views := rfl
@[simp] theorem State.modSunas_parts (s : State) (f : Sunas → Sunas) : (s.modSunas f).parts = s.parts := rfl
@[simp] theorem State.modSunas_counters (s : State) (f : Sunas → Sunas) : (s.modSunas f).counters = s.counters := rfl
@[simp] theorem State.modSunas_regs (s : State) (f : Sunas → Sunas) : (s.modSunas f).regs = s.regs := rfl
@[simp] theorem State.modSunas_log (s : State) (f : Sunas → Sunas) : (s.modSunas f).log = s.log := rfl
@[simp] theorem State.modSunas_net (s : State) (f : Sunas → Sunas) : (s.modSunas f).net = s.net := rfl
@[simp] theorem State.modSunas_husks (s : State) (f : Sunas → Sunas) : (s.modSunas f).husks = s.husks := rfl
@[simp] theorem State.modSunas_power (s : State) (f : Sunas → Sunas) : (s.modSunas f).power = s.power := rfl
@[simp] theorem State.modSunas_start (s : State) (f : Sunas → Sunas) : (s.modSunas f).start = s.start := rfl
@[simp] theorem State.modSunas_places (s : State) (f : Sunas → Sunas) : (s.modSunas f).places = s.places := rfl
@[simp] theorem State.modSunas_optics (s : State) (f : Sunas → Sunas) : (s.modSunas f).optics = s.optics := rfl
@[simp] theorem State.modSunas_cores (s : State) (f : Sunas → Sunas) : (s.modSunas f).cores = s.cores := rfl
@[simp] theorem State.modSunas_cricket (s : State) (f : Sunas → Sunas) : (s.modSunas f).cricket = s.cricket := rfl

@[simp] theorem State.modMbox_pending (s : State) (m : Nat) (f : Mbox → Mbox) : (s.modMbox m f).pending = s.pending := rfl
@[simp] theorem State.modMbox_out (s : State) (m : Nat) (f : Mbox → Mbox) : (s.modMbox m f).out = s.out := rfl
@[simp] theorem State.modMbox_timeNs (s : State) (m : Nat) (f : Mbox → Mbox) : (s.modMbox m f).timeNs = s.timeNs := rfl
@[simp] theorem State.modMbox_freeCtr (s : State) (m : Nat) (f : Mbox → Mbox) : (s.modMbox m f).freeCtr = s.freeCtr := rfl
@[simp] theorem State.modMbox_mem (s : State) (m : Nat) (f : Mbox → Mbox) : (s.modMbox m f).mem = s.mem := rfl
@[simp] theorem State.modMbox_bad (s : State) (m : Nat) (f : Mbox → Mbox) : (s.modMbox m f).bad = s.bad := rfl
@[simp] theorem State.modMbox_tiles (s : State) (m : Nat) (f : Mbox → Mbox) : (s.modMbox m f).tiles = s.tiles := rfl
@[simp] theorem State.modMbox_hbm (s : State) (m : Nat) (f : Mbox → Mbox) : (s.modMbox m f).hbm = s.hbm := rfl
@[simp] theorem State.modMbox_views (s : State) (m : Nat) (f : Mbox → Mbox) : (s.modMbox m f).views = s.views := rfl
@[simp] theorem State.modMbox_parts (s : State) (m : Nat) (f : Mbox → Mbox) : (s.modMbox m f).parts = s.parts := rfl
@[simp] theorem State.modMbox_counters (s : State) (m : Nat) (f : Mbox → Mbox) : (s.modMbox m f).counters = s.counters := rfl
@[simp] theorem State.modMbox_regs (s : State) (m : Nat) (f : Mbox → Mbox) : (s.modMbox m f).regs = s.regs := rfl
@[simp] theorem State.modMbox_log (s : State) (m : Nat) (f : Mbox → Mbox) : (s.modMbox m f).log = s.log := rfl
@[simp] theorem State.modMbox_net (s : State) (m : Nat) (f : Mbox → Mbox) : (s.modMbox m f).net = s.net := rfl
@[simp] theorem State.modMbox_husks (s : State) (m : Nat) (f : Mbox → Mbox) : (s.modMbox m f).husks = s.husks := rfl
@[simp] theorem State.modMbox_power (s : State) (m : Nat) (f : Mbox → Mbox) : (s.modMbox m f).power = s.power := rfl
@[simp] theorem State.modMbox_start (s : State) (m : Nat) (f : Mbox → Mbox) : (s.modMbox m f).start = s.start := rfl
@[simp] theorem State.modMbox_places (s : State) (m : Nat) (f : Mbox → Mbox) : (s.modMbox m f).places = s.places := rfl
@[simp] theorem State.modMbox_optics (s : State) (m : Nat) (f : Mbox → Mbox) : (s.modMbox m f).optics = s.optics := rfl
@[simp] theorem State.modMbox_cores (s : State) (m : Nat) (f : Mbox → Mbox) : (s.modMbox m f).cores = s.cores := rfl
@[simp] theorem State.modMbox_cricket (s : State) (m : Nat) (f : Mbox → Mbox) : (s.modMbox m f).cricket = s.cricket := rfl

@[simp] theorem State.modPower_pending (s : State) (f : Power → Power) : (s.modPower f).pending = s.pending := rfl
@[simp] theorem State.modPower_out (s : State) (f : Power → Power) : (s.modPower f).out = s.out := rfl
@[simp] theorem State.modPower_timeNs (s : State) (f : Power → Power) : (s.modPower f).timeNs = s.timeNs := rfl
@[simp] theorem State.modPower_freeCtr (s : State) (f : Power → Power) : (s.modPower f).freeCtr = s.freeCtr := rfl
@[simp] theorem State.modPower_mem (s : State) (f : Power → Power) : (s.modPower f).mem = s.mem := rfl
@[simp] theorem State.modPower_bad (s : State) (f : Power → Power) : (s.modPower f).bad = s.bad := rfl
@[simp] theorem State.modPower_tiles (s : State) (f : Power → Power) : (s.modPower f).tiles = s.tiles := rfl
@[simp] theorem State.modPower_hbm (s : State) (f : Power → Power) : (s.modPower f).hbm = s.hbm := rfl
@[simp] theorem State.modPower_views (s : State) (f : Power → Power) : (s.modPower f).views = s.views := rfl
@[simp] theorem State.modPower_parts (s : State) (f : Power → Power) : (s.modPower f).parts = s.parts := rfl
@[simp] theorem State.modPower_counters (s : State) (f : Power → Power) : (s.modPower f).counters = s.counters := rfl
@[simp] theorem State.modPower_regs (s : State) (f : Power → Power) : (s.modPower f).regs = s.regs := rfl
@[simp] theorem State.modPower_log (s : State) (f : Power → Power) : (s.modPower f).log = s.log := rfl
@[simp] theorem State.modPower_net (s : State) (f : Power → Power) : (s.modPower f).net = s.net := rfl
@[simp] theorem State.modPower_sunas (s : State) (f : Power → Power) : (s.modPower f).sunas = s.sunas := rfl
@[simp] theorem State.modPower_husks (s : State) (f : Power → Power) : (s.modPower f).husks = s.husks := rfl
@[simp] theorem State.modPower_start (s : State) (f : Power → Power) : (s.modPower f).start = s.start := rfl
@[simp] theorem State.modPower_places (s : State) (f : Power → Power) : (s.modPower f).places = s.places := rfl
@[simp] theorem State.modPower_optics (s : State) (f : Power → Power) : (s.modPower f).optics = s.optics := rfl
@[simp] theorem State.modPower_cores (s : State) (f : Power → Power) : (s.modPower f).cores = s.cores := rfl
@[simp] theorem State.modPower_cricket (s : State) (f : Power → Power) : (s.modPower f).cricket = s.cricket := rfl

@[simp] theorem State.modStart_pending (s : State) (f : Start → Start) : (s.modStart f).pending = s.pending := rfl
@[simp] theorem State.modStart_out (s : State) (f : Start → Start) : (s.modStart f).out = s.out := rfl
@[simp] theorem State.modStart_timeNs (s : State) (f : Start → Start) : (s.modStart f).timeNs = s.timeNs := rfl
@[simp] theorem State.modStart_freeCtr (s : State) (f : Start → Start) : (s.modStart f).freeCtr = s.freeCtr := rfl
@[simp] theorem State.modStart_mem (s : State) (f : Start → Start) : (s.modStart f).mem = s.mem := rfl
@[simp] theorem State.modStart_bad (s : State) (f : Start → Start) : (s.modStart f).bad = s.bad := rfl
@[simp] theorem State.modStart_tiles (s : State) (f : Start → Start) : (s.modStart f).tiles = s.tiles := rfl
@[simp] theorem State.modStart_hbm (s : State) (f : Start → Start) : (s.modStart f).hbm = s.hbm := rfl
@[simp] theorem State.modStart_views (s : State) (f : Start → Start) : (s.modStart f).views = s.views := rfl
@[simp] theorem State.modStart_parts (s : State) (f : Start → Start) : (s.modStart f).parts = s.parts := rfl
@[simp] theorem State.modStart_counters (s : State) (f : Start → Start) : (s.modStart f).counters = s.counters := rfl
@[simp] theorem State.modStart_regs (s : State) (f : Start → Start) : (s.modStart f).regs = s.regs := rfl
@[simp] theorem State.modStart_log (s : State) (f : Start → Start) : (s.modStart f).log = s.log := rfl
@[simp] theorem State.modStart_net (s : State) (f : Start → Start) : (s.modStart f).net = s.net := rfl
@[simp] theorem State.modStart_sunas (s : State) (f : Start → Start) : (s.modStart f).sunas = s.sunas := rfl
@[simp] theorem State.modStart_husks (s : State) (f : Start → Start) : (s.modStart f).husks = s.husks := rfl
@[simp] theorem State.modStart_power (s : State) (f : Start → Start) : (s.modStart f).power = s.power := rfl
@[simp] theorem State.modStart_places (s : State) (f : Start → Start) : (s.modStart f).places = s.places := rfl
@[simp] theorem State.modStart_optics (s : State) (f : Start → Start) : (s.modStart f).optics = s.optics := rfl
@[simp] theorem State.modStart_cores (s : State) (f : Start → Start) : (s.modStart f).cores = s.cores := rfl
@[simp] theorem State.modStart_cricket (s : State) (f : Start → Start) : (s.modStart f).cricket = s.cricket := rfl

@[simp] theorem State.modCore_pending (s : State) (h : Nat) (f : Core → Core) : (s.modCore h f).pending = s.pending := rfl
@[simp] theorem State.modCore_out (s : State) (h : Nat) (f : Core → Core) : (s.modCore h f).out = s.out := rfl
@[simp] theorem State.modCore_timeNs (s : State) (h : Nat) (f : Core → Core) : (s.modCore h f).timeNs = s.timeNs := rfl
@[simp] theorem State.modCore_freeCtr (s : State) (h : Nat) (f : Core → Core) : (s.modCore h f).freeCtr = s.freeCtr := rfl
@[simp] theorem State.modCore_mem (s : State) (h : Nat) (f : Core → Core) : (s.modCore h f).mem = s.mem := rfl
@[simp] theorem State.modCore_bad (s : State) (h : Nat) (f : Core → Core) : (s.modCore h f).bad = s.bad := rfl
@[simp] theorem State.modCore_tiles (s : State) (h : Nat) (f : Core → Core) : (s.modCore h f).tiles = s.tiles := rfl
@[simp] theorem State.modCore_hbm (s : State) (h : Nat) (f : Core → Core) : (s.modCore h f).hbm = s.hbm := rfl
@[simp] theorem State.modCore_views (s : State) (h : Nat) (f : Core → Core) : (s.modCore h f).views = s.views := rfl
@[simp] theorem State.modCore_parts (s : State) (h : Nat) (f : Core → Core) : (s.modCore h f).parts = s.parts := rfl
@[simp] theorem State.modCore_counters (s : State) (h : Nat) (f : Core → Core) : (s.modCore h f).counters = s.counters := rfl
@[simp] theorem State.modCore_regs (s : State) (h : Nat) (f : Core → Core) : (s.modCore h f).regs = s.regs := rfl
@[simp] theorem State.modCore_log (s : State) (h : Nat) (f : Core → Core) : (s.modCore h f).log = s.log := rfl
@[simp] theorem State.modCore_net (s : State) (h : Nat) (f : Core → Core) : (s.modCore h f).net = s.net := rfl
@[simp] theorem State.modCore_sunas (s : State) (h : Nat) (f : Core → Core) : (s.modCore h f).sunas = s.sunas := rfl
@[simp] theorem State.modCore_husks (s : State) (h : Nat) (f : Core → Core) : (s.modCore h f).husks = s.husks := rfl
@[simp] theorem State.modCore_power (s : State) (h : Nat) (f : Core → Core) : (s.modCore h f).power = s.power := rfl
@[simp] theorem State.modCore_start (s : State) (h : Nat) (f : Core → Core) : (s.modCore h f).start = s.start := rfl
@[simp] theorem State.modCore_places (s : State) (h : Nat) (f : Core → Core) : (s.modCore h f).places = s.places := rfl
@[simp] theorem State.modCore_optics (s : State) (h : Nat) (f : Core → Core) : (s.modCore h f).optics = s.optics := rfl
@[simp] theorem State.modCore_cricket (s : State) (h : Nat) (f : Core → Core) : (s.modCore h f).cricket = s.cricket := rfl

@[simp] theorem State.modCk_pending (s : State) (f : Cricket → Cricket) : (s.modCk f).pending = s.pending := rfl
@[simp] theorem State.modCk_out (s : State) (f : Cricket → Cricket) : (s.modCk f).out = s.out := rfl
@[simp] theorem State.modCk_timeNs (s : State) (f : Cricket → Cricket) : (s.modCk f).timeNs = s.timeNs := rfl
@[simp] theorem State.modCk_freeCtr (s : State) (f : Cricket → Cricket) : (s.modCk f).freeCtr = s.freeCtr := rfl
@[simp] theorem State.modCk_mem (s : State) (f : Cricket → Cricket) : (s.modCk f).mem = s.mem := rfl
@[simp] theorem State.modCk_bad (s : State) (f : Cricket → Cricket) : (s.modCk f).bad = s.bad := rfl
@[simp] theorem State.modCk_tiles (s : State) (f : Cricket → Cricket) : (s.modCk f).tiles = s.tiles := rfl
@[simp] theorem State.modCk_hbm (s : State) (f : Cricket → Cricket) : (s.modCk f).hbm = s.hbm := rfl
@[simp] theorem State.modCk_views (s : State) (f : Cricket → Cricket) : (s.modCk f).views = s.views := rfl
@[simp] theorem State.modCk_parts (s : State) (f : Cricket → Cricket) : (s.modCk f).parts = s.parts := rfl
@[simp] theorem State.modCk_counters (s : State) (f : Cricket → Cricket) : (s.modCk f).counters = s.counters := rfl
@[simp] theorem State.modCk_regs (s : State) (f : Cricket → Cricket) : (s.modCk f).regs = s.regs := rfl
@[simp] theorem State.modCk_log (s : State) (f : Cricket → Cricket) : (s.modCk f).log = s.log := rfl
@[simp] theorem State.modCk_net (s : State) (f : Cricket → Cricket) : (s.modCk f).net = s.net := rfl
@[simp] theorem State.modCk_sunas (s : State) (f : Cricket → Cricket) : (s.modCk f).sunas = s.sunas := rfl
@[simp] theorem State.modCk_husks (s : State) (f : Cricket → Cricket) : (s.modCk f).husks = s.husks := rfl
@[simp] theorem State.modCk_power (s : State) (f : Cricket → Cricket) : (s.modCk f).power = s.power := rfl
@[simp] theorem State.modCk_start (s : State) (f : Cricket → Cricket) : (s.modCk f).start = s.start := rfl
@[simp] theorem State.modCk_places (s : State) (f : Cricket → Cricket) : (s.modCk f).places = s.places := rfl
@[simp] theorem State.modCk_optics (s : State) (f : Cricket → Cricket) : (s.modCk f).optics = s.optics := rfl
@[simp] theorem State.modCk_cores (s : State) (f : Cricket → Cricket) : (s.modCk f).cores = s.cores := rfl

@[simp] theorem State.modPort_pending (s : State) (k : Nat) (f : Port → Port) : (s.modPort k f).pending = s.pending := rfl
@[simp] theorem State.modPort_out (s : State) (k : Nat) (f : Port → Port) : (s.modPort k f).out = s.out := rfl
@[simp] theorem State.modPort_timeNs (s : State) (k : Nat) (f : Port → Port) : (s.modPort k f).timeNs = s.timeNs := rfl
@[simp] theorem State.modPort_freeCtr (s : State) (k : Nat) (f : Port → Port) : (s.modPort k f).freeCtr = s.freeCtr := rfl
@[simp] theorem State.modPort_mem (s : State) (k : Nat) (f : Port → Port) : (s.modPort k f).mem = s.mem := rfl
@[simp] theorem State.modPort_bad (s : State) (k : Nat) (f : Port → Port) : (s.modPort k f).bad = s.bad := rfl
@[simp] theorem State.modPort_tiles (s : State) (k : Nat) (f : Port → Port) : (s.modPort k f).tiles = s.tiles := rfl
@[simp] theorem State.modPort_hbm (s : State) (k : Nat) (f : Port → Port) : (s.modPort k f).hbm = s.hbm := rfl
@[simp] theorem State.modPort_views (s : State) (k : Nat) (f : Port → Port) : (s.modPort k f).views = s.views := rfl
@[simp] theorem State.modPort_parts (s : State) (k : Nat) (f : Port → Port) : (s.modPort k f).parts = s.parts := rfl
@[simp] theorem State.modPort_counters (s : State) (k : Nat) (f : Port → Port) : (s.modPort k f).counters = s.counters := rfl
@[simp] theorem State.modPort_regs (s : State) (k : Nat) (f : Port → Port) : (s.modPort k f).regs = s.regs := rfl
@[simp] theorem State.modPort_log (s : State) (k : Nat) (f : Port → Port) : (s.modPort k f).log = s.log := rfl
@[simp] theorem State.modPort_net (s : State) (k : Nat) (f : Port → Port) : (s.modPort k f).net = s.net := rfl
@[simp] theorem State.modPort_sunas (s : State) (k : Nat) (f : Port → Port) : (s.modPort k f).sunas = s.sunas := rfl
@[simp] theorem State.modPort_husks (s : State) (k : Nat) (f : Port → Port) : (s.modPort k f).husks = s.husks := rfl
@[simp] theorem State.modPort_power (s : State) (k : Nat) (f : Port → Port) : (s.modPort k f).power = s.power := rfl
@[simp] theorem State.modPort_start (s : State) (k : Nat) (f : Port → Port) : (s.modPort k f).start = s.start := rfl
@[simp] theorem State.modPort_places (s : State) (k : Nat) (f : Port → Port) : (s.modPort k f).places = s.places := rfl
@[simp] theorem State.modPort_cores (s : State) (k : Nat) (f : Port → Port) : (s.modPort k f).cores = s.cores := rfl
@[simp] theorem State.modPort_cricket (s : State) (k : Nat) (f : Port → Port) : (s.modPort k f).cricket = s.cricket := rfl

@[simp] theorem State.modLaser_pending (s : State) (m : Nat) (f : LaserModule → LaserModule) : (s.modLaser m f).pending = s.pending := rfl
@[simp] theorem State.modLaser_out (s : State) (m : Nat) (f : LaserModule → LaserModule) : (s.modLaser m f).out = s.out := rfl
@[simp] theorem State.modLaser_timeNs (s : State) (m : Nat) (f : LaserModule → LaserModule) : (s.modLaser m f).timeNs = s.timeNs := rfl
@[simp] theorem State.modLaser_freeCtr (s : State) (m : Nat) (f : LaserModule → LaserModule) : (s.modLaser m f).freeCtr = s.freeCtr := rfl
@[simp] theorem State.modLaser_mem (s : State) (m : Nat) (f : LaserModule → LaserModule) : (s.modLaser m f).mem = s.mem := rfl
@[simp] theorem State.modLaser_bad (s : State) (m : Nat) (f : LaserModule → LaserModule) : (s.modLaser m f).bad = s.bad := rfl
@[simp] theorem State.modLaser_tiles (s : State) (m : Nat) (f : LaserModule → LaserModule) : (s.modLaser m f).tiles = s.tiles := rfl
@[simp] theorem State.modLaser_hbm (s : State) (m : Nat) (f : LaserModule → LaserModule) : (s.modLaser m f).hbm = s.hbm := rfl
@[simp] theorem State.modLaser_views (s : State) (m : Nat) (f : LaserModule → LaserModule) : (s.modLaser m f).views = s.views := rfl
@[simp] theorem State.modLaser_parts (s : State) (m : Nat) (f : LaserModule → LaserModule) : (s.modLaser m f).parts = s.parts := rfl
@[simp] theorem State.modLaser_counters (s : State) (m : Nat) (f : LaserModule → LaserModule) : (s.modLaser m f).counters = s.counters := rfl
@[simp] theorem State.modLaser_regs (s : State) (m : Nat) (f : LaserModule → LaserModule) : (s.modLaser m f).regs = s.regs := rfl
@[simp] theorem State.modLaser_log (s : State) (m : Nat) (f : LaserModule → LaserModule) : (s.modLaser m f).log = s.log := rfl
@[simp] theorem State.modLaser_net (s : State) (m : Nat) (f : LaserModule → LaserModule) : (s.modLaser m f).net = s.net := rfl
@[simp] theorem State.modLaser_sunas (s : State) (m : Nat) (f : LaserModule → LaserModule) : (s.modLaser m f).sunas = s.sunas := rfl
@[simp] theorem State.modLaser_husks (s : State) (m : Nat) (f : LaserModule → LaserModule) : (s.modLaser m f).husks = s.husks := rfl
@[simp] theorem State.modLaser_power (s : State) (m : Nat) (f : LaserModule → LaserModule) : (s.modLaser m f).power = s.power := rfl
@[simp] theorem State.modLaser_start (s : State) (m : Nat) (f : LaserModule → LaserModule) : (s.modLaser m f).start = s.start := rfl
@[simp] theorem State.modLaser_places (s : State) (m : Nat) (f : LaserModule → LaserModule) : (s.modLaser m f).places = s.places := rfl
@[simp] theorem State.modLaser_cores (s : State) (m : Nat) (f : LaserModule → LaserModule) : (s.modLaser m f).cores = s.cores := rfl
@[simp] theorem State.modLaser_cricket (s : State) (m : Nat) (f : LaserModule → LaserModule) : (s.modLaser m f).cricket = s.cricket := rfl

@[simp] theorem State.emit_pending (s : State) (m : OutMsg) : (s.emit m).pending = s.pending := rfl
@[simp] theorem State.emit_timeNs (s : State) (m : OutMsg) : (s.emit m).timeNs = s.timeNs := rfl
@[simp] theorem State.emit_freeCtr (s : State) (m : OutMsg) : (s.emit m).freeCtr = s.freeCtr := rfl
@[simp] theorem State.emit_mem (s : State) (m : OutMsg) : (s.emit m).mem = s.mem := rfl
@[simp] theorem State.emit_bad (s : State) (m : OutMsg) : (s.emit m).bad = s.bad := rfl
@[simp] theorem State.emit_tiles (s : State) (m : OutMsg) : (s.emit m).tiles = s.tiles := rfl
@[simp] theorem State.emit_hbm (s : State) (m : OutMsg) : (s.emit m).hbm = s.hbm := rfl
@[simp] theorem State.emit_views (s : State) (m : OutMsg) : (s.emit m).views = s.views := rfl
@[simp] theorem State.emit_parts (s : State) (m : OutMsg) : (s.emit m).parts = s.parts := rfl
@[simp] theorem State.emit_counters (s : State) (m : OutMsg) : (s.emit m).counters = s.counters := rfl
@[simp] theorem State.emit_regs (s : State) (m : OutMsg) : (s.emit m).regs = s.regs := rfl
@[simp] theorem State.emit_log (s : State) (m : OutMsg) : (s.emit m).log = s.log := rfl
@[simp] theorem State.emit_net (s : State) (m : OutMsg) : (s.emit m).net = s.net := rfl
@[simp] theorem State.emit_sunas (s : State) (m : OutMsg) : (s.emit m).sunas = s.sunas := rfl
@[simp] theorem State.emit_husks (s : State) (m : OutMsg) : (s.emit m).husks = s.husks := rfl
@[simp] theorem State.emit_power (s : State) (m : OutMsg) : (s.emit m).power = s.power := rfl
@[simp] theorem State.emit_start (s : State) (m : OutMsg) : (s.emit m).start = s.start := rfl
@[simp] theorem State.emit_places (s : State) (m : OutMsg) : (s.emit m).places = s.places := rfl
@[simp] theorem State.emit_optics (s : State) (m : OutMsg) : (s.emit m).optics = s.optics := rfl
@[simp] theorem State.emit_cores (s : State) (m : OutMsg) : (s.emit m).cores = s.cores := rfl
@[simp] theorem State.emit_cricket (s : State) (m : OutMsg) : (s.emit m).cricket = s.cricket := rfl

@[simp] theorem State.setFlags_pending (s : State) (ln : Nat) (v : W32) : (s.setFlags ln v).pending = s.pending := rfl
@[simp] theorem State.setFlags_out (s : State) (ln : Nat) (v : W32) : (s.setFlags ln v).out = s.out := rfl
@[simp] theorem State.setFlags_timeNs (s : State) (ln : Nat) (v : W32) : (s.setFlags ln v).timeNs = s.timeNs := rfl
@[simp] theorem State.setFlags_freeCtr (s : State) (ln : Nat) (v : W32) : (s.setFlags ln v).freeCtr = s.freeCtr := rfl
@[simp] theorem State.setFlags_mem (s : State) (ln : Nat) (v : W32) : (s.setFlags ln v).mem = s.mem := rfl
@[simp] theorem State.setFlags_bad (s : State) (ln : Nat) (v : W32) : (s.setFlags ln v).bad = s.bad := rfl
@[simp] theorem State.setFlags_tiles (s : State) (ln : Nat) (v : W32) : (s.setFlags ln v).tiles = s.tiles := rfl
@[simp] theorem State.setFlags_hbm (s : State) (ln : Nat) (v : W32) : (s.setFlags ln v).hbm = s.hbm := rfl
@[simp] theorem State.setFlags_views (s : State) (ln : Nat) (v : W32) : (s.setFlags ln v).views = s.views := rfl
@[simp] theorem State.setFlags_parts (s : State) (ln : Nat) (v : W32) : (s.setFlags ln v).parts = s.parts := rfl
@[simp] theorem State.setFlags_counters (s : State) (ln : Nat) (v : W32) : (s.setFlags ln v).counters = s.counters := rfl
@[simp] theorem State.setFlags_log (s : State) (ln : Nat) (v : W32) : (s.setFlags ln v).log = s.log := rfl
@[simp] theorem State.setFlags_net (s : State) (ln : Nat) (v : W32) : (s.setFlags ln v).net = s.net := rfl
@[simp] theorem State.setFlags_sunas (s : State) (ln : Nat) (v : W32) : (s.setFlags ln v).sunas = s.sunas := rfl
@[simp] theorem State.setFlags_husks (s : State) (ln : Nat) (v : W32) : (s.setFlags ln v).husks = s.husks := rfl
@[simp] theorem State.setFlags_power (s : State) (ln : Nat) (v : W32) : (s.setFlags ln v).power = s.power := rfl
@[simp] theorem State.setFlags_start (s : State) (ln : Nat) (v : W32) : (s.setFlags ln v).start = s.start := rfl
@[simp] theorem State.setFlags_places (s : State) (ln : Nat) (v : W32) : (s.setFlags ln v).places = s.places := rfl
@[simp] theorem State.setFlags_optics (s : State) (ln : Nat) (v : W32) : (s.setFlags ln v).optics = s.optics := rfl
@[simp] theorem State.setFlags_cores (s : State) (ln : Nat) (v : W32) : (s.setFlags ln v).cores = s.cores := rfl
@[simp] theorem State.setFlags_cricket (s : State) (ln : Nat) (v : W32) : (s.setFlags ln v).cricket = s.cricket := rfl

@[simp] theorem State.setFlag_pending (s : State) (ln b : Nat) : (s.setFlag ln b).pending = s.pending := rfl
@[simp] theorem State.setFlag_out (s : State) (ln b : Nat) : (s.setFlag ln b).out = s.out := rfl
@[simp] theorem State.setFlag_timeNs (s : State) (ln b : Nat) : (s.setFlag ln b).timeNs = s.timeNs := rfl
@[simp] theorem State.setFlag_freeCtr (s : State) (ln b : Nat) : (s.setFlag ln b).freeCtr = s.freeCtr := rfl
@[simp] theorem State.setFlag_mem (s : State) (ln b : Nat) : (s.setFlag ln b).mem = s.mem := rfl
@[simp] theorem State.setFlag_bad (s : State) (ln b : Nat) : (s.setFlag ln b).bad = s.bad := rfl
@[simp] theorem State.setFlag_tiles (s : State) (ln b : Nat) : (s.setFlag ln b).tiles = s.tiles := rfl
@[simp] theorem State.setFlag_hbm (s : State) (ln b : Nat) : (s.setFlag ln b).hbm = s.hbm := rfl
@[simp] theorem State.setFlag_views (s : State) (ln b : Nat) : (s.setFlag ln b).views = s.views := rfl
@[simp] theorem State.setFlag_parts (s : State) (ln b : Nat) : (s.setFlag ln b).parts = s.parts := rfl
@[simp] theorem State.setFlag_counters (s : State) (ln b : Nat) : (s.setFlag ln b).counters = s.counters := rfl
@[simp] theorem State.setFlag_log (s : State) (ln b : Nat) : (s.setFlag ln b).log = s.log := rfl
@[simp] theorem State.setFlag_net (s : State) (ln b : Nat) : (s.setFlag ln b).net = s.net := rfl
@[simp] theorem State.setFlag_sunas (s : State) (ln b : Nat) : (s.setFlag ln b).sunas = s.sunas := rfl
@[simp] theorem State.setFlag_husks (s : State) (ln b : Nat) : (s.setFlag ln b).husks = s.husks := rfl
@[simp] theorem State.setFlag_power (s : State) (ln b : Nat) : (s.setFlag ln b).power = s.power := rfl
@[simp] theorem State.setFlag_start (s : State) (ln b : Nat) : (s.setFlag ln b).start = s.start := rfl
@[simp] theorem State.setFlag_places (s : State) (ln b : Nat) : (s.setFlag ln b).places = s.places := rfl
@[simp] theorem State.setFlag_optics (s : State) (ln b : Nat) : (s.setFlag ln b).optics = s.optics := rfl
@[simp] theorem State.setFlag_cores (s : State) (ln b : Nat) : (s.setFlag ln b).cores = s.cores := rfl
@[simp] theorem State.setFlag_cricket (s : State) (ln b : Nat) : (s.setFlag ln b).cricket = s.cricket := rfl

end Sys2Proof.Machine
end

