-- ==== Sys2Proof/Laws/CoreRun.lean ====
section
/-!
SUPPORT. Vector instructions of the cores that execute.
-/
namespace Sys2Proof.Machine

open Sys2Proof

/-- A vector instruction of a core that is not illegal has its effect and moves on. -/
theorem State.vecRun_executes {s : State} {h : Nat} (e : ExecutesVector s h) (u : Core → Bool)
    (hu : u { s.core h with ilen := 4 } = false) (f : Core → Core) :
    s.vecRun h u f = s.modCore h fun c => (f { c with ilen := 4 }).nextPc := by
  obtain ⟨h1, h2, h3⟩ := e
  unfold State.vecRun State.coreRun
  simp only [h1, h2, Option.isNone_none, Bool.and_self, if_true, State.modCore_core, hu, Bool.or_false]
  rw [if_neg (by simpa using h3), State.modCore_modCore]

/-- A vector instruction of a core that is not illegal completes with the effect `g`. -/
theorem State.vecRun_done {s : State} {h : Nat} (e : ExecutesVector s h) (u : Core → Bool)
    (hu : u { s.core h with ilen := 4 } = false) (f g : Core → Core)
    (hfg : (f { s.core h with ilen := 4 }).nextPc = { g (s.core h) with pc := (s.core h).pc + 4, ilen := 4, wait := .none }) :
    s.vecRun h u f = coreDone s h g := by
  rw [State.vecRun_executes e u hu]; unfold coreDone
  exact State.modCore_congr hfg

end Sys2Proof.Machine
end

