-- ==== Sys2Proof/Laws/Cores.lean ====
section
/-!
SUPPORT. What the operations of Machine/Cores.lean keep (Laws/Kept.lean).
-/
namespace Sys2Proof.Machine

open Sys2Proof

theorem State.atomicAddr_kept {s₀ : State} {s : State} (mf : MemFaults) (h : Nat) (store : Bool) (va : Nat) (n : Nat) (hs : Kept s₀ s) :
    Kept s₀ (State.atomicAddr s mf h store va n).2 := by
  unfold State.atomicAddr
  repeat' first
    | with_reducible assumption
    | with_reducible apply State.coreFault_kept
    | with_reducible apply State.translate_kept
    | with_reducible apply Kept.of_snd (by assumption)
    | split

theorem State.amoLocal_kept {s₀ : State} {s : State} (mf : MemFaults) (h : Nat) (va : Nat) (pa : Nat) (n : Nat) (op : Nat) (rd : Nat) (x : Nat) (hs : Kept s₀ s) :
    Kept s₀ (State.amoLocal s mf h va pa n op rd x) := by
  unfold State.amoLocal
  repeat' first
    | with_reducible assumption
    | with_reducible apply State.coreRead_kept
    | with_reducible apply State.coreFault_kept
    | with_reducible apply State.coreWrite_kept
    | with_reducible apply State.modCore_kept
    | with_reducible apply Kept.of_snd (by assumption)
    | extract_lets
    | split

theorem State.amoDomain_kept {s₀ : State} {s : State} (mf : MemFaults) (h : Fin 64) (va : Nat) (pa : Nat) (n : Nat) (op : Nat) (rd : Nat) (x : Nat) (rl : Bool) (hs : Kept s₀ s) :
    Kept s₀ (State.amoDomain s mf h va pa n op rd x rl) := by
  unfold State.amoDomain
  repeat' first
    | with_reducible assumption
    | with_reducible apply State.accessFault_kept
    | with_reducible apply State.newOp_kept
    | with_reducible apply State.modCore_kept
    | with_reducible apply State.sendPieces_kept
    | extract_lets
    | split

end Sys2Proof.Machine
end

