-- ==== Sys2Proof/Laws/Cricket.lean ====
section
/-!
SUPPORT. What the operations of Machine/Cricket.lean keep (Laws/Kept.lean).
-/
namespace Sys2Proof.Machine

open Sys2Proof

theorem State.modCk_kept {s₀ : State} {s : State} (f : Cricket → Cricket) (hs : Kept s₀ s) :
    Kept s₀ (State.modCk s f) := by
  unfold State.modCk
  repeat' first
    | with_reducible assumption
    | fail_if_no_progress (with_reducible apply Kept.mk_of <;> try first | with_reducible rfl | exact id | exact Nat.le_refl _)

theorem State.ckCount_kept {s₀ : State} {s : State} (w : Nat) (n : Nat) (hs : Kept s₀ s) :
    Kept s₀ (State.ckCount s w n) := by
  unfold State.ckCount
  repeat' first
    | with_reducible assumption
    | with_reducible apply State.modCk_kept

theorem State.ckErr_kept {s₀ : State} {s : State} (w : Nat) (hs : Kept s₀ s) :
    Kept s₀ (State.ckErr s w) := by
  unfold State.ckErr
  repeat' first
    | with_reducible assumption
    | with_reducible apply State.setFlag_kept
    | with_reducible apply State.ckCount_kept

theorem State.setCkSt_kept {s₀ : State} {s : State} (st : Nat) (hs : Kept s₀ s) :
    Kept s₀ (State.setCkSt s st) := by
  unfold State.setCkSt
  repeat' first
    | with_reducible assumption
    | with_reducible apply State.setFlag_kept
    | with_reducible apply State.modCk_kept
    | split

theorem State.ckRetry_kept {s₀ : State} {s : State} (hs : Kept s₀ s) :
    Kept s₀ (State.ckRetry s) := by
  unfold State.ckRetry
  repeat' first
    | with_reducible assumption
    | with_reducible apply State.ckCount_kept
    | with_reducible apply State.modCk_kept
    | split

theorem State.ckMute_kept {s₀ : State} {s : State} (hs : Kept s₀ s) :
    Kept s₀ (State.ckMute s) := by
  unfold State.ckMute
  repeat' first
    | with_reducible assumption
    | with_reducible apply State.ckErr_kept
    | with_reducible apply State.setCkSt_kept
    | with_reducible apply State.modCk_kept

theorem State.rackTime_kept {s₀ : State} {s : State} (time : Nat) (hs : Kept s₀ s) :
    Kept s₀ (State.rackTime s time) := by
  unfold State.rackTime
  repeat' first
    | with_reducible assumption
    | extract_lets
    | split
    | dsimp +zetaDelta only
    | fail_if_no_progress (with_reducible apply Kept.mk_of <;> try first | with_reducible rfl | exact id | exact Nat.le_refl _)
    | exact Nat.le_add_right _ _
    | exact le_max_left _ _

theorem State.nextBurst_kept {s₀ : State} {s : State} (hs : Kept s₀ s) :
    Kept s₀ (State.nextBurst s).2 := by
  unfold State.nextBurst
  repeat' first
    | with_reducible assumption
    | with_reducible apply State.modCk_kept
    | with_reducible apply State.modLog_kept
    | extract_lets
    | split

theorem State.dropMail_kept {s₀ : State} {s : State} (hs : Kept s₀ s) :
    Kept s₀ (State.dropMail s) := by
  unfold State.dropMail
  repeat' first
    | with_reducible assumption
    | with_reducible apply State.ckCount_kept
    | with_reducible apply State.modCk_kept
    | split

theorem State.mailDone_kept {s₀ : State} {s : State} (seq : Nat) (bs : List Byte) (hs : Kept s₀ s) :
    Kept s₀ (State.mailDone s seq bs) := by
  unfold State.mailDone
  repeat' first
    | with_reducible assumption
    | with_reducible apply State.modCk_kept
    | with_reducible apply State.setFlag_kept
    | with_reducible apply State.ringDoorbell_kept
    | with_reducible apply State.poke_kept
    | extract_lets
    | split

theorem State.ckRejoin_kept {s₀ : State} {s : State} (hs : Kept s₀ s) :
    Kept s₀ (State.ckRejoin s) := by
  unfold State.ckRejoin
  repeat' first
    | with_reducible assumption
    | with_reducible apply State.setCkSt_kept
    | with_reducible apply State.modCk_kept

end Sys2Proof.Machine
end

