-- ==== Sys2Proof/Laws/Epilogue.lean ====
section
/-!
SUPPORT. What the operations of Machine/Epilogue.lean keep (Laws/Kept.lean).
-/
namespace Sys2Proof.Machine

open Sys2Proof

theorem State.readDesc_kept {s₀ : State} {s : State} (mf : MemFaults) (t : Nat) (off : Nat) (hs : Kept s₀ s) :
    Kept s₀ (State.readDesc s mf t off).2.2 := by
  unfold State.readDesc
  repeat' first
    | with_reducible assumption
    | with_reducible apply State.load_kept
    | with_reducible apply Kept.of_snd (by assumption)
    | split

theorem State.readLe_kept {s₀ : State} {s : State} (mf : MemFaults) (key : Nat) (n : Nat) (hs : Kept s₀ s) :
    Kept s₀ (State.readLe s mf key n).2 := by
  unfold State.readLe
  repeat' first
    | with_reducible assumption
    | with_reducible apply State.load_kept
    | with_reducible apply Kept.of_snd (by assumption)
    | split

theorem State.readIf_kept {s₀ : State} {s : State} (mf : MemFaults) (c : Bool) (key : Nat) (n : Nat) (count : Nat) (hs : Kept s₀ s) :
    Kept s₀ (State.readIf s mf c key n count).2 := by
  unfold State.readIf
  repeat' first
    | with_reducible assumption
    | with_reducible apply State.load_kept
    | with_reducible apply Kept.of_snd (by assumption)
    | split

theorem State.epiRead_kept {s₀ : State} {s : State} (mf : MemFaults) (t : Nat) (a : Nat) (d : List W64) (m : FmtM) (cols : List Nat × List Nat) (i : Nat) (hs : Kept s₀ s) :
    Kept s₀ (State.epiRead s mf t a d m cols i).2 := by
  unfold State.epiRead
  repeat' first
    | with_reducible assumption
    | with_reducible apply State.acmRead_kept
    | with_reducible apply State.readIf_kept
    | with_reducible apply Kept.of_snd (by assumption)
    | extract_lets
    | split

theorem State.epiRows_kept {s₀ : State} (mf : MemFaults) (t : Nat) (a : Nat) (d : List W64) (m : FmtM) (cols : List Nat × List Nat) (a1 : Nat) (a2 : Nat) {a3 : State} (ha3 : Kept s₀ a3) :
    Kept s₀ (State.epiRows mf t a d m cols a1 a2 a3).2.2 := by
  induction a1 generalizing mf t a d m cols a2 a3 ha3 with
  | zero =>
    unfold State.epiRows
    repeat' first
      | with_reducible assumption
  | succ i ih =>
    unfold State.epiRows
    repeat' first
      | with_reducible assumption
      | with_reducible apply ih
      | with_reducible apply State.epiRead_kept
      | with_reducible apply Kept.of_snd (by assumption)
      | split

theorem State.writeLine_kept {s₀ : State} {s : State} (mf : MemFaults) (t : Nat) (p : Nat) (d : List W64) (o : Source) (m : Nat) (nc : Nat) (i : Nat) (l : EpiLine) (hs : Kept s₀ s) :
    Kept s₀ (State.writeLine s mf t p d o m nc i l).2 := by
  unfold State.writeLine
  repeat' first
    | with_reducible assumption
    | with_reducible apply State.viewWriteBlock_kept
    | with_reducible apply State.viewWrite_kept
    | with_reducible apply State.localWrite_kept
    | with_reducible apply Kept.foldl_snd
    | extract_lets
    | split
    | intro _

theorem State.writeLines_kept {s₀ : State} (mf : MemFaults) (t : Nat) (p : Nat) (d : List W64) (o : Source) (m : Nat) (nc : Nat) (a1 : List EpiLine) (a2 : Nat) {a3 : State} (ha3 : Kept s₀ a3) :
    Kept s₀ (State.writeLines mf t p d o m nc a1 a2 a3).2.2 := by
  induction a1 generalizing mf t p d o m nc a2 a3 ha3 with
  | nil =>
    unfold State.writeLines
    repeat' first
      | with_reducible assumption
  | cons x l ih =>
    unfold State.writeLines
    repeat' first
      | with_reducible assumption
      | with_reducible apply ih
      | with_reducible apply State.writeLine_kept
      | with_reducible apply Kept.of_snd (by assumption)
      | split

theorem State.rowState_kept {s₀ : State} {s : State} (t : Nat) (a : Nat) (d : List W64) (i : Nat) (x : EpiOut) (q : List FVal) (hs : Kept s₀ s) :
    Kept s₀ (State.rowState s t a d i x q) := by
  unfold State.rowState
  repeat' first
    | with_reducible assumption
    | with_reducible apply State.poke_kept
    | with_reducible apply State.arrFlags_kept
    | extract_lets
    | split

theorem State.rowStateFail_kept {s₀ : State} {s : State} (mf : MemFaults) (t : Nat) (d : List W64) (n : Nat) (hs : Kept s₀ s) :
    Kept s₀ (State.rowStateFail s mf t d n).2 := by
  unfold State.rowStateFail
  repeat' first
    | with_reducible assumption
    | with_reducible apply State.mergeErr_kept
    | extract_lets
    | split

end Sys2Proof.Machine
end

