-- ==== Sys2Proof/Laws/Flashlog.lean ====
section
/-!
SUPPORT. What the operations of Machine/Flashlog.lean keep (Laws/Kept.lean).
-/
namespace Sys2Proof.Machine

open Sys2Proof

theorem State.blockWorn_kept {s₀ : State} {s : State} (r : FlashRegion) (hs : Kept s₀ s) :
    Kept s₀ (State.blockWorn s r) := by
  unfold State.blockWorn
  repeat' first
    | with_reducible assumption
    | with_reducible apply State.modLog_kept
    | with_reducible apply State.logEv_kept
    | with_reducible apply State.setFlag_kept

theorem State.reportDropped_kept {s₀ : State} {s : State} (hs : Kept s₀ s) :
    Kept s₀ (State.reportDropped s) := by
  unfold State.reportDropped
  repeat' first
    | with_reducible assumption
    | with_reducible apply State.modLog_kept
    | with_reducible apply State.logEv_kept
    | extract_lets
    | split
    | dsimp +zetaDelta only

theorem State.pinPending_kept {s₀ : State} {s : State} (r : Pinned) (hs : Kept s₀ s) :
    Kept s₀ (State.pinPending s r) := by
  unfold State.pinPending
  repeat' first
    | with_reducible assumption
    | with_reducible apply State.setFlag_kept
    | with_reducible apply State.modLog_kept
    | with_reducible apply State.raiseService_kept
    | with_reducible apply State.logEv_kept
    | extract_lets
    | fail_if_no_progress (with_reducible apply Kept.mk_of <;> try first | with_reducible rfl | exact id | exact Nat.le_refl _)

end Sys2Proof.Machine
end

