-- ==== Sys2Proof/Laws/Husk.lean ====
section
/-!
SUPPORT. What the operations of Machine/Husk.lean keep (Laws/Kept.lean).
-/
namespace Sys2Proof.Machine

open Sys2Proof

theorem State.huskFreeze_kept {s₀ : State} {s : State} (p : Nat) (step : Nat) (hs : Kept s₀ s) :
    Kept s₀ (State.huskFreeze s p step) := by
  unfold State.huskFreeze
  repeat' first
    | with_reducible assumption
    | with_reducible apply State.modHusk_kept

theorem State.huskLog_kept {s₀ : State} {s : State} (p : Nat) (name : String) (hs : Kept s₀ s) :
    Kept s₀ (State.huskLog s p name) := by
  unfold State.huskLog
  repeat' first
    | with_reducible assumption
    | with_reducible apply State.logEv_kept

theorem State.huskPut_kept {s₀ : State} {s : State} (p : Nat) (off : Nat) (bs : List Byte) (hs : Kept s₀ s) :
    Kept s₀ (State.huskPut s p off bs) := by
  unfold State.huskPut
  repeat' first
    | with_reducible assumption
    | with_reducible apply State.huskAbandon_kept
    | with_reducible apply State.enterNext_kept
    | with_reducible apply State.newOp_kept
    | with_reducible apply State.emit_kept
    | split

theorem State.huskForget_kept {s₀ : State} {s : State} (p : Nat) (hs : Kept s₀ s) :
    Kept s₀ (State.huskForget s p) := by
  unfold State.huskForget
  repeat' first
    | with_reducible assumption
    | with_reducible apply State.modNet_kept

theorem State.frozenChunk_kept {s₀ : State} {s : State} (mf : MemFaults) (p : Nat) (pa : Nat) (hs : Kept s₀ s) :
    Kept s₀ (State.frozenChunk s mf p pa).2.2 := by
  unfold State.frozenChunk
  repeat' first
    | with_reducible assumption
    | with_reducible apply State.chargeStack_kept
    | with_reducible apply State.readErr_kept
    | with_reducible apply State.chargeHbm_kept
    | with_reducible apply Kept.foldl_thd
    | with_reducible apply Kept.of_snd (by assumption)
    | extract_lets
    | split
    | intro _

theorem State.frozenBytes_kept {s₀ : State} {s : State} (mf : MemFaults) (p : Nat) (x : Shard) (hs : Kept s₀ s) :
    Kept s₀ (State.frozenBytes s mf p x).2.2 := by
  unfold State.frozenBytes
  repeat' first
    | with_reducible assumption
    | with_reducible apply State.frozenChunk_kept
    | with_reducible apply Kept.foldl_thd
    | extract_lets
    | intro _

theorem State.manifest_kept {s₀ : State} {s : State} (p : Nat) (hs : Kept s₀ s) :
    Kept s₀ (State.manifest s p).2 := by
  unfold State.manifest
  repeat' first
    | with_reducible assumption
    | extract_lets
    | dsimp +zetaDelta only
    | fail_if_no_progress (with_reducible apply Kept.mk_of <;> try first | with_reducible rfl | exact id | exact Nat.le_refl _)
    | exact Nat.le_succ _

theorem State.partBack_kept {s₀ : State} {s : State} (p : Nat) (part : Nat) (bs : List Byte) (poisoned : List Nat) (hs : Kept s₀ s) :
    Kept s₀ (State.partBack s p part bs poisoned) := by
  unfold State.partBack
  repeat' first
    | with_reducible assumption
    | with_reducible apply State.chargeHbm_kept
    | with_reducible apply State.poke_kept
    | with_reducible apply Kept.foldl
    | extract_lets
    | intro _
    | dsimp +zetaDelta only
    | fail_if_no_progress (with_reducible apply Kept.mk_of <;> try first | with_reducible rfl | exact id | exact Nat.le_refl _)

theorem State.restoreEnd_kept {s₀ : State} {s : State} (p : Nat) (good : Bool) (hs : Kept s₀ s) :
    Kept s₀ (State.restoreEnd s p good) := by
  unfold State.restoreEnd
  repeat' first
    | with_reducible assumption
    | with_reducible apply State.ctrAdd_kept
    | with_reducible apply State.setFlagIf_kept
    | with_reducible apply State.setFlag_kept
    | with_reducible apply State.huskLog_kept
    | with_reducible apply State.endTickets_kept
    | with_reducible apply State.modHusk_kept
    | extract_lets
    | split

end Sys2Proof.Machine
end

