-- ==== Sys2Proof/Laws/VecReg.lean ====
section
/-!
SUPPORT. What the operations of Machine/VecReg.lean keep (Laws/Kept.lean).
-/
namespace Sys2Proof.Machine

open Sys2Proof

theorem State.vecRun_kept {s₀ : State} {s : State} (h : Nat) (undefined_ : Core → Bool) (f : Core → Core) (hs : Kept s₀ s) :
    Kept s₀ (State.vecRun s h undefined_ f) := by
  unfold State.vecRun
  repeat' first
    | with_reducible assumption
    | with_reducible apply State.coreRun_kept
    | with_reducible apply State.illegal_kept
    | with_reducible apply State.modCore_kept
    | extract_lets
    | split
    | intro _

theorem State.vecMem_kept {s₀ : State} {s : State} (h : Nat) (undefined_ : Core → Bool) (body : Core → State → State) (hs : Kept s₀ s) (hbody : ∀ (x0 : Core) (x1 : State), Kept s₀ x1 → Kept s₀ (body x0 x1)) :
    Kept s₀ (State.vecMem s h undefined_ body) := by
  unfold State.vecMem
  repeat' first
    | with_reducible assumption
    | with_reducible apply hbody
    | with_reducible apply State.coreRun_kept
    | with_reducible apply State.illegal_kept
    | extract_lets
    | split
    | intro _

end Sys2Proof.Machine
end

