-- ==== Sys2Proof/Laws/Lvx.lean ====
section
/-!
SUPPORT. What the operations of Machine/Lvx.lean keep (Laws/Kept.lean).
-/
namespace Sys2Proof.Machine

open Sys2Proof

theorem State.lvRound_kept {s₀ : State} {s : State} (h : Nat) (sz : Nat) (rm : Nat) (rd : Nat) (rs1 : Nat) (rs2 : Nat) (bad : Bool) (f : RMode → FLayout → Nat → Nat → Nat → Nat × FFlags) (hs : Kept s₀ s) :
    Kept s₀ (State.lvRound s h sz rm rd rs1 rs2 bad f) := by
  unfold State.lvRound
  repeat' first
    | with_reducible assumption
    | with_reducible apply State.vecRun_kept

theorem State.lvInt_kept {s₀ : State} {s : State} (h : Nat) (sz : Nat) (rm : Nat) (rd : Nat) (rs1 : Nat) (rs2 : Nat) (f : Nat → Nat → Nat → Nat) (hs : Kept s₀ s) :
    Kept s₀ (State.lvInt s h sz rm rd rs1 rs2 f) := by
  unfold State.lvInt
  repeat' first
    | with_reducible assumption
    | with_reducible apply State.vecRun_kept

theorem State.firstElems_kept {s₀ : State} {s : State} (mf : MemFaults) (h : Nat) (b : Nat) (a1 : List Nat) (hs : Kept s₀ s) :
    Kept s₀ (State.firstElems s mf h b a1).2.2 := by
  induction a1 generalizing s mf h b hs with
  | nil =>
    unfold State.firstElems
    repeat' first
      | with_reducible assumption
  | cons x l ih =>
    unfold State.firstElems
    repeat' first
      | with_reducible assumption
      | with_reducible apply ih
      | with_reducible apply State.translate_kept
      | with_reducible apply State.coreRead_kept
      | with_reducible apply Kept.of_snd (by assumption)
      | extract_lets
      | split

end Sys2Proof.Machine
end

