-- ==== Sys2Proof/Laws/Power.lean ====
section
/-!
SUPPORT. What the operations of Machine/Power.lean keep (Laws/Kept.lean).
-/
namespace Sys2Proof.Machine

open Sys2Proof

theorem State.pressEffect_kept {s₀ : State} {s : State} (ms : Nat) (hs : Kept s₀ s) :
    Kept s₀ (State.pressEffect s ms).2 := by
  unfold State.pressEffect
  repeat' first
    | with_reducible assumption
    | with_reducible apply State.evacCancel_kept
    | with_reducible apply State.requestEvac_kept
    | with_reducible apply State.updSafe_kept
    | with_reducible apply State.modPower_kept
    | with_reducible apply State.logEv_kept
    | split

theorem State.pressDone_kept {s₀ : State} {s : State} (ms : Nat) (hs : Kept s₀ s) :
    Kept s₀ (State.pressDone s ms) := by
  unfold State.pressDone
  repeat' first
    | with_reducible assumption
    | with_reducible apply State.pressEffect_kept
    | with_reducible apply State.logEv_kept

theorem State.railFault_kept {s₀ : State} {s : State} (r : Nat) (mv : Nat) (hs : Kept s₀ s) :
    Kept s₀ (State.railFault s r mv) := by
  unfold State.railFault
  repeat' first
    | with_reducible assumption
    | with_reducible apply State.logEv_kept
    | with_reducible apply State.setFlag_kept
    | with_reducible apply State.modPower_kept
    | with_reducible apply State.tillerOffline_kept
    | with_reducible apply State.stopAll_kept
    | extract_lets
    | split

theorem State.railSample_kept {s₀ : State} {s : State} (r : Nat) (mv : Nat) (amps10 : Nat) (hs : Kept s₀ s) :
    Kept s₀ (State.railSample s r mv amps10) := by
  unfold State.railSample
  repeat' first
    | with_reducible assumption
    | with_reducible apply State.modPower_kept
    | with_reducible apply State.railFault_kept
    | extract_lets
    | split

theorem State.vackWrite_kept {s₀ : State} {s : State} (k : Nat) (v : Nat) (hs : Kept s₀ s) :
    Kept s₀ (State.vackWrite s k v) := by
  unfold State.vackWrite
  repeat' first
    | with_reducible assumption
    | with_reducible apply State.setFlag_kept
    | with_reducible apply State.modPower_kept
    | split

theorem State.vsetRequest_kept {s₀ : State} {s : State} (k : Nat) (v : Nat) (hs : Kept s₀ s) :
    Kept s₀ (State.vsetRequest s k v) := by
  unfold State.vsetRequest
  repeat' first
    | with_reducible assumption
    | with_reducible apply State.ibi_kept
    | with_reducible apply State.modPower_kept
    | extract_lets
    | split

theorem State.logPair_kept {s₀ : State} {s : State} (name : String) (acted : Option Nat) (i : Nat) (j : Nat) (limit : Nat) (value : Nat) (hs : Kept s₀ s) :
    Kept s₀ (State.logPair s name acted i j limit value) := by
  unfold State.logPair
  repeat' first
    | with_reducible assumption
    | with_reducible apply State.logEv_kept

theorem State.pairSample_kept {s₀ : State} {s : State} (i : Nat) (j : Nat) (hs : Kept s₀ s) :
    Kept s₀ (State.pairSample s i j) := by
  unfold State.pairSample
  repeat' first
    | with_reducible assumption
    | with_reducible apply State.logPair_kept
    | with_reducible apply State.stopIsland_kept
    | with_reducible apply State.modIsland_kept
    | extract_lets
    | split
    | dsimp +zetaDelta only

theorem State.clampSample_kept {s₀ : State} {s : State} (x : Nat) (hs : Kept s₀ s) :
    Kept s₀ (State.clampSample s x) := by
  unfold State.clampSample
  repeat' first
    | with_reducible assumption
    | with_reducible apply State.modIsland_kept
    | with_reducible apply State.stopIsland_kept
    | with_reducible apply State.logPair_kept
    | extract_lets
    | split
    | dsimp +zetaDelta only

theorem State.throttle_kept {s₀ : State} {s : State} (i : Nat) (temp : Int) (hs : Kept s₀ s) :
    Kept s₀ (State.throttle s i temp) := by
  unfold State.throttle
  repeat' first
    | with_reducible assumption
    | with_reducible apply State.logEv_kept
    | with_reducible apply State.ibi_kept
    | with_reducible apply State.setFlag_kept
    | with_reducible apply State.modPower_kept
    | with_reducible apply State.modIsland_kept
    | split

theorem State.varThermal_kept {s₀ : State} {s : State} (i : Nat) (temp : Int) (hs : Kept s₀ s) :
    Kept s₀ (State.varThermal s i temp) := by
  unfold State.varThermal
  repeat' first
    | with_reducible assumption
    | with_reducible apply State.modIsland_kept
    | with_reducible apply State.setFlag_kept
    | with_reducible apply State.throttle_kept
    | with_reducible apply State.stopIsland_kept
    | with_reducible apply State.thermTrip_kept
    | extract_lets
    | split
    | dsimp +zetaDelta only

theorem State.fixedThermal_kept {s₀ : State} {s : State} (i : Nat) (temp : Int) (hs : Kept s₀ s) :
    Kept s₀ (State.fixedThermal s i temp) := by
  unfold State.fixedThermal
  repeat' first
    | with_reducible assumption
    | with_reducible apply State.thermTrip_kept
    | with_reducible apply State.modIsland_kept
    | with_reducible apply State.logEv_kept
    | with_reducible apply State.setFlag_kept
    | split

theorem State.tapShift_kept {s₀ : State} {s : State} (instr : Nat) (bits : Nat) (out : Nat) (data : Nat) (hs : Kept s₀ s) :
    Kept s₀ (State.tapShift s instr bits out data) := by
  unfold State.tapShift
  repeat' first
    | with_reducible assumption
    | with_reducible apply State.emit_kept
    | with_reducible apply State.modPower_kept

theorem State.tapBypass_kept {s₀ : State} {s : State} (instr : Nat) (data : Nat) (hs : Kept s₀ s) :
    Kept s₀ (State.tapBypass s instr data) := by
  unfold State.tapBypass
  repeat' first
    | with_reducible assumption
    | with_reducible apply State.tapShift_kept

theorem State.boundaryScan_kept {s₀ : State} {s : State} (instr : Nat) (data : Nat) (hs : Kept s₀ s) :
    Kept s₀ (State.boundaryScan s instr data) := by
  unfold State.boundaryScan
  repeat' first
    | with_reducible assumption
    | with_reducible apply State.tapBypass_kept
    | with_reducible apply State.fresh_kept
    | with_reducible apply State.tapShift_kept
    | extract_lets
    | split

end Sys2Proof.Machine
end

