-- ==== Sys2Proof/Laws/Registers.lean ====
section
/-!
SUPPORT. What the operations of Machine/Registers.lean keep (Laws/Kept.lean).
-/
namespace Sys2Proof.Machine

open Sys2Proof

theorem State.i3cWord_kept {s₀ : State} {s : State} (o : Nat) (hs : Kept s₀ s) :
    Kept s₀ (State.i3cWord s o).2 := by
  unfold State.i3cWord
  repeat' first
    | with_reducible assumption
    | with_reducible apply State.readBlock_kept
    | split

theorem State.i3cPut_kept {s₀ : State} {s : State} (o : Nat) (v : Nat) (hs : Kept s₀ s) :
    Kept s₀ (State.i3cPut s o v) := by
  unfold State.i3cPut
  repeat' first
    | with_reducible assumption
    | with_reducible apply State.mboxWrite_kept
    | with_reducible apply State.vackWrite_kept
    | split

theorem State.i3cWords_kept {s₀ : State} {s : State} (o : Nat) (a1 : Nat) (hs : Kept s₀ s) :
    Kept s₀ (State.i3cWords s o a1).2 := by
  induction a1 generalizing s o hs with
  | zero =>
    unfold State.i3cWords
    repeat' first
      | with_reducible assumption
  | succ i ih =>
    unfold State.i3cWords
    repeat' first
      | with_reducible assumption
      | with_reducible apply ih
      | with_reducible apply State.i3cWord_kept

end Sys2Proof.Machine
end

