-- ==== Sys2Proof/Laws/Remote.lean ====
section
/-!
SUPPORT. What the operations of Machine/Remote.lean keep (Laws/Kept.lean).
-/
namespace Sys2Proof.Machine

open Sys2Proof

theorem State.popRemote_kept {s₀ : State} {s : State} (t : Nat) (q : Nat) (op : Nat → Bool) (hs : Kept s₀ s) :
    KeptIfSnd s₀ (State.popRemote s t q op) := by
  unfold State.popRemote
  repeat' first
    | with_reducible assumption
    | with_reducible apply State.popHead_kept
    | with_reducible apply KeptIfSnd.none
    | split

theorem State.issueStore_kept {s₀ : State} {s : State} (t : Nat) (q : Nat) (mf : MemFaults) (op : Nat) (hs : Kept s₀ s) :
    Kept s₀ (State.issueStore s t q mf op) := by
  unfold State.issueStore
  repeat' first
    | with_reducible assumption
    | with_reducible apply State.popRemote_kept
    | with_reducible apply State.failEntry_kept
    | with_reducible apply State.noteRefusal_kept
    | with_reducible apply State.localRead_kept
    | with_reducible apply State.newOp_kept
    | with_reducible apply State.activate_kept
    | with_reducible apply State.sendPieces_kept
    | with_reducible apply Kept.of_some_snd (by assumption)
    | with_reducible apply Kept.of_thd (by assumption)
    | extract_lets
    | split

theorem State.issueXfer_kept {s₀ : State} {s : State} (t : Nat) (q : Nat) (mf : MemFaults) (op : Nat) (hs : Kept s₀ s) :
    Kept s₀ (State.issueXfer s t q mf op) := by
  unfold State.issueXfer
  repeat' first
    | with_reducible assumption
    | with_reducible apply State.popRemote_kept
    | with_reducible apply State.failEntry_kept
    | with_reducible apply State.noteRefusal_kept
    | with_reducible apply State.emit_kept
    | with_reducible apply State.localRead_kept
    | with_reducible apply State.enterNext_kept
    | with_reducible apply State.newOp_kept
    | with_reducible apply State.activate_kept
    | with_reducible apply State.modConn_kept
    | with_reducible apply Kept.of_some_snd (by assumption)
    | with_reducible apply Kept.of_thd (by assumption)
    | extract_lets
    | split
    | dsimp +zetaDelta only

theorem State.connSettle_kept {s₀ : State} {s : State} (c : Nat) (hs : Kept s₀ s) :
    Kept s₀ (State.connSettle s c) := by
  unfold State.connSettle
  repeat' first
    | with_reducible assumption
    | with_reducible apply State.respondWaiting_kept
    | with_reducible apply State.modConn_kept
    | split

theorem State.receive_kept {s₀ : State} {s : State} (c : Nat) (psn : Nat) (dup : State → State) (body : State → State) (hs : Kept s₀ s) (hdup : ∀ (x0 : State), Kept s₀ x0 → Kept s₀ (dup x0)) (hbody : ∀ (x0 : State), Kept s₀ x0 → Kept s₀ (body x0)) :
    Kept s₀ (State.receive s c psn dup body) := by
  unfold State.receive
  repeat' first
    | with_reducible assumption
    | with_reducible apply hdup
    | with_reducible apply hbody
    | with_reducible apply State.emit_kept
    | with_reducible apply State.modConn_kept
    | split

theorem State.reAck_kept {s₀ : State} (c : Nat) {s : State} (hs : Kept s₀ s) :
    Kept s₀ (State.reAck c s) := by
  unfold State.reAck
  repeat' first
    | with_reducible assumption
    | with_reducible apply State.emit_kept

theorem State.packetAcked_kept {s₀ : State} {s : State} (c : Nat) (k : Packet) (hs : Kept s₀ s) :
    Kept s₀ (State.packetAcked s c k) := by
  unfold State.packetAcked
  repeat' first
    | with_reducible assumption
    | with_reducible apply State.revokeGoes_kept
    | with_reducible apply State.opSettle_kept
    | with_reducible apply State.modOp_kept
    | split

end Sys2Proof.Machine
end

