-- ==== Sys2Proof/Laws/Reply.lean ====
section
/-!
SUPPORT. What the answer of a Sunas command's own rules keeps (Laws/Kept.lean).
-/
namespace Sys2Proof.Machine

/-- Every state that a reply carries keeps what `Kept` says. -/
def KeptReply (s : State) : Reply → Prop
  | .done t _ => Kept s t
  | .refuse _ _ => True
  | .failed t _ => Kept s t
  | .wait t _ => Kept s t
  | .own t => Kept s t

theorem KeptReply.done {s t : State} {p : List Byte} (h : Kept s t) : KeptReply s (.done t p) := h
theorem KeptReply.refuse {s : State} {st d : Nat} : KeptReply s (.refuse st d) := trivial
theorem KeptReply.failed {s t : State} {d : Nat} (h : Kept s t) : KeptReply s (.failed t d) := h
theorem KeptReply.wait {s t : State} {w : CmdWait} (h : Kept s t) : KeptReply s (.wait t w) := h
theorem KeptReply.own {s t : State} (h : Kept s t) : KeptReply s (.own t) := h

end Sys2Proof.Machine
end

