-- ==== Sys2Proof/Laws/Serve.lean ====
section
/-!
SUPPORT. What a Sunas command whose turn has come leaves, by the reply of its own rules.
-/
namespace Sys2Proof.Machine

open Sys2Proof

theorem State.judge_serves {s t : State} {k : CmdSpec} {m : Nat} {c : Cmd} (h : Serves s k m c t) (r : Reply)
    (denied : ∀ d, r = .refuse S_DENIED d → d = 0) : t.judge k c r = r := by
  obtain ⟨-, -, rfl, rfl, allowed, lenOk, header, payload, gate⟩ := h
  have hh : (k.read m (s.mbox m).header (s.mbox m).payload).header = (s.mbox m).header := rfl
  have ext : ((s.takeMbox m).hbmGone && bitN (headerWord (s.mbox m).header 0) 17) = false := by
    cases h1 : (s.takeMbox m).hbmGone <;> cases h2 : bitN (headerWord (s.mbox m).header 0) 17 <;>
      simp_all [State.gated]
  rw [State.judge, hh, allowed, lenOk, header, payload, ext, gate]
  simp only [Bool.not_true, Bool.false_eq_true, if_false, List.nil_append]
  cases r with
  | refuse st d =>
    by_cases hd : st = S_DENIED
    · subst hd
      rw [denied d rfl]
      by_cases hl : k.tailAt ≤ field (headerWord (s.mbox m).header 0) 56 32 <;>
        simp [hl, Reply.denies, Reply.badAt, Reply.misses, Reply.denied, S_DENIED, S_BADFIELD, S_NOTFOUND, leastOf]
    · by_cases hb : st = S_BADFIELD
      · subst hb
        simp [Reply.denies, Reply.badAt, S_DENIED, S_BADFIELD, leastOf]
      · simp [Reply.denies, Reply.badAt, Reply.misses, hd, hb, leastOf]
  | _ => simp [Reply.denies, Reply.badAt, Reply.misses, leastOf]

/-- A command whose turn has come, and that the common checks let through, leaves what its reply says. -/
theorem State.serve_reply {s t : State} {k : CmdSpec} {m : Nat} {c : Cmd} {body : Cmd → State → Reply} (h : Serves s k m c t)
    {r : Reply} (hr : body c t = r) (denied : ∀ d, r = .refuse S_DENIED d → d = 0) :
    s.serve k m body = (t.carry m r).drainBad := by
  have hj := State.judge_serves h r denied
  obtain ⟨turn, op, rfl, rfl, -⟩ := h
  simp only [State.serve, turn, op, beq_self_eq_true, Bool.and_self, if_true, hr, hj]

theorem State.serve_done {s t u : State} {k : CmdSpec} {m : Nat} {c : Cmd} {body : Cmd → State → Reply} (h : Serves s k m c t)
    {p : List Byte} (hr : body c t = .done u p) : s.serve k m body = answered u m 0 0 p :=
  State.serve_reply h hr (by intro d hd; cases hd)

theorem State.serve_own {s t u : State} {k : CmdSpec} {m : Nat} {c : Cmd} {body : Cmd → State → Reply} (h : Serves s k m c t)
    (hr : body c t = .own u) : s.serve k m body = u.drainBad := State.serve_reply h hr (by intro d hd; cases hd)

theorem State.serve_wait {s t u : State} {k : CmdSpec} {m : Nat} {c : Cmd} {body : Cmd → State → Reply} (h : Serves s k m c t)
    {w : CmdWait} (hr : body c t = .wait u w) : s.serve k m body = (u.modMbox m fun b => { b with wait := w }).drainBad :=
  State.serve_reply h hr (by intro d hd; cases hd)

theorem State.serve_failed {s t u : State} {k : CmdSpec} {m : Nat} {c : Cmd} {body : Cmd → State → Reply} (h : Serves s k m c t)
    {d : Nat} (hr : body c t = .failed u d) : s.serve k m body = answered u m S_FAILED d [] :=
  State.serve_reply h hr (by intro d hd; cases hd)

/-- A refused command changes nothing but its mailbox (R935). -/
theorem State.serve_refuse {s t : State} {k : CmdSpec} {m : Nat} {c : Cmd} {body : Cmd → State → Reply} (h : Serves s k m c t)
    {st d : Nat} (hr : body c t = .refuse st d) (hd : st = S_DENIED → d = 0 := by decide) :
    s.serve k m body = answered t m st d [] :=
  State.serve_reply h hr (by rintro d' ⟨⟩; exact hd rfl)

end Sys2Proof.Machine
end

