-- ==== Sys2Proof/Laws/Start.lean ====
section
/-!
SUPPORT. What the operations of Machine/Start.lean keep (Laws/Kept.lean).
-/
namespace Sys2Proof.Machine

open Sys2Proof

theorem State.chooseImage_kept {s₀ : State} {s : State} (sigA : Bool) (sigB : Bool) (hs : Kept s₀ s) :
    Kept s₀ (State.chooseImage s sigA sigB).2 := by
  unfold State.chooseImage
  repeat' first
    | with_reducible assumption
    | with_reducible apply State.logEv_kept
    | with_reducible apply State.modStart_kept
    | extract_lets
    | split
    | intro _
    | rfl

theorem State.applyMaps_kept {s₀ : State} {s : State} (hs : Kept s₀ s) :
    Kept s₀ (State.applyMaps s) := by
  unfold State.applyMaps
  repeat' first
    | with_reducible assumption
    | with_reducible apply State.modArr_kept
    | with_reducible apply Kept.foldl
    | extract_lets
    | intro _

theorem State.applyJournal_kept {s₀ : State} {s : State} (hs : Kept s₀ s) :
    Kept s₀ (State.applyJournal s) := by
  unfold State.applyJournal
  repeat' first
    | with_reducible assumption
    | with_reducible apply State.forN_kept
    | with_reducible apply State.modStack_kept
    | with_reducible apply State.logEv_kept
    | extract_lets
    | split
    | intro _

theorem State.zeroHbm_kept {s₀ : State} {s : State} (hs : Kept s₀ s) :
    Kept s₀ (State.zeroHbm s) := by
  unfold State.zeroHbm
  repeat' first
    | with_reducible assumption
    | extract_lets
    | intro _
    | dsimp +zetaDelta only
    | fail_if_no_progress (with_reducible apply Kept.mk_of <;> try first | with_reducible rfl | exact id | exact Nat.le_refl _)
    | with_reducible apply Memory.filter_wf

theorem State.stage4Begin_kept {s₀ : State} {s : State} (hs : Kept s₀ s) :
    Kept s₀ (State.stage4Begin s) := by
  unfold State.stage4Begin
  repeat' first
    | with_reducible assumption
    | with_reducible apply State.islandUp_kept
    | with_reducible apply State.stageDone_kept
    | with_reducible apply State.forN_kept
    | with_reducible apply State.setModuleSt_kept
    | with_reducible apply State.lsmEn_kept
    | with_reducible apply State.portStart_kept
    | extract_lets
    | split
    | intro _

theorem State.tillerUp_kept {s₀ : State} {s : State} (t : Nat) (banks : List Nat) (defects : List (Nat × List Nat)) (hs : Kept s₀ s) :
    Kept s₀ (State.tillerUp s t banks defects) := by
  unfold State.tillerUp
  repeat' first
    | with_reducible assumption
    | with_reducible apply State.scrambleAll_kept
    | with_reducible apply State.islandUp_kept
    | with_reducible apply State.modTile_kept
    | with_reducible apply State.logEv_kept
    | with_reducible apply State.bankSpare_kept
    | with_reducible apply State.arrRepair_kept
    | with_reducible apply State.keysFrom_kept
    | with_reducible apply State.forN_kept
    | with_reducible apply State.modArr_kept
    | with_reducible apply State.tillerOffline_kept
    | with_reducible apply State.clearService_kept
    | with_reducible apply Kept.foldl
    | extract_lets
    | split
    | intro _
    | dsimp +zetaDelta only
    | fail_if_no_progress (with_reducible apply Kept.mk_of <;> try first | with_reducible rfl | exact id | exact Nat.le_refl _)

theorem State.setPlace_kept {s₀ : State} {s : State} (place : Nat) (site : Nat) (hs : Kept s₀ s) :
    Kept s₀ (State.setPlace s place site) := by
  unfold State.setPlace
  repeat' first
    | with_reducible assumption
    | with_reducible apply State.forN_kept
    | with_reducible apply State.planeBack_kept
    | with_reducible apply State.modPort_kept
    | with_reducible apply State.logEv_kept
    | with_reducible apply State.setFlag_kept
    | with_reducible apply State.planeLost_kept
    | extract_lets
    | split
    | intro _
    | dsimp +zetaDelta only
    | fail_if_no_progress (with_reducible apply Kept.mk_of <;> try first | with_reducible rfl | exact id | exact Nat.le_refl _)

end Sys2Proof.Machine
end

