-- ==== Sys2Proof/Laws/SunasReply.lean ====
section
/-!
SUPPORT. What the operations of Machine/SunasReply.lean keep (Laws/Kept.lean).
-/
namespace Sys2Proof.Machine

open Sys2Proof

theorem Reply.busy_kept {s₀ : State} :
    KeptReply s₀ (Reply.busy ) := by
  unfold Reply.busy
  repeat' with_reducible apply KeptReply.refuse

theorem Reply.denied_kept {s₀ : State} :
    KeptReply s₀ (Reply.denied ) := by
  unfold Reply.denied
  repeat' with_reducible apply KeptReply.refuse

theorem Reply.notFound_kept {s₀ : State} :
    KeptReply s₀ (Reply.notFound ) := by
  unfold Reply.notFound
  repeat' with_reducible apply KeptReply.refuse

theorem Reply.ok_kept {s₀ : State} {s : State} (hs : Kept s₀ s) :
    KeptReply s₀ (Reply.ok s) := by
  unfold Reply.ok
  repeat' first
    | with_reducible assumption
    | with_reducible apply KeptReply.done

theorem Cmd.bad_kept {s₀ : State} (c : Cmd) (i : Nat) :
    KeptReply s₀ (Cmd.bad c i) := by
  unfold Cmd.bad
  repeat' with_reducible apply KeptReply.refuse

theorem Cmd.check_kept {s₀ : State} (c : Cmd) (conds : List (Bool × Nat)) (r : Reply) (hr : KeptReply s₀ r) :
    KeptReply s₀ (Cmd.check c conds r) := by
  unfold Cmd.check
  repeat' first
    | with_reducible assumption
    | with_reducible apply KeptReply.refuse
    | split

theorem Reply.unlessBusy_kept {s₀ : State} (b : Bool) (r : Reply) (hr : KeptReply s₀ r) :
    KeptReply s₀ (Reply.unlessBusy b r) := by
  unfold Reply.unlessBusy
  repeat' first
    | with_reducible assumption
    | with_reducible apply Reply.busy_kept
    | split

theorem State.judge_kept {s₀ : State} {s : State} (k : CmdSpec) (c : Cmd) (r : Reply) (hs : Kept s₀ s) (hr : KeptReply s₀ r) :
    KeptReply s₀ (State.judge s k c r) := by
  unfold State.judge
  repeat' first
    | with_reducible assumption
    | with_reducible apply KeptReply.refuse
    | with_reducible apply Reply.denied_kept
    | with_reducible apply Reply.busy_kept
    | extract_lets
    | split

theorem State.carry_kept {s₀ : State} {s : State} (m : Nat) (a1 : Reply) (hs : Kept s₀ s) (ha1 : KeptReply s₀ a1) :
    Kept s₀ (State.carry s m a1) := by
  cases a1 with
  | done t p => exact State.respond_kept _ _ _ _ ha1
  | refuse st d => exact State.respond_kept _ _ _ _ hs
  | failed t d => exact State.respond_kept _ _ _ _ ha1
  | wait t w => exact State.modMbox_kept _ _ ha1
  | own t => exact ha1

theorem State.serve_kept {s₀ : State} {s : State} (k : CmdSpec) (m : Nat) (body : Cmd → State → Reply) (hs : Kept s₀ s) (hbody : ∀ (x0 : Cmd) (x1 : State), Kept s₀ x1 → KeptReply s₀ (body x0 x1)) :
    Kept s₀ (State.serve s k m body) := by
  unfold State.serve
  repeat' first
    | with_reducible assumption
    | with_reducible apply hbody
    | with_reducible apply State.takeMbox_kept
    | with_reducible apply State.drainBad_kept
    | with_reducible apply State.carry_kept
    | with_reducible apply State.judge_kept
    | extract_lets
    | split

theorem State.deferCmd_kept {s₀ : State} {s : State} (c : Cmd) (act : Activity) (res : List Res) (hs : Kept s₀ s) :
    KeptReply s₀ (State.deferCmd s c act res) := by
  unfold State.deferCmd
  repeat' first
    | with_reducible assumption
    | with_reducible apply KeptReply.refuse
    | with_reducible apply KeptReply.own
    | with_reducible apply Reply.busy_kept
    | with_reducible apply State.newTicket_kept
    | with_reducible apply State.writeResponse_kept
    | extract_lets
    | split

theorem State.maintain_kept {s₀ : State} {s : State} (c : Cmd) (act : Activity) (res : List Res) (perform : State → Reply) (hs : Kept s₀ s) (hperform : ∀ (x0 : State), Kept s₀ x0 → KeptReply s₀ (perform x0)) :
    KeptReply s₀ (State.maintain s c act res perform) := by
  unfold State.maintain
  repeat' first
    | with_reducible assumption
    | with_reducible apply hperform
    | with_reducible apply State.deferCmd_kept
    | split

theorem State.endDeferred_kept {s₀ : State} {s : State} (n : Nat) (a1 : Reply) (hs : Kept s₀ s) (ha1 : KeptReply s₀ a1) :
    Kept s₀ (State.endDeferred s n a1) := by
  cases a1 with
  | done t p => exact State.endTicket_kept _ _ ha1
  | refuse st d => exact State.endTicket_kept _ _ hs
  | failed t d => exact State.endTicket_kept _ _ ha1
  | wait t w => exact ha1
  | own t => exact ha1

theorem State.startTicket_kept {s₀ : State} {s : State} (n : Nat) (hs : Kept s₀ s) :
    Kept s₀ (State.startTicket s n) := by
  unfold State.startTicket
  repeat' first
    | with_reducible assumption
    | with_reducible apply State.modSunas_kept
    | extract_lets
    | intro _
    | dsimp +zetaDelta only
    | with_reducible rfl

end Sys2Proof.Machine
end

