-- ==== Sys2Proof/Laws/SunasFabric.lean ====
section
/-!
SUPPORT. What the operations of Machine/SunasFabric.lean keep (Laws/Kept.lean).
-/
namespace Sys2Proof.Machine

open Sys2Proof

theorem State.setRoles_kept {s₀ : State} {s : State} (hall : Nat) (hs : Kept s₀ s) :
    Kept s₀ (State.setRoles s hall) := by
  unfold State.setRoles
  repeat' first
    | with_reducible assumption
    | with_reducible apply State.leaveActive_kept
    | with_reducible apply State.portStart_kept
    | with_reducible apply Kept.foldl
    | extract_lets
    | intro _
    | dsimp +zetaDelta only
    | fail_if_no_progress (with_reducible apply Kept.mk_of <;> try first | with_reducible rfl | exact id | exact Nat.le_refl _)

theorem State.runPortRoles_kept {s₀ : State} (c : Cmd) {s : State} (hs : Kept s₀ s) :
    KeptReply s₀ (State.runPortRoles c s) := by
  unfold State.runPortRoles
  repeat' first
    | with_reducible assumption
    | with_reducible apply Cmd.check_kept
    | with_reducible apply Reply.unlessBusy_kept
    | with_reducible apply State.maintain_kept
    | with_reducible apply Reply.ok_kept
    | with_reducible apply State.setRoles_kept
    | extract_lets
    | intro _

theorem State.runLaneLimit_kept {s₀ : State} (c : Cmd) {s : State} (hs : Kept s₀ s) :
    KeptReply s₀ (State.runLaneLimit c s) := by
  unfold State.runLaneLimit
  repeat' first
    | with_reducible assumption
    | with_reducible apply Reply.ok_kept
    | with_reducible apply State.modPort_kept
    | with_reducible apply Kept.foldl
    | extract_lets
    | intro _

theorem State.retrain_kept {s₀ : State} {s : State} (mask : Nat) (hs : Kept s₀ s) :
    Kept s₀ (State.retrain s mask) := by
  unfold State.retrain
  repeat' first
    | with_reducible assumption
    | with_reducible apply State.modPort_kept
    | with_reducible apply State.portOut_kept
    | with_reducible apply Kept.foldl
    | extract_lets
    | split
    | intro _

theorem State.runPortRetrain_kept {s₀ : State} (c : Cmd) {s : State} (hs : Kept s₀ s) :
    KeptReply s₀ (State.runPortRetrain c s) := by
  unfold State.runPortRetrain
  repeat' first
    | with_reducible assumption
    | with_reducible apply KeptReply.own
    | with_reducible apply Reply.unlessBusy_kept
    | with_reducible apply State.maintain_kept
    | with_reducible apply State.newTicket_kept
    | with_reducible apply State.modMbox_kept
    | with_reducible apply State.retrainsEnd_kept
    | with_reducible apply State.retrain_kept
    | extract_lets
    | intro _

theorem State.runLaserEvacuate_kept {s₀ : State} (c : Cmd) {s : State} (hs : Kept s₀ s) :
    KeptReply s₀ (State.runLaserEvacuate c s) := by
  unfold State.runLaserEvacuate
  repeat' first
    | with_reducible assumption
    | with_reducible apply State.deferCmd_kept
    | with_reducible apply State.maintain_kept
    | with_reducible apply Reply.ok_kept
    | with_reducible apply State.evacuate_kept
    | extract_lets
    | split
    | intro _

theorem State.failConns_kept {s₀ : State} {s : State} (f : Nat → Bool) (hs : Kept s₀ s) :
    Kept s₀ (State.failConns s f) := by
  unfold State.failConns
  repeat' first
    | with_reducible assumption
    | with_reducible apply State.connFail_kept
    | with_reducible apply Kept.foldl
    | extract_lets
    | intro _

theorem State.setHall_kept {s₀ : State} {s : State} (i : Nat) (h : Hall) (hs : Kept s₀ s) :
    Kept s₀ (State.setHall s i h) := by
  unfold State.setHall
  repeat' first
    | with_reducible assumption
    | with_reducible apply State.setFlagIf_kept
    | with_reducible apply State.failConns_kept
    | extract_lets
    | split
    | dsimp +zetaDelta only
    | fail_if_no_progress (with_reducible apply Kept.mk_of <;> try first | with_reducible rfl | exact id | exact Nat.le_refl _)

theorem State.setDomain_kept {s₀ : State} {s : State} (i : Nat) (st : Nat) (hs : Kept s₀ s) :
    Kept s₀ (State.setDomain s i st) := by
  unfold State.setDomain
  repeat' first
    | with_reducible assumption
    | with_reducible apply State.setFlagIf_kept
    | with_reducible apply State.failConns_kept
    | extract_lets
    | split
    | dsimp +zetaDelta only
    | fail_if_no_progress (with_reducible apply Kept.mk_of <;> try first | with_reducible rfl | exact id | exact Nat.le_refl _)

theorem State.setSlot_kept {s₀ : State} {s : State} (i : Nat) (st : Nat) (place : Nat) (planes : W16) (peer : List Export) (hs : Kept s₀ s) :
    Kept s₀ (State.setSlot s i st place planes peer) := by
  unfold State.setSlot
  repeat' first
    | with_reducible assumption
    | with_reducible apply State.modNet_kept
    | with_reducible apply State.setSlotSt_kept
    | with_reducible apply State.slotLost_kept
    | with_reducible apply State.loseAdds_kept
    | with_reducible apply State.losePieces_kept
    | extract_lets
    | split
    | dsimp +zetaDelta only

theorem State.runTableSet_kept {s₀ : State} (peer : List Export) (c : Cmd) {s : State} (hs : Kept s₀ s) :
    KeptReply s₀ (State.runTableSet peer c s) := by
  unfold State.runTableSet
  repeat' first
    | with_reducible assumption
    | with_reducible apply Cmd.check_kept
    | with_reducible apply Reply.ok_kept
    | with_reducible apply State.setHall_kept
    | with_reducible apply State.setDomain_kept
    | with_reducible apply State.setSlot_kept
    | extract_lets
    | split

theorem State.runExportSet_kept {s₀ : State} (c : Cmd) {s : State} (hs : Kept s₀ s) :
    KeptReply s₀ (State.runExportSet c s) := by
  unfold State.runExportSet
  repeat' first
    | with_reducible assumption
    | with_reducible apply Cmd.check_kept
    | with_reducible apply Reply.ok_kept
    | with_reducible apply State.modNet_kept

theorem State.runReplicaSet_kept {s₀ : State} (c : Cmd) {s : State} (hs : Kept s₀ s) :
    KeptReply s₀ (State.runReplicaSet c s) := by
  unfold State.runReplicaSet
  repeat' first
    | with_reducible assumption
    | with_reducible apply Cmd.check_kept
    | with_reducible apply Reply.ok_kept
    | with_reducible apply State.modNet_kept

theorem State.runDomainTimeout_kept {s₀ : State} (c : Cmd) {s : State} (hs : Kept s₀ s) :
    KeptReply s₀ (State.runDomainTimeout c s) := by
  unfold State.runDomainTimeout
  repeat' first
    | with_reducible assumption
    | with_reducible apply Reply.ok_kept
    | with_reducible apply State.modNet_kept

theorem State.invalidate_kept {s₀ : State} {s : State} (w : Nat) (conns : List Nat) (hs : Kept s₀ s) :
    Kept s₀ (State.invalidate s w conns) := by
  unfold State.invalidate
  repeat' first
    | with_reducible assumption
    | with_reducible apply State.sendPacket_kept
    | with_reducible apply State.emit_kept
    | with_reducible apply State.modConn_kept
    | with_reducible apply Kept.foldl
    | extract_lets
    | intro _

theorem State.runWindowSet_kept {s₀ : State} (c : Cmd) {s : State} (hs : Kept s₀ s) :
    KeptReply s₀ (State.runWindowSet c s) := by
  unfold State.runWindowSet
  repeat' first
    | with_reducible assumption
    | with_reducible apply KeptReply.done
    | with_reducible apply KeptReply.wait
    | with_reducible apply KeptReply.own
    | with_reducible apply Reply.denied_kept
    | with_reducible apply Cmd.check_kept
    | with_reducible apply State.modNet_kept
    | with_reducible apply State.revoked_kept
    | with_reducible apply State.invalidate_kept
    | extract_lets
    | split

theorem State.runConnOpen_kept {s₀ : State} (c : Cmd) {s : State} (hs : Kept s₀ s) :
    KeptReply s₀ (State.runConnOpen c s) := by
  unfold State.runConnOpen
  repeat' first
    | with_reducible assumption
    | with_reducible apply KeptReply.done
    | with_reducible apply KeptReply.refuse
    | with_reducible apply Cmd.check_kept
    | with_reducible apply State.modConn_kept
    | extract_lets
    | split

theorem State.runConnClose_kept {s₀ : State} (c : Cmd) {s : State} (hs : Kept s₀ s) :
    KeptReply s₀ (State.runConnClose c s) := by
  unfold State.runConnClose
  repeat' first
    | with_reducible assumption
    | with_reducible apply KeptReply.own
    | with_reducible apply Reply.denied_kept
    | with_reducible apply Reply.notFound_kept
    | with_reducible apply Reply.ok_kept
    | with_reducible apply State.modConn_kept
    | with_reducible apply State.connSettle_kept
    | with_reducible apply State.modMbox_kept
    | extract_lets
    | split

theorem State.runConnTimeout_kept {s₀ : State} (c : Cmd) {s : State} (hs : Kept s₀ s) :
    KeptReply s₀ (State.runConnTimeout c s) := by
  unfold State.runConnTimeout
  repeat' first
    | with_reducible assumption
    | with_reducible apply Reply.denied_kept
    | with_reducible apply Cmd.check_kept
    | with_reducible apply Reply.notFound_kept
    | with_reducible apply Reply.ok_kept
    | with_reducible apply State.modConn_kept
    | extract_lets
    | split

end Sys2Proof.Machine
end

