-- ==== Sys2Proof/Laws/SunasViews.lean ====
section
/-!
SUPPORT. What the operations of Machine/SunasViews.lean keep (Laws/Kept.lean).
-/
namespace Sys2Proof.Machine

open Sys2Proof

theorem checkAt_kept {s₀ : State} (conds : List (Bool × Nat)) (r : Reply) (hr : KeptReply s₀ r) :
    KeptReply s₀ (checkAt conds r) := by
  unfold checkAt
  repeat' first
    | with_reducible assumption
    | with_reducible apply KeptReply.refuse
    | split

theorem State.modViewCounts_kept {s₀ : State} {s : State} (v : Nat) (f : ViewCounts → ViewCounts) (hs : Kept s₀ s) :
    Kept s₀ (State.modViewCounts s v f) := by
  unfold State.modViewCounts
  repeat' first
    | with_reducible assumption
    | with_reducible apply State.forN_kept
    | with_reducible apply State.modTile_kept
    | extract_lets
    | intro _

theorem State.runViewSet_kept {s₀ : State} (c : Cmd) {s : State} (hs : Kept s₀ s) :
    KeptReply s₀ (State.runViewSet c s) := by
  unfold State.runViewSet
  repeat' first
    | with_reducible assumption
    | with_reducible apply KeptReply.done
    | with_reducible apply Reply.denied_kept
    | with_reducible apply checkAt_kept
    | with_reducible apply State.modViewCounts_kept
    | extract_lets
    | split
    | dsimp +zetaDelta only
    | fail_if_no_progress (with_reducible apply Kept.mk_of <;> try first | with_reducible rfl | exact id | exact Nat.le_refl _)

theorem State.runViewCounts_kept {s₀ : State} (c : Cmd) {s : State} (hs : Kept s₀ s) :
    KeptReply s₀ (State.runViewCounts c s) := by
  unfold State.runViewCounts
  repeat' first
    | with_reducible assumption
    | with_reducible apply KeptReply.done
    | with_reducible apply Reply.denied_kept
    | with_reducible apply State.modViewCounts_kept
    | extract_lets
    | split

theorem State.runHuskConfig_kept {s₀ : State} (c : Cmd) {s : State} (hs : Kept s₀ s) :
    KeptReply s₀ (State.runHuskConfig c s) := by
  unfold State.runHuskConfig
  repeat' first
    | with_reducible assumption
    | with_reducible apply checkAt_kept
    | with_reducible apply Reply.unlessBusy_kept
    | with_reducible apply Reply.ok_kept
    | with_reducible apply State.modHusk_kept

theorem State.runHuskFreeze_kept {s₀ : State} (c : Cmd) {s : State} (hs : Kept s₀ s) :
    KeptReply s₀ (State.runHuskFreeze c s) := by
  unfold State.runHuskFreeze
  repeat' first
    | with_reducible assumption
    | with_reducible apply KeptReply.wait
    | with_reducible apply Reply.unlessBusy_kept
    | with_reducible apply State.huskFreeze_kept

theorem State.runHuskAbandon_kept {s₀ : State} (c : Cmd) {s : State} (hs : Kept s₀ s) :
    KeptReply s₀ (State.runHuskAbandon c s) := by
  unfold State.runHuskAbandon
  repeat' first
    | with_reducible assumption
    | with_reducible apply Reply.unlessBusy_kept
    | with_reducible apply Reply.ok_kept
    | with_reducible apply State.huskAbandon_kept

theorem State.runHuskCommit_kept {s₀ : State} (c : Cmd) {s : State} (hs : Kept s₀ s) :
    KeptReply s₀ (State.runHuskCommit c s) := by
  unfold State.runHuskCommit
  repeat' first
    | with_reducible assumption
    | with_reducible apply Reply.unlessBusy_kept
    | with_reducible apply Reply.ok_kept
    | with_reducible apply State.huskLog_kept
    | with_reducible apply State.modHusk_kept

theorem State.rollback_kept {s₀ : State} {s : State} (p : Nat) (hs : Kept s₀ s) :
    Kept s₀ (State.rollback s p) := by
  unfold State.rollback
  repeat' first
    | with_reducible assumption
    | with_reducible apply State.modHusk_kept

theorem State.runHuskRollback_kept {s₀ : State} (c : Cmd) {s : State} (hs : Kept s₀ s) :
    KeptReply s₀ (State.runHuskRollback c s) := by
  unfold State.runHuskRollback
  repeat' first
    | with_reducible assumption
    | with_reducible apply KeptReply.wait
    | with_reducible apply Reply.unlessBusy_kept
    | with_reducible apply State.maintain_kept
    | with_reducible apply State.rollback_kept
    | extract_lets
    | intro _

theorem State.restore_kept {s₀ : State} {s : State} (c : Cmd) (hs : Kept s₀ s) :
    Kept s₀ (State.restore s c) := by
  unfold State.restore
  repeat' first
    | with_reducible assumption
    | with_reducible apply State.modHusk_kept
    | with_reducible apply State.releaseHeld_kept

theorem State.runHuskRestore_kept {s₀ : State} (c : Cmd) {s : State} (hs : Kept s₀ s) :
    KeptReply s₀ (State.runHuskRestore c s) := by
  unfold State.runHuskRestore
  repeat' first
    | with_reducible assumption
    | with_reducible apply Cmd.check_kept
    | with_reducible apply Reply.unlessBusy_kept
    | with_reducible apply State.maintain_kept
    | with_reducible apply Reply.ok_kept
    | with_reducible apply State.restore_kept
    | extract_lets
    | intro _

theorem State.runRingSet_kept {s₀ : State} (c : Cmd) {s : State} (hs : Kept s₀ s) :
    KeptReply s₀ (State.runRingSet c s) := by
  unfold State.runRingSet
  repeat' first
    | with_reducible assumption
    | with_reducible apply Reply.denied_kept
    | with_reducible apply Cmd.check_kept
    | with_reducible apply Reply.unlessBusy_kept
    | with_reducible apply State.modRing_kept
    | with_reducible apply Reply.ok_kept
    | with_reducible apply State.ringDisable_kept
    | extract_lets
    | split

theorem State.clearGroup_kept {s₀ : State} {s : State} (t : Nat) (group : Nat) (cntBase : Nat) (hs : Kept s₀ s) :
    Kept s₀ (State.clearGroup s t group cntBase) := by
  unfold State.clearGroup
  repeat' first
    | with_reducible assumption
    | with_reducible apply State.modTile_kept
    | extract_lets
    | fail_if_no_progress (with_reducible apply Kept.mk_of <;> try first | with_reducible rfl | exact id | exact Nat.le_refl _)

theorem State.runGroupSet_kept {s₀ : State} (c : Cmd) {s : State} (hs : Kept s₀ s) :
    KeptReply s₀ (State.runGroupSet c s) := by
  unfold State.runGroupSet
  repeat' first
    | with_reducible assumption
    | with_reducible apply KeptReply.refuse
    | with_reducible apply Cmd.check_kept
    | with_reducible apply Reply.ok_kept
    | with_reducible apply State.clearGroup_kept
    | with_reducible apply State.modTile_kept
    | extract_lets
    | split

theorem State.runGroupReset_kept {s₀ : State} (c : Cmd) {s : State} (hs : Kept s₀ s) :
    KeptReply s₀ (State.runGroupReset c s) := by
  unfold State.runGroupReset
  repeat' first
    | with_reducible assumption
    | with_reducible apply Reply.notFound_kept
    | with_reducible apply Reply.denied_kept
    | with_reducible apply Reply.unlessBusy_kept
    | with_reducible apply State.clearGroup_kept
    | with_reducible apply Reply.ok_kept
    | with_reducible apply State.modTile_kept
    | extract_lets
    | split

end Sys2Proof.Machine
end

