-- ==== Sys2Proof/Laws/SunasFirmware.lean ====
section
/-!
SUPPORT. What the operations of Machine/SunasFirmware.lean keep (Laws/Kept.lean).
-/
namespace Sys2Proof.Machine

open Sys2Proof

theorem Sunas.setSlot_fuseVersion (u : Sunas) (i : Nat) (x : ImgSlot) : (u.setSlot i x).fuseVersion = u.fuseVersion := by
  unfold Sunas.setSlot
  split <;> rfl

theorem State.runSensors_kept {s₀ : State} (a1 : Cmd) {s : State} (hs : Kept s₀ s) :
    KeptReply s₀ (State.runSensors a1 s) := by
  unfold State.runSensors
  repeat' first
    | with_reducible assumption
    | with_reducible apply KeptReply.done

theorem State.runTillerCap_kept {s₀ : State} (c : Cmd) {s : State} (hs : Kept s₀ s) :
    KeptReply s₀ (State.runTillerCap c s) := by
  unfold State.runTillerCap
  repeat' first
    | with_reducible assumption
    | with_reducible apply Cmd.check_kept
    | with_reducible apply Reply.ok_kept
    | with_reducible apply State.modTile_kept
    | with_reducible apply State.modIsland_kept
    | with_reducible apply Kept.foldl
    | extract_lets
    | intro _

theorem Reply.failedFree_kept {s₀ : State} {s : State} (hs : Kept s₀ s) :
    KeptReply s₀ (Reply.failedFree s) := by
  unfold Reply.failedFree
  repeat' first
    | with_reducible assumption
    | with_reducible apply KeptReply.failed
    | with_reducible apply State.fresh_kept

theorem State.runTillerState_kept {s₀ : State} (o : Observed) (c : Cmd) {s : State} (hs : Kept s₀ s) :
    KeptReply s₀ (State.runTillerState o c s) := by
  unfold State.runTillerState
  repeat' first
    | with_reducible assumption
    | with_reducible apply Reply.unlessBusy_kept
    | with_reducible apply Reply.ok_kept
    | with_reducible apply State.tillerOffline_kept
    | with_reducible apply Reply.failedFree_kept
    | with_reducible apply State.tillerUp_kept
    | extract_lets
    | split

theorem State.runFwInfo_kept {s₀ : State} (a1 : Cmd) {s : State} (hs : Kept s₀ s) :
    KeptReply s₀ (State.runFwInfo a1 s) := by
  unfold State.runFwInfo
  repeat' first
    | with_reducible assumption
    | with_reducible apply KeptReply.done

theorem State.standbyBlocks_kept {s₀ : State} {s : State} (worn : Bool) (hs : Kept s₀ s) :
    Kept s₀ (State.standbyBlocks s worn).2 := by
  unfold State.standbyBlocks
  repeat' first
    | with_reducible assumption
    | with_reducible apply State.blockWorn_kept
    | extract_lets
    | split
    | dsimp +zetaDelta only

theorem State.runFwWrite_kept {s₀ : State} (o : Observed) (c : Cmd) {s : State} (hs : Kept s₀ s) :
    KeptReply s₀ (State.runFwWrite o c s) := by
  unfold State.runFwWrite
  repeat' first
    | with_reducible assumption
    | with_reducible apply KeptReply.refuse
    | with_reducible apply KeptReply.own
    | with_reducible apply Cmd.check_kept
    | with_reducible apply Reply.unlessBusy_kept
    | with_reducible apply State.maintain_kept
    | with_reducible apply State.standbyBlocks_kept
    | with_reducible apply State.modSunas_kept
    | with_reducible apply State.restart1_kept
    | with_reducible apply State.respond_kept
    | with_reducible apply Reply.ok_kept
    | extract_lets
    | split
    | intro _
    | dsimp +zetaDelta only
    | exact le_of_eq (Sunas.setSlot_fuseVersion _ _ _).symm

theorem State.runFwVerify_kept {s₀ : State} (o : Observed) (c : Cmd) {s : State} (hs : Kept s₀ s) :
    KeptReply s₀ (State.runFwVerify o c s) := by
  unfold State.runFwVerify
  repeat' first
    | with_reducible assumption
    | with_reducible apply KeptReply.own
    | with_reducible apply Cmd.check_kept
    | with_reducible apply State.maintain_kept
    | with_reducible apply Reply.ok_kept
    | with_reducible apply State.modSunas_kept
    | with_reducible apply State.respond_kept
    | extract_lets
    | split
    | intro _
    | dsimp +zetaDelta only
    | with_reducible rfl

theorem State.activateStandby_kept {s₀ : State} {s : State} (live : Bool) (hs : Kept s₀ s) :
    Kept s₀ (State.activateStandby s live) := by
  unfold State.activateStandby
  repeat' first
    | with_reducible assumption
    | with_reducible apply State.logEv_kept
    | with_reducible apply State.modSunas_kept
    | extract_lets
    | split
    | intro _
    | dsimp +zetaDelta only
    | with_reducible rfl

theorem State.runFwActivate_kept {s₀ : State} (c : Cmd) {s : State} (hs : Kept s₀ s) :
    KeptReply s₀ (State.runFwActivate c s) := by
  unfold State.runFwActivate
  repeat' first
    | with_reducible assumption
    | with_reducible apply KeptReply.refuse
    | with_reducible apply Reply.unlessBusy_kept
    | with_reducible apply State.maintain_kept
    | with_reducible apply Reply.ok_kept
    | with_reducible apply State.activateStandby_kept
    | extract_lets
    | split
    | intro _

theorem State.runFwCommit_kept {s₀ : State} (c : Cmd) {s : State} (hs : Kept s₀ s) :
    KeptReply s₀ (State.runFwCommit c s) := by
  unfold State.runFwCommit
  repeat' first
    | with_reducible assumption
    | with_reducible apply Reply.unlessBusy_kept
    | with_reducible apply State.maintain_kept
    | with_reducible apply Reply.ok_kept
    | with_reducible apply State.logEv_kept
    | with_reducible apply State.modSunas_kept
    | extract_lets
    | intro _
    | dsimp +zetaDelta only
    | exact le_max_left _ _

theorem State.ucode_kept {s₀ : State} {s : State} (mask : Nat) (hs : Kept s₀ s) :
    Kept s₀ (State.ucode s mask) := by
  unfold State.ucode
  repeat' first
    | with_reducible assumption
    | with_reducible apply State.keysFrom_kept
    | with_reducible apply State.forN_kept
    | with_reducible apply State.modArr_kept
    | with_reducible apply Kept.foldl
    | extract_lets
    | intro _

theorem State.runUcodeApply_kept {s₀ : State} (c : Cmd) {s : State} (hs : Kept s₀ s) :
    KeptReply s₀ (State.runUcodeApply c s) := by
  unfold State.runUcodeApply
  repeat' first
    | with_reducible assumption
    | with_reducible apply Reply.unlessBusy_kept
    | with_reducible apply State.maintain_kept
    | with_reducible apply Reply.ok_kept
    | with_reducible apply State.ucode_kept
    | extract_lets
    | intro _

theorem State.runLogInfo_kept {s₀ : State} (a1 : Cmd) {s : State} (hs : Kept s₀ s) :
    KeptReply s₀ (State.runLogInfo a1 s) := by
  unfold State.runLogInfo
  repeat' first
    | with_reducible assumption
    | with_reducible apply KeptReply.done
    | with_reducible apply State.fresh_kept
    | extract_lets
    | split

theorem State.runLogRead_kept {s₀ : State} (c : Cmd) {s : State} (hs : Kept s₀ s) :
    KeptReply s₀ (State.runLogRead c s) := by
  unfold State.runLogRead
  repeat' first
    | with_reducible assumption
    | with_reducible apply KeptReply.done

theorem State.hbm1500_kept {s₀ : State} {s : State} (bits : Nat) (hs : Kept s₀ s) :
    KeptReply s₀ (State.hbm1500 s bits) := by
  unfold State.hbm1500
  repeat' first
    | with_reducible assumption
    | with_reducible apply KeptReply.done
    | with_reducible apply State.fresh_kept

theorem State.runHbm1500_kept {s₀ : State} (a1 : Observed) (c : Cmd) {s : State} (hs : Kept s₀ s) :
    KeptReply s₀ (State.runHbm1500 a1 c s) := by
  unfold State.runHbm1500
  repeat' first
    | with_reducible assumption
    | with_reducible apply State.maintain_kept
    | with_reducible apply State.hbm1500_kept
    | extract_lets
    | intro _

theorem State.scrambleStack_kept {s₀ : State} {s : State} (k : Nat) (hs : Kept s₀ s) :
    Kept s₀ (State.scrambleStack s k) := by
  unfold State.scrambleStack
  repeat' first
    | with_reducible assumption
    | extract_lets
    | intro _
    | dsimp +zetaDelta only
    | fail_if_no_progress (with_reducible apply Kept.mk_of <;> try first | with_reducible rfl | exact id | exact Nat.le_refl _)
    | with_reducible apply Memory.writeCells_wf
    | with_reducible apply Memory.filter_wf
    | exact Nat.le_succ _

theorem State.hbmBist_kept {s₀ : State} {s : State} (o : Observed) (k : Nat) (hs : Kept s₀ s) :
    KeptReply s₀ (State.hbmBist s o k) := by
  unfold State.hbmBist
  repeat' first
    | with_reducible assumption
    | with_reducible apply KeptReply.failed
    | with_reducible apply State.scrambleStack_kept
    | with_reducible apply Reply.ok_kept
    | split

theorem State.runHbmBist_kept {s₀ : State} (o : Observed) (c : Cmd) {s : State} (hs : Kept s₀ s) :
    KeptReply s₀ (State.runHbmBist o c s) := by
  unfold State.runHbmBist
  repeat' first
    | with_reducible assumption
    | with_reducible apply Reply.unlessBusy_kept
    | with_reducible apply State.maintain_kept
    | with_reducible apply State.hbmBist_kept
    | extract_lets
    | intro _

theorem State.hbmModereg_kept {s₀ : State} {s : State} (c : Cmd) (hs : Kept s₀ s) :
    KeptReply s₀ (State.hbmModereg s c) := by
  unfold State.hbmModereg
  repeat' first
    | with_reducible assumption
    | with_reducible apply KeptReply.done
    | with_reducible apply Reply.ok_kept
    | with_reducible apply State.modStack_kept
    | with_reducible apply State.fresh_kept
    | extract_lets
    | split

theorem State.runHbmModereg_kept {s₀ : State} (a1 : Observed) (c : Cmd) {s : State} (hs : Kept s₀ s) :
    KeptReply s₀ (State.runHbmModereg a1 c s) := by
  unfold State.runHbmModereg
  repeat' first
    | with_reducible assumption
    | with_reducible apply State.maintain_kept
    | with_reducible apply State.hbmModereg_kept
    | extract_lets
    | intro _

theorem State.hbmRepair_kept {s₀ : State} {s : State} (mf : MemFaults) (c : Cmd) (hs : Kept s₀ s) :
    KeptReply s₀ (State.hbmRepair s mf c) := by
  unfold State.hbmRepair
  repeat' first
    | with_reducible assumption
    | with_reducible apply Reply.failedFree_kept
    | with_reducible apply Reply.ok_kept
    | with_reducible apply State.logEv_kept
    | with_reducible apply State.pin_kept
    | with_reducible apply State.modStack_kept
    | with_reducible apply State.rowScan_kept
    | with_reducible apply State.rowRepair_kept
    | extract_lets
    | split

theorem State.runHbmRepair_kept {s₀ : State} (o : Observed) (c : Cmd) {s : State} (hs : Kept s₀ s) :
    KeptReply s₀ (State.runHbmRepair o c s) := by
  unfold State.runHbmRepair
  repeat' first
    | with_reducible assumption
    | with_reducible apply Reply.unlessBusy_kept
    | with_reducible apply State.maintain_kept
    | with_reducible apply State.hbmRepair_kept
    | extract_lets
    | intro _

theorem State.arrayMap_kept {s₀ : State} {s : State} (c : Cmd) (hs : Kept s₀ s) :
    KeptReply s₀ (State.arrayMap s c) := by
  unfold State.arrayMap
  repeat' first
    | with_reducible assumption
    | with_reducible apply KeptReply.done
    | with_reducible apply State.cfgErr_kept
    | with_reducible apply State.mapWrite_kept
    | extract_lets
    | split
    | dsimp +zetaDelta only

theorem State.runArrayMap_kept {s₀ : State} (c : Cmd) {s : State} (hs : Kept s₀ s) :
    KeptReply s₀ (State.runArrayMap c s) := by
  unfold State.runArrayMap
  repeat' first
    | with_reducible assumption
    | with_reducible apply Reply.unlessBusy_kept
    | with_reducible apply State.maintain_kept
    | with_reducible apply State.arrayMap_kept
    | extract_lets
    | intro _

theorem State.runMaintStatus_kept {s₀ : State} (c : Cmd) {s : State} (hs : Kept s₀ s) :
    KeptReply s₀ (State.runMaintStatus c s) := by
  unfold State.runMaintStatus
  repeat' first
    | with_reducible assumption
    | with_reducible apply KeptReply.done
    | with_reducible apply Reply.notFound_kept
    | split

theorem State.runMaintCancel_kept {s₀ : State} (c : Cmd) {s : State} (hs : Kept s₀ s) :
    KeptReply s₀ (State.runMaintCancel c s) := by
  unfold State.runMaintCancel
  repeat' first
    | with_reducible assumption
    | with_reducible apply Reply.notFound_kept
    | with_reducible apply Reply.ok_kept
    | with_reducible apply State.modSunas_kept
    | with_reducible apply State.evacCancel_kept
    | with_reducible apply Reply.busy_kept
    | extract_lets
    | split
    | intro _
    | dsimp +zetaDelta only
    | with_reducible rfl

theorem State.performDeferred_kept {s₀ : State} {s : State} (o : Observed) (n : Nat) (c : Cmd) (hs : Kept s₀ s) :
    Kept s₀ (State.performDeferred s o n c) := by
  unfold State.performDeferred
  repeat' first
    | with_reducible assumption
    | with_reducible apply State.endDeferred_kept
    | with_reducible apply Reply.unlessBusy_kept
    | with_reducible apply Reply.ok_kept
    | with_reducible apply State.setRoles_kept
    | with_reducible apply State.retrainsEnd_kept
    | with_reducible apply State.retrain_kept
    | with_reducible apply State.evacuate_kept
    | with_reducible apply State.rollback_kept
    | with_reducible apply State.endTicket_kept
    | with_reducible apply State.restore_kept
    | with_reducible apply State.ucode_kept
    | with_reducible apply State.hbm1500_kept
    | with_reducible apply State.hbmBist_kept
    | with_reducible apply State.hbmModereg_kept
    | with_reducible apply State.hbmRepair_kept
    | with_reducible apply State.arrayMap_kept
    | split

end Sys2Proof.Machine
end

