-- ==== Sys2Proof/Laws/SunasGeneral.lean ====
section
/-!
SUPPORT. What the operations of Machine/SunasGeneral.lean keep (Laws/Kept.lean).
-/
namespace Sys2Proof.Machine

open Sys2Proof

theorem State.runStatus_kept {s₀ : State} (a1 : Cmd) {s : State} (hs : Kept s₀ s) :
    KeptReply s₀ (State.runStatus a1 s) := by
  unfold State.runStatus
  repeat' first
    | with_reducible assumption
    | with_reducible apply KeptReply.done
    | with_reducible apply State.modSunas_kept
    | extract_lets
    | intro _
    | dsimp +zetaDelta only
    | with_reducible rfl

theorem State.runNodeReady_kept {s₀ : State} (a1 : Cmd) {s : State} (hs : Kept s₀ s) :
    KeptReply s₀ (State.runNodeReady a1 s) := by
  unfold State.runNodeReady
  repeat' first
    | with_reducible assumption
    | with_reducible apply Reply.ok_kept
    | with_reducible apply State.stage4Begin_kept
    | with_reducible apply Reply.busy_kept
    | split

theorem State.runRestart_kept {s₀ : State} (c : Cmd) {s : State} (hs : Kept s₀ s) :
    KeptReply s₀ (State.runRestart c s) := by
  unfold State.runRestart
  repeat' first
    | with_reducible assumption
    | with_reducible apply KeptReply.own
    | with_reducible apply State.restart1_kept
    | with_reducible apply State.respond_kept

theorem State.runCoreStart_kept {s₀ : State} (c : Cmd) {s : State} (hs : Kept s₀ s) :
    KeptReply s₀ (State.runCoreStart c s) := by
  unfold State.runCoreStart
  repeat' first
    | with_reducible assumption
    | with_reducible apply Cmd.check_kept
    | with_reducible apply Reply.unlessBusy_kept
    | with_reducible apply Reply.ok_kept
    | with_reducible apply State.modCore_kept

theorem State.runJoin_kept {s₀ : State} (a1 : Cmd) {s : State} (hs : Kept s₀ s) :
    KeptReply s₀ (State.runJoin a1 s) := by
  unfold State.runJoin
  repeat' first
    | with_reducible assumption
    | with_reducible apply Reply.unlessBusy_kept
    | with_reducible apply Reply.ok_kept
    | with_reducible apply State.modStart_kept
    | extract_lets
    | intro _
    | rfl

theorem State.runPlaceSet_kept {s₀ : State} (c : Cmd) {s : State} (hs : Kept s₀ s) :
    KeptReply s₀ (State.runPlaceSet c s) := by
  unfold State.runPlaceSet
  repeat' first
    | with_reducible assumption
    | with_reducible apply Reply.unlessBusy_kept
    | with_reducible apply Reply.ok_kept
    | with_reducible apply State.setPlace_kept

theorem State.runNotifySet_kept {s₀ : State} (c : Cmd) {s : State} (hs : Kept s₀ s) :
    KeptReply s₀ (State.runNotifySet c s) := by
  unfold State.runNotifySet
  repeat' first
    | with_reducible assumption
    | with_reducible apply Cmd.check_kept
    | with_reducible apply Reply.ok_kept
    | with_reducible apply State.modSunas_kept
    | extract_lets
    | intro _
    | dsimp +zetaDelta only
    | with_reducible rfl

theorem State.ringsOutside_kept {s₀ : State} {s : State} (p : Nat) (hs : Kept s₀ s) :
    Kept s₀ (State.ringsOutside s p) := by
  unfold State.ringsOutside
  repeat' first
    | with_reducible assumption
    | with_reducible apply State.forN_kept
    | with_reducible apply State.modRing_kept
    | with_reducible apply Kept.foldl
    | extract_lets
    | intro _

theorem State.fillBuckets_kept {s₀ : State} {s : State} (p : Nat) (hs : Kept s₀ s) :
    Kept s₀ (State.fillBuckets s p) := by
  unfold State.fillBuckets
  repeat' first
    | with_reducible assumption
    | with_reducible apply State.forN_kept
    | with_reducible apply State.modStack_kept
    | extract_lets
    | intro _

theorem State.runPartSet_kept {s₀ : State} (c : Cmd) {s : State} (hs : Kept s₀ s) :
    KeptReply s₀ (State.runPartSet c s) := by
  unfold State.runPartSet
  repeat' first
    | with_reducible assumption
    | with_reducible apply Cmd.check_kept
    | with_reducible apply Reply.unlessBusy_kept
    | with_reducible apply State.modPart_kept
    | with_reducible apply State.forN_kept
    | with_reducible apply State.modCore_kept
    | with_reducible apply State.ringsOutside_kept
    | with_reducible apply State.fillBuckets_kept
    | with_reducible apply Reply.ok_kept
    | with_reducible apply State.updSafe_kept
    | with_reducible apply State.keysFrom_kept
    | extract_lets
    | split
    | intro _
    | fail_if_no_progress (with_reducible apply Kept.mk_of <;> try first | with_reducible rfl | exact id | exact Nat.le_refl _)

theorem State.runPartStart_kept {s₀ : State} (c : Cmd) {s : State} (hs : Kept s₀ s) :
    KeptReply s₀ (State.runPartStart c s) := by
  unfold State.runPartStart
  repeat' first
    | with_reducible assumption
    | with_reducible apply Reply.unlessBusy_kept
    | with_reducible apply Reply.ok_kept
    | with_reducible apply State.updSafe_kept
    | with_reducible apply State.modPart_kept

theorem State.awaitStop_kept {s₀ : State} {s : State} (m : Nat) (p : Nat) (hs : Kept s₀ s) :
    Kept s₀ (State.awaitStop s m p) := by
  unfold State.awaitStop
  repeat' first
    | with_reducible assumption
    | with_reducible apply State.modMbox_kept

theorem State.runPartStop_kept {s₀ : State} (c : Cmd) {s : State} (hs : Kept s₀ s) :
    KeptReply s₀ (State.runPartStop c s) := by
  unfold State.runPartStop
  repeat' first
    | with_reducible assumption
    | with_reducible apply KeptReply.own
    | with_reducible apply Reply.unlessBusy_kept
    | with_reducible apply State.partSettle_kept
    | with_reducible apply State.modPart_kept
    | with_reducible apply State.awaitStop_kept

theorem State.runPartReset_kept {s₀ : State} (c : Cmd) {s : State} (hs : Kept s₀ s) :
    KeptReply s₀ (State.runPartReset c s) := by
  unfold State.runPartReset
  repeat' first
    | with_reducible assumption
    | with_reducible apply KeptReply.own
    | with_reducible apply Reply.unlessBusy_kept
    | with_reducible apply State.partReset_kept
    | with_reducible apply State.awaitStop_kept

theorem State.runKeySet_kept {s₀ : State} (c : Cmd) {s : State} (hs : Kept s₀ s) :
    KeptReply s₀ (State.runKeySet c s) := by
  unfold State.runKeySet
  repeat' first
    | with_reducible assumption
    | with_reducible apply Cmd.check_kept
    | with_reducible apply Reply.unlessBusy_kept
    | with_reducible apply Reply.ok_kept
    | with_reducible apply State.keysFrom_kept
    | with_reducible apply State.modPart_kept

theorem State.runKeyGet_kept {s₀ : State} (c : Cmd) {s : State} (hs : Kept s₀ s) :
    KeptReply s₀ (State.runKeyGet c s) := by
  unfold State.runKeyGet
  repeat' first
    | with_reducible assumption
    | with_reducible apply KeptReply.done

end Sys2Proof.Machine
end

