-- ==== Sys2Proof/Laws/SunasMemory.lean ====
section
/-!
SUPPORT. What the operations of Machine/SunasMemory.lean keep (Laws/Kept.lean).
-/
namespace Sys2Proof.Machine

open Sys2Proof

theorem State.onStacks_kept {s₀ : State} {s : State} (mask : Nat) (f : Stack → Stack) (hs : Kept s₀ s) :
    Kept s₀ (State.onStacks s mask f) := by
  unfold State.onStacks
  repeat' first
    | with_reducible assumption
    | with_reducible apply State.forN_kept
    | with_reducible apply State.modStack_kept
    | extract_lets
    | split
    | intro _

theorem State.setInterleave_kept {s₀ : State} {s : State} (mode : Nat) (hs : Kept s₀ s) :
    Kept s₀ (State.setInterleave s mode) := by
  unfold State.setInterleave
  repeat' first
    | with_reducible assumption
    | with_reducible apply State.scramble_kept
    | with_reducible apply State.movePoison_kept
    | extract_lets
    | split
    | dsimp +zetaDelta only
    | fail_if_no_progress (with_reducible apply Kept.mk_of <;> try first | with_reducible rfl | exact id | exact Nat.le_refl _)

theorem State.runMemInterleave_kept {s₀ : State} (c : Cmd) {s : State} (hs : Kept s₀ s) :
    KeptReply s₀ (State.runMemInterleave c s) := by
  unfold State.runMemInterleave
  repeat' first
    | with_reducible assumption
    | with_reducible apply Reply.ok_kept
    | with_reducible apply State.modStart_kept
    | with_reducible apply Reply.unlessBusy_kept
    | with_reducible apply State.setInterleave_kept
    | extract_lets
    | split
    | intro _
    | rfl

theorem State.runMemRegulator_kept {s₀ : State} (c : Cmd) {s : State} (hs : Kept s₀ s) :
    KeptReply s₀ (State.runMemRegulator c s) := by
  unfold State.runMemRegulator
  repeat' first
    | with_reducible assumption
    | with_reducible apply Cmd.check_kept
    | with_reducible apply Reply.ok_kept
    | with_reducible apply State.onStacks_kept

theorem State.runMemBlockMode_kept {s₀ : State} (c : Cmd) {s : State} (hs : Kept s₀ s) :
    KeptReply s₀ (State.runMemBlockMode c s) := by
  unfold State.runMemBlockMode
  repeat' first
    | with_reducible assumption
    | with_reducible apply Reply.unlessBusy_kept
    | with_reducible apply Reply.ok_kept
    | with_reducible apply State.onStacks_kept

theorem State.runMemUeLimit_kept {s₀ : State} (c : Cmd) {s : State} (hs : Kept s₀ s) :
    KeptReply s₀ (State.runMemUeLimit c s) := by
  unfold State.runMemUeLimit
  repeat' first
    | with_reducible assumption
    | with_reducible apply Reply.ok_kept
    | with_reducible apply State.onStacks_kept

theorem State.runMemScrub_kept {s₀ : State} (c : Cmd) {s : State} (hs : Kept s₀ s) :
    KeptReply s₀ (State.runMemScrub c s) := by
  unfold State.runMemScrub
  repeat' first
    | with_reducible assumption
    | with_reducible apply Reply.ok_kept
    | with_reducible apply State.onStacks_kept

theorem State.runRowAck_kept {s₀ : State} (c : Cmd) {s : State} (hs : Kept s₀ s) :
    KeptReply s₀ (State.runRowAck c s) := by
  unfold State.runRowAck
  repeat' first
    | with_reducible assumption
    | with_reducible apply Reply.ok_kept
    | with_reducible apply State.rowFence_kept
    | with_reducible apply Reply.notFound_kept
    | split

theorem State.runRetireRead_kept {s₀ : State} (c : Cmd) {s : State} (hs : Kept s₀ s) :
    KeptReply s₀ (State.runRetireRead c s) := by
  unfold State.runRetireRead
  repeat' first
    | with_reducible assumption
    | with_reducible apply KeptReply.done

end Sys2Proof.Machine
end

