-- ==== Sys2Proof/Laws/Svx.lean ====
section
/-!
SUPPORT. What the operations of Machine/Svx.lean keep (Laws/Kept.lean).
-/
namespace Sys2Proof.Machine

open Sys2Proof

theorem State.svInt_kept {s₀ : State} {s : State} (h : Nat) (sz : Nat) (pg : Nat) (rd : Nat) (rs1 : Nat) (rs2 : Nat) (f : Core → Nat → Nat → Nat → Nat × Bool) (hs : Kept s₀ s) :
    Kept s₀ (State.svInt s h sz pg rd rs1 rs2 f) := by
  unfold State.svInt
  repeat' first
    | with_reducible assumption
    | with_reducible apply State.vecRun_kept

theorem State.svCmp_kept {s₀ : State} {s : State} (h : Nat) (sz : Nat) (pg : Nat) (rd : Nat) (rs1 : Nat) (rs2 : Nat) (f : Nat → Nat → Nat → Bool) (hs : Kept s₀ s) :
    Kept s₀ (State.svCmp s h sz pg rd rs1 rs2 f) := by
  unfold State.svCmp
  repeat' first
    | with_reducible assumption
    | with_reducible apply State.vecRun_kept

theorem State.svFloat_kept {s₀ : State} {s : State} (h : Nat) (sz : Nat) (pg : Nat) (rd : Nat) (rs1 : Nat) (rs2 : Nat) (f : RMode → FVal → FVal → FVal → FVal) (hs : Kept s₀ s) :
    Kept s₀ (State.svFloat s h sz pg rd rs1 rs2 f) := by
  unfold State.svFloat
  repeat' first
    | with_reducible assumption
    | with_reducible apply State.vecRun_kept

end Sys2Proof.Machine
end

