-- ==== Sys2Proof/Laws/VeBase.lean ====
section
/-!
SUPPORT. What the operations of Machine/VeBase.lean keep (Laws/Kept.lean).
-/
namespace Sys2Proof.Machine

open Sys2Proof

theorem State.scan_kept {s₀ : State} {s : State} (mf : MemFaults) (a1 : List (Nat × Nat)) (hs : Kept s₀ s) :
    Kept s₀ (State.scan s mf a1).2 := by
  induction a1 generalizing s mf hs with
  | nil =>
    unfold State.scan
    repeat' first
      | with_reducible assumption
  | cons x l ih =>
    unfold State.scan
    repeat' first
      | with_reducible assumption
      | with_reducible apply ih
      | with_reducible apply State.readErr_kept
      | with_reducible apply Kept.of_snd (by assumption)
      | split

theorem State.writeFail_kept {s₀ : State} {s : State} (mf : MemFaults) (t : Nat) (x : VStream) (count : Nat) (hs : Kept s₀ s) :
    Kept s₀ (State.writeFail s mf t x count).2 := by
  unfold State.writeFail
  repeat' first
    | with_reducible assumption
    | with_reducible apply State.mergeErr_kept
    | split

theorem State.putCodes_kept {s₀ : State} {s : State} (t : Nat) (x : VStream) (count : Nat) (codes : List Nat) (hs : Kept s₀ s) :
    Kept s₀ (State.putCodes s t x count codes) := by
  unfold State.putCodes
  repeat' first
    | with_reducible assumption
    | with_reducible apply State.poke_kept
    | with_reducible apply Kept.foldl
    | extract_lets
    | intro _

theorem State.putBlocks_kept {s₀ : State} {s : State} (t : Nat) (x : VStream) (count : Nat) (cut : Nat) (conv : Nat) (vals : List FVal) (hs : Kept s₀ s) :
    Kept s₀ (State.putBlocks s t x count cut conv vals).2 := by
  unfold State.putBlocks
  repeat' first
    | with_reducible assumption
    | with_reducible apply State.poke_kept
    | with_reducible apply Kept.foldl_snd
    | extract_lets
    | split
    | intro _

theorem State.failVe_kept {s₀ : State} {s : State} (t : Nat) (e : QEntry) (code : Nat) (done : Nat) (info : Nat) (hs : Kept s₀ s) :
    Kept s₀ (State.failVe s t e code done info) := by
  unfold State.failVe
  repeat' first
    | with_reducible assumption
    | with_reducible apply State.failEntry_kept
    | with_reducible apply State.modTile_kept
    | with_reducible apply State.setFlagIf_kept

theorem State.veFlags_kept {s₀ : State} {s : State} (t : Nat) (f : FFlags) (hs : Kept s₀ s) :
    Kept s₀ (State.veFlags s t f) := by
  unfold State.veFlags
  repeat' first
    | with_reducible assumption
    | with_reducible apply State.setFlagIf_kept

theorem State.readSlots_kept {s₀ : State} {s : State} (mf : MemFaults) (key : Nat) (a1 : List Nat) (hs : Kept s₀ s) :
    Kept s₀ (State.readSlots s mf key a1).2 := by
  induction a1 generalizing s mf key hs with
  | nil =>
    unfold State.readSlots
    repeat' first
      | with_reducible assumption
  | cons x l ih =>
    unfold State.readSlots
    repeat' first
      | with_reducible assumption
      | with_reducible apply ih
      | with_reducible apply State.load_kept
      | with_reducible apply Kept.of_snd (by assumption)
      | split

theorem State.takeVe_kept {s₀ : State} {s : State} (t : Nat) (mf : MemFaults) (o : Nat) (alt : Nat) (nsrc : Nat → Nat) (pos : Bool) (checks : State → Nat → VJob → List Check) (run : State → QEntry → VJob → State) (hs : Kept s₀ s) (hrun : ∀ (x0 : State) (x1 : QEntry) (x2 : VJob), Kept s₀ x0 → Kept s₀ (run x0 x1 x2)) :
    Kept s₀ (State.takeVe s t mf o alt nsrc pos checks run) := by
  unfold State.takeVe
  repeat' first
    | with_reducible assumption
    | with_reducible apply hrun
    | with_reducible apply State.popHead_kept
    | with_reducible apply State.failVe_kept
    | with_reducible apply State.readSlots_kept
    | with_reducible apply State.activate_kept
    | with_reducible apply Kept.of_some_snd (by assumption)
    | with_reducible apply Kept.of_snd (by assumption)
    | extract_lets
    | split

theorem State.scanAll_kept {s₀ : State} {s : State} (mf : MemFaults) (t : Nat) (a1 : List (VStream × Nat)) (a2 : List VStream) (a3 : Option (Nat × Nat)) (hs : Kept s₀ s) :
    Kept s₀ (State.scanAll s mf t a1 a2 a3).2 := by
  induction a1 generalizing s mf t a2 a3 hs with
  | nil =>
    unfold State.scanAll
    repeat' first
      | with_reducible assumption
  | cons x l ih =>
    unfold State.scanAll
    repeat' first
      | with_reducible assumption
      | with_reducible apply ih
      | with_reducible apply State.scan_kept
      | split

theorem State.veElems_kept {s₀ : State} {s : State} (mf : MemFaults) (t : Nat) (e : QEntry) (j : VJob) (counts : List Nat) (lanes : Nat) (val : State → Nat → Nat × FFlags) (blocks : State → Nat → FVal) (hs : Kept s₀ s) :
    Kept s₀ (State.veElems s mf t e j counts lanes val blocks) := by
  unfold State.veElems
  repeat' first
    | with_reducible assumption
    | with_reducible apply State.scanAll_kept
    | with_reducible apply State.writeFail_kept
    | with_reducible apply State.putBlocks_kept
    | with_reducible apply State.putCodes_kept
    | with_reducible apply State.veFlags_kept
    | with_reducible apply State.failVe_kept
    | with_reducible apply Kept.of_snd (by assumption)
    | extract_lets
    | split
    | dsimp +zetaDelta only

theorem State.veElem_kept {s₀ : State} {s : State} (t : Nat) (mf : MemFaults) (x : VSpec) (hs : Kept s₀ s) :
    Kept s₀ (State.veElem s t mf x) := by
  unfold State.veElem
  repeat' first
    | with_reducible assumption
    | with_reducible apply State.takeVe_kept
    | with_reducible apply State.veElems_kept
    | extract_lets
    | split
    | intro _

theorem State.veReduce_kept {s₀ : State} {s : State} (t : Nat) (mf : MemFaults) (x : RSpec) (hs : Kept s₀ s) :
    Kept s₀ (State.veReduce s t mf x) := by
  unfold State.veReduce
  repeat' first
    | with_reducible assumption
    | with_reducible apply State.takeVe_kept
    | with_reducible apply State.scanAll_kept
    | with_reducible apply State.scan_kept
    | with_reducible apply State.writeFail_kept
    | with_reducible apply State.veFlags_kept
    | with_reducible apply State.putCodes_kept
    | with_reducible apply State.failVe_kept
    | with_reducible apply Kept.of_snd (by assumption)
    | extract_lets
    | split
    | intro _
    | dsimp +zetaDelta only

end Sys2Proof.Machine
end

