-- ==== Sys2Proof/Laws/Vector.lean ====
section
/-!
SUPPORT. What the operations of Machine/Vector.lean keep (Laws/Kept.lean).
-/
namespace Sys2Proof.Machine

open Sys2Proof

theorem State.veBounded_kept {s₀ : State} {s : State} (t : Nat) (mf : MemFaults) (op : Nat) (alt : Nat) (hs : Kept s₀ s) :
    Kept s₀ (State.veBounded s t mf op alt) := by
  unfold State.veBounded
  repeat' first
    | with_reducible assumption
    | with_reducible apply State.takeVe_kept
    | with_reducible apply State.veElems_kept
    | extract_lets
    | intro _

theorem State.veShift_kept {s₀ : State} {s : State} (t : Nat) (mf : MemFaults) (op : Nat) (f : Int → Nat → Int) (hs : Kept s₀ s) :
    Kept s₀ (State.veShift s t mf op f) := by
  unfold State.veShift
  repeat' first
    | with_reducible assumption
    | with_reducible apply State.takeVe_kept
    | with_reducible apply State.veElems_kept
    | extract_lets
    | intro _

theorem State.cutRows_kept {s₀ : State} {s : State} (mf : MemFaults) (t : Nat) (e : QEntry) (x : FmtX) (a1 : Nat) (a2 : Nat) (hs : Kept s₀ s) :
    Kept s₀ (State.cutRows s mf t e x a1 a2).2.2 := by
  induction a1 generalizing s mf t e x a2 hs with
  | zero =>
    unfold State.cutRows
    repeat' first
      | with_reducible assumption
  | succ i ih =>
    unfold State.cutRows
    repeat' first
      | with_reducible assumption
      | with_reducible apply ih
      | with_reducible apply State.load_kept
      | with_reducible apply State.mergeErr_kept
      | with_reducible apply State.poke_kept
      | with_reducible apply Kept.foldl
      | with_reducible apply Kept.of_snd (by assumption)
      | extract_lets
      | split
      | intro _

end Sys2Proof.Machine
end

