-- ==== Sys2Proof/Laws/VectorRun.lean ====
section
/-!
SUPPORT. Vector instructions that pass their checks, where no granule is uncorrectable.
-/
namespace Sys2Proof.Machine

open Sys2Proof Sys2Proof.Laws

/-- No sector of a stack stands at or above the stacks. -/
theorem State.fencedIn_above {s : State} {a n : Nat} (h : 0x8000000000 ≤ a) : s.fencedIn a n = [] := by
  simp [State.fencedIn, Nat.not_lt.2 h]

/-- A read above the stacks meets no error where no granule is bad. -/
theorem State.readErr_clean {s : State} {a n : Nat} (hb : s.bad = []) (h : 0x8000000000 ≤ a) : s.readErr MemFaults.none a n = (none, s) := by
  simp [State.readErr, State.badIn, hb, MemFaults.none, leastOf, State.fencedIn_above h]

/-- A load above the stacks reads the bytes where no granule is bad. -/
theorem State.load_clean {s : State} {a n : Nat} (hb : s.bad = []) (h : 0x8000000000 ≤ a) : s.load MemFaults.none a n = (.ok (s.peek a n), s) := by
  simp [State.load, State.readErr_clean hb h]

/-- The descriptors of a block are the bytes of its slots where no granule is bad. -/
theorem State.readSlots_clean {s : State} {k : Nat} (hb : s.bad = []) (h : 0x8000000000 ≤ k) : ∀ l, s.readSlots MemFaults.none k l = (.ok (l.map fun i => VStream.mk ((chunksOf 8 4 (s.peek (k + 32 * i) 32)).map (BitVec.ofNat 64))), s) := by
  intro l
  induction l with
  | nil => rfl
  | cons i l ih => simp [State.readSlots, State.load_clean hb (show 0x8000000000 ≤ k + 32 * i by omega), ih]

/-- A scan above the stacks finds no error where no granule is bad. -/
theorem State.scan_clean {s : State} (hb : s.bad = []) : ∀ l : List (Nat × Nat), (∀ q ∈ l, 0x8000000000 ≤ q.2) → s.scan MemFaults.none l = (none, s) := by
  intro l
  induction l with
  | nil => intros; rfl
  | cons q l ih => intro h; simp [State.scan, State.readErr_clean hb (h q (by simp)), ih (fun q hq => h q (by simp [hq]))]

/-- A stream of the vector engine lies above the stacks. -/
theorem VStream.key_ge (x : VStream) (t : Nat) (o : Int) : 0x020000000000 ≤ x.key t o := by
  unfold VStream.key acmKey spmBase; split <;> omega

/-- The granules of a range above the stacks lie above the stacks. -/
theorem granulesOf_ge {k n g : Nat} (hk : 0x020000000000 ≤ k) (h : g ∈ granulesOf k n) : 0x8000000000 ≤ g := by
  simp only [granulesOf, List.mem_map] at h
  obtain ⟨i, _, rfl⟩ := h
  have hg : granule k = 4 ∨ granule k = 8 ∨ granule k = 32 := by unfold granule; split_ifs <;> simp
  rcases hg with hg | hg | hg <;> rw [hg] <;> omega

/-- The granules of a stream lie above the stacks. -/
theorem VStream.granules_ge {x : VStream} {t n : Nat} : ∀ q ∈ x.granules t n, 0x8000000000 ≤ q.2 := by
  have inner : ∀ (e : Nat) (l : List Nat) (acc : List (Nat × Nat)), (∀ g ∈ l, 0x8000000000 ≤ g) → (∀ q ∈ acc, 0x8000000000 ≤ q.2) →
     ∀ q ∈ l.foldl (fun acc g => if acc.any fun q => q.2 == g then acc else acc ++ [(e, g)]) acc, 0x8000000000 ≤ q.2 := by
    intro e l
    induction l with
    | nil => intro acc _ h; exact h
    | cons g l ih =>
      intro acc hl h
      apply ih _ (fun g hg => hl g (by simp [hg]))
      simp only []
      split
      · exact h
      · intro q hq; simp at hq; rcases hq with hq | hq
        · exact h q hq
        · rw [hq]; exact hl g (by simp)
  have outer : ∀ (l : List Nat) (acc : List (Nat × Nat)), (∀ q ∈ acc, 0x8000000000 ≤ q.2) →
    ∀ q ∈ l.foldl (fun acc e =>
    ((x.spans n e).flatMap fun r => granulesOf (x.key t r.1) r.2).foldl (fun acc g => if acc.any fun q => q.2 == g then acc else acc ++ [(e, g)]) acc) acc, 0x8000000000 ≤ q.2 := by
    intro l
    induction l with
    | nil => intro acc h; exact h
    | cons e l ih =>
      intro acc h
      apply ih
      apply inner _ _ _ _ h
      intro g hg
      simp at hg
      obtain ⟨_, _, _, hg⟩ := hg
      exact granulesOf_ge (VStream.key_ge ..) hg
  exact outer _ _ (by simp)

/-- The streams of an instruction meet no error where no granule is bad. -/
theorem State.scanAll_clean {s : State} {t : Nat} (hb : s.bad = []) : ∀ (l : List (VStream × Nat)) seen, s.scanAll MemFaults.none t l seen none = (none, s) := by
  intro l
  induction l with
  | nil => intros; rfl
  | cons q l ih =>
    intro seen
    unfold State.scanAll
    simp only [State.scan_clean hb _ VStream.granules_ge]
    split
    · exact ih _
    · exact ih _

/-- A write above the stacks meets no error where no granule is bad. -/
theorem State.writeErr_clean {s : State} {a n : Nat} (hb : s.bad = []) (h : 0x8000000000 ≤ a) : s.writeErr MemFaults.none a n = none := by
  simp [State.writeErr, State.badIn, hb, MemFaults.none, leastOf, State.fencedIn_above h]

/-- The writes of an instruction meet no error where no granule is bad. -/
theorem State.writeFail_clean {s : State} {t : Nat} (hb : s.bad = []) (x : VStream) (n : Nat) : s.writeFail MemFaults.none t x n = (none, s) := by
  have : ((List.range n).findSome? fun e =>
      (x.spans n e).findSome? fun r => if (s.writeErr MemFaults.none (x.key t r.1) r.2).isSome then some (e, x.key t r.1, r.2) else none) = none := by
    rw [List.findSome?_eq_none_iff]
    intro e _
    rw [List.findSome?_eq_none_iff]
    intro r _
    simp [State.writeErr_clean hb (show 0x8000000000 ≤ _ from le_trans (by decide) (VStream.key_ge ..))]
  simp [State.writeFail, this]

/-- A vector instruction that passes its checks does its own work, with its entry in progress. -/
theorem State.takeVe_starts {s s' : State} {t o alt k : Nat} {pos e j} (h : StartsVector s t o alt k pos e j s') (nsrc : Nat → Nat) (hk : nsrc j.fn = k)
   (checks run) (hc : Passes (checks s' (s'.partOf t e) j)) : s.takeVe t MemFaults.none o alt nsrc pos checks run = run (s'.activate t 4 e) e j := by
  obtain ⟨h1,h2,h3,h4,h5,h6,h7,h8,h9⟩ := h
  have hw : ∃ rest, (s.queue t 4).waiting = e :: rest ∧ opc e.word = o := by
    unfold Takes State.popHead at h1
    split at h1
    · rename_i e' rest he
      split at h1
      · rename_i hh; simp at h1 hh; refine ⟨rest, ?_, ?_⟩ <;> simp_all
      · cases h1
    · cases h1
  obtain ⟨rest, hw, ho⟩ := hw
  have hf : j.fn = (fmtV e.word).fn := by rw [h9]
  have hd : ∀ d, 0x8000000000 ≤ spmBase t + d := by intro d; unfold spmBase; omega
  unfold State.takeVe
  rw [hw]
  simp only [ho, h2, decide_true, Bool.true_or, Bool.and_self, if_true]
  rw [show s.popHead t 4 (· == o) = _ from h1]
  simp only [h4, h5, ne_eq, not_true, decide_false, Bool.not_true, Bool.false_or, Bool.false_eq_true, if_false]
  rw [State.readSlots_clean h8 (hd _)]
  rw [← hf, hk]
  simp only []
  generalize hA : ((0 :: (List.range k).map (· + 1) ++ (if pos then [3] else [])).map fun i => VStream.mk ((chunksOf 8 4 (s'.peek (spmBase t + ((fmtV e.word).desc + gaddr e.g (fmtV e.word).rds) + 32 * i) 32)).map (BitVec.ofNat 64))) = A
  have a0 : A.getD 0 ⟨[]⟩ = j.dst := by rw [h9, ← hA]; simp
  have a1 : (A.drop 1).take k = j.srcs := by
    rw [h9, ← hA]; simp
  have a2 : (if pos then A.getD (k+1) ⟨[]⟩ else ⟨[]⟩) = j.pos := by
    rw [h9, ← hA]; cases pos
    · rfl
    · simp
  rw [a0, a1, a2]
  rw [if_neg (Nat.not_lt.2 h6)]
  rw [show ({ n := (if (fmtV e.word).rn = 0 then (fmtV e.word).n else gaddr e.g (fmtV e.word).rn), fn := j.fn, rm := veMode (fmtV e.word).rm, conv := (fmtV e.word).conv, acc := (fmtV e.word).acc == 1, desc := (fmtV e.word).desc + gaddr e.g (fmtV e.word).rds, dst := j.dst, srcs := j.srcs, pos := j.pos } : VJob) = j by rw [h9]]
  rw [(firstCheck_eq_none _).2 (by
    rw [Passes, firstCheck_eq_none] at hc
    intro c hcm
    simp only [List.mem_append, List.mem_cons, List.not_mem_nil, or_false] at hcm
    rcases hcm with (rfl|rfl|rfl|rfl|rfl)|hcm
    · simp [h3]
    · simp
    · simp; simpa using h6
    · simp
    · exact h7
    · exact hc c hcm)]

/-- An element-wise instruction writes its codes and raises their flags. -/
theorem State.veElems_clean {s : State} {t : Nat} {e j counts lanes} (hb : s.bad = []) (hd : j.dst.fmt.isMx = false) (val blocks) :
   s.veElems MemFaults.none t e j counts lanes val blocks = (s.putCodes t j.dst j.n (((List.range j.n).map (val s)).map (·.1))).veFlags t (orFlags ((List.range j.n).map (val s))) := by
  unfold State.veElems
  simp only [State.scanAll_clean hb, State.writeFail_clean hb, earlier, hd]
  simp

/-- A floating or integer format is no MX format. -/
theorem Fmt.isMx_of_plain {f : Fmt} (h : f.isIeee = true ∨ f.isInt = true) : f.isMx = false := by
  revert h; cases f <;> decide

/-- An element-wise instruction that passes its checks writes what its function gives. -/
theorem State.veElem_starts {s s' : State} {t : Nat} {e j} {x : VSpec} (h : StartsVector s t x.op x.alt x.nsrc false e j s') 
  (hf : ((x.flt.isSome && okFloats (j.dst.fmt :: j.srcs.map VStream.fmt)) || (x.int.isSome && okInts (j.dst.fmt :: j.srcs.map VStream.fmt))) = true)
  (hc : Passes (s'.elemChecks t (s'.partOf t e) j (List.replicate x.nsrc j.n))) :
  s.veElem t MemFaults.none x = vectorWrites s' t e j j.n ((List.range j.n).map (fun i => if okInts (j.dst.fmt :: j.srcs.map VStream.fmt) then match x.int with
            | some f =>
              let r := intOut j.dst.fmt (f j (j.srcs.map fun y => s'.streamInt t y j.n i))
              (r.1, if x.bits then FFlags.none else r.2)
            | none => (0, FFlags.none)
          else match x.flt, j.dst.fmt.layout? with
            | some f, some l => f j l (j.srcs.map fun y => s'.streamVal t y j.n i)
            | _, _ => (0, FFlags.none))) := by
  unfold State.veElem
  rw [State.takeVe_starts h _ rfl]
  · have hm : j.dst.fmt.isMx = false := by
      apply Fmt.isMx_of_plain
      simp [okFloats, okInts] at hf
      rcases hf with ⟨_, hf, _⟩ | ⟨_, hf, _⟩ <;> simp [hf]
    simp only []
    rw [State.veElems_clean (by exact h.2.2.2.2.2.2.2.1) hm]
    unfold vectorWrites
    rfl
  · rw [Passes, firstCheck_eq_none] at *
    intro c hcm
    simp only [List.mem_cons] at hcm
    rcases hcm with rfl | hcm
    · rw [failIf_eq_none, hf]; rfl
    · exact hc c hcm

/-- A list of floating formats is no list of integer formats. -/
theorem okInts_of_okFloats {l : List Fmt} (hl : l ≠ []) (h : okFloats l = true) : okInts l = false := by
  cases l with
  | nil => exact absurd rfl hl
  | cons a l => simp [okFloats, okInts] at *; intro ha; exfalso; obtain ⟨h1, _⟩ := h; revert h1 ha; cases a <;> decide

/-- An element-wise instruction on floating formats. -/
theorem State.veElem_floats {s s' : State} {t : Nat} {e j} {x : VSpec} {g} (h : StartsVector s t x.op x.alt x.nsrc false e j s') (hg : x.flt = some g) 
  (hf : okFloats (j.dst.fmt :: j.srcs.map VStream.fmt) = true) {l} (hl : j.dst.fmt.layout? = some l)
  (hc : Passes (s'.elemChecks t (s'.partOf t e) j (List.replicate x.nsrc j.n))) :
  s.veElem t MemFaults.none x = vectorWrites s' t e j j.n ((List.range j.n).map (fun i => g j l (j.srcs.map fun y => s'.streamVal t y j.n i))) := by
  rw [State.veElem_starts h (by simp [hg, hf]) hc]
  simp only [okInts_of_okFloats (by simp) hf, hg, hl]; rfl

/-- An element-wise instruction on integer formats. -/
theorem State.veElem_ints {s s' : State} {t : Nat} {e j} {x : VSpec} {g} (h : StartsVector s t x.op x.alt x.nsrc false e j s') (hg : x.int = some g) 
  (hf : okInts (j.dst.fmt :: j.srcs.map VStream.fmt) = true)
  (hc : Passes (s'.elemChecks t (s'.partOf t e) j (List.replicate x.nsrc j.n))) :
  s.veElem t MemFaults.none x = vectorWrites s' t e j j.n ((List.range j.n).map (fun i => ((intOut j.dst.fmt (g j (j.srcs.map fun y => s'.streamInt t y j.n i))).1, if x.bits then FFlags.none else (intOut j.dst.fmt (g j (j.srcs.map fun y => s'.streamInt t y j.n i))).2 ))) := by
  rw [State.veElem_starts h (by simp [hg, hf]) hc]
  simp only [hf, hg]; rfl

/-- The number of sources. -/
theorem srcs_length_of_starts {s s' : State} {t o alt k : Nat} {pos e j} (h : StartsVector s t o alt k pos e j s') : j.srcs.length = k := by
  rw [h.2.2.2.2.2.2.2.2]; simp

/-- Two sources by number. -/
theorem VJob.srcs_two {j : VJob} (h : j.srcs.length = 2) : j.srcs = [j.src 0, j.src 1] := by
  match hj : j.srcs, h with
  | [a, b], _ => simp [VJob.src, hj]

/-- Three sources by number. -/
theorem VJob.srcs_three {j : VJob} (h : j.srcs.length = 3) : j.srcs = [j.src 0, j.src 1, j.src 2] := by
  match hj : j.srcs, h with
  | [a, b, c], _ => simp [VJob.src, hj]

/-- One source by number. -/
theorem VJob.srcs_one {j : VJob} (h : j.srcs.length = 1) : j.srcs = [j.src 0] := by
  match hj : j.srcs, h with
  | [a], _ => simp [VJob.src, hj]

/-- A shift that passes its checks writes what its function gives. -/
theorem State.veShift_starts {s s' : State} {t : Nat} {e j o} (h : StartsVector s t o 0 2 false e j s') (hf : ∀ f ∈ j.dst.fmt :: j.srcs.map VStream.fmt, f = .int32)
  (hc : Passes (s'.elemChecks t (s'.partOf t e) j (List.replicate 2 j.n))) (f : Int → Nat → Int) :
  (Host.Outcome.next (s.veShift t MemFaults.none o f) : Out) = .next (vectorWrites s' t e j j.n ((List.range j.n).map fun x => (ofSigned 32 (f (s'.streamInt t (j.src 0) j.n x) (s'.streamCode t (j.src 1) j.n x % 32)), FFlags.none))) := by
  unfold State.veShift
  rw [State.takeVe_starts h _ rfl]
  · rw [State.veElems_clean (by exact h.2.2.2.2.2.2.2.1) (by rw [hf j.dst.fmt (by simp)]; rfl)]
    rfl
  · rw [Passes, firstCheck_eq_none] at *
    intro c hcm
    simp only [List.mem_cons] at hcm
    rcases hcm with rfl|hcm
    · simp only [failIf_eq_none, Bool.not_eq_false', List.all_eq_true]
      intro x hx; rw [hf x hx]; rfl
    · exact hc c hcm

end Sys2Proof.Machine
end

