-- ==== Sys2Proof/Laws/ViewAccess.lean ====
section
/-!
SUPPORT. What the operations of Machine/ViewAccess.lean keep (Laws/Kept.lean).
-/
namespace Sys2Proof.Machine

open Sys2Proof

theorem State.viewWriteRow_kept {s₀ : State} {s : State} (t : Nat) (p : Nat) (v : Nat) (off : Nat) (data : List Byte) (mf : MemFaults) (hs : Kept s₀ s) :
    Kept s₀ (State.viewWriteRow s t p v off data mf) := by
  unfold State.viewWriteRow
  repeat' first
    | with_reducible assumption
    | with_reducible apply State.viewRefused_kept
    | with_reducible apply State.viewWrite_kept
    | extract_lets
    | split

end Sys2Proof.Machine
end

