-- ==== Sys2Proof/WellFormed.lean ====
section
/-!
DEFINITION. Which commands carry operands that their sender can give: the operands whose ranges their types
do not hold already.
-/
namespace Sys2Proof

open Sys2Proof.Machine

/-- The operands lie within what the spec gives their messages: a sample of every rail and of every island (R1073,
R1116), the eight output powers of a laser module (R781, R782), at most 4,096 bytes of a private transfer (R1066), a
fragment of at most 672 bytes and its number below the count (R1031, R1037), a piece of a domain or transport operation
within one 256-byte block (R607, R671), an aligned piece of a counter, a row of a stack (R432), a 64-bit frame number
(R1030). -/
def Instr.wellFormed : Instr → Bool
  | .railSample samples _ => samples.length == 11
  | .thermalSample temps => temps.length == 13
  | .islandSample samples _ => samples.length == 13
  | .laserPoll _ powers _ _ _ => powers.length == 8
  | .i3cPrivateWrite off data => off.val % 4 == 0 && data.length % 4 == 0 && decide (data.length ≤ 4096)
  | .i3cPrivateRead len => decide (len ≤ 4096)
  | .mailbox _ frag frags data => decide (frag < frags) && decide (data.length ≤ 672)
  | .pinnedReturn frag frags data => data == [] || decide (frag < frags) && decide (data.length ≤ 672)
  | .domainStorePiece _ _ _ addr data _ => decide (0 < data.length) && decide (addr % 256 + data.length ≤ 256)
  | .domainLoadRequest _ _ _ addr len _ => decide (0 < len) && decide (addr % 256 + len ≤ 256)
  | .domainAtomicPiece _ _ _ addr _ w64 _ _ _ => addr % (if w64 then 8 else 4) == 0
  | .hbmRowFence _ row => decide (row < 4096 * 16384)
  | .viewRead _ _ _ _ len _ => decide (0 < len)
  | .registerWrite _ addr _ => decide (addr < 2 ^ 48)
  | .beacon frame _ _ _ => decide (frame < 2 ^ 64)
  | _ => true

end Sys2Proof
end

