-- ==== Sys2Proof/Tests/Slice0.lean ====
section
/-!
SUPPORT. The model's own tests: ill-formed commands, states that meet the hypotheses of the statements, and single steps
whose results the spec's own examples or a hand calculation give.
-/
namespace Sys2Proof.Tests

open Sys2Proof Sys2Proof.Machine

/-! ### Ill-formed commands, one for each check -/

theorem test_illformed_railSample : (Instr.railSample [] 0).wellFormed = false := by decide
theorem test_illformed_thermalSample : (Instr.thermalSample [1, 2]).wellFormed = false := by decide
theorem test_illformed_islandSample : (Instr.islandSample [] []).wellFormed = false := by decide
theorem test_illformed_laserPoll : (Instr.laserPoll 0 [] 0 false false).wellFormed = false := by decide
theorem test_illformed_i3cPrivateWrite :
    (Instr.i3cPrivateWrite 2 [0, 0, 0, 0]).wellFormed = false ∧ (Instr.i3cPrivateWrite 4 [0]).wellFormed = false := by decide
theorem test_illformed_i3cPrivateRead : (Instr.i3cPrivateRead 4097).wellFormed = false ∧ (Instr.i3cPrivateRead 4096).wellFormed = true := by decide
theorem test_illformed_mailbox : (Instr.mailbox 0 1 1 []).wellFormed = false ∧ (Instr.mailbox 0 0 1 []).wellFormed = true := by decide
theorem test_illformed_pinnedReturn : (Instr.pinnedReturn 1 1 [0]).wellFormed = false ∧ (Instr.pinnedReturn 1 1 []).wellFormed = true := by decide
theorem test_illformed_domainStorePiece : (Instr.domainStorePiece 0 0 0 255 [0, 0] MemFaults.none).wellFormed = false ∧
    (Instr.domainStorePiece 0 0 0 254 [0, 0] MemFaults.none).wellFormed = true := by decide
theorem test_illformed_domainLoadRequest : (Instr.domainLoadRequest 0 0 0 0 0 MemFaults.none).wellFormed = false := by decide
theorem test_illformed_domainAtomicPiece : (Instr.domainAtomicPiece 0 0 0 4 0 true 0 0 MemFaults.none).wellFormed = false ∧
    (Instr.domainAtomicPiece 0 0 0 4 0 false 0 0 MemFaults.none).wellFormed = true := by decide
theorem test_illformed_hbmRowFence : (Instr.hbmRowFence 0 67108864).wellFormed = false := by decide
theorem test_illformed_viewRead : (Instr.viewRead 0 0 0 0 0 MemFaults.none).wellFormed = false := by decide
theorem test_illformed_registerWrite : (Instr.registerWrite .scarab (2 ^ 48) 0).wellFormed = false := by decide
theorem test_illformed_beacon : (Instr.beacon (2 ^ 64) 0 0 0).wellFormed = false := by decide

/-! ### Reset -/

theorem test_reset_memory_canonical : State.reset.mem.wf = true := by decide
theorem test_reset_step_idles : step State.reset = .next { State.reset with timeNs := 1 } := by rfl
theorem test_reset_takes_front : step { State.reset with pending := [.i3cEnec, .trst] } =
    exec .i3cEnec { State.reset with pending := [.trst] } := by rfl

theorem test_meets_invariants : State.reset.mem.wf = true ∧ (∃ t, step State.reset = .next t) ∧ (∃ t, exec .i3cEnec State.reset = .next t) ∧
    (∀ f l, Instr.i3cEnec ≠ .pwrgdRise f l) := ⟨by decide, ⟨_, rfl⟩, ⟨_, rfl⟩, by intro f l h; cases h⟩

/-! ### States -/

/-- Everything in service: four Tillers, eight stacks, 13 islands and core 0; partition 0, which owns everything, runs. -/
def base : State :=
  { State.reset with
    tiles := (List.range 4).map fun t => (t, { Tile.reset with inService := true, broughtUp := true }),
    hbm := ⟨0, (List.range 8).map fun k => (k, { Stack.reset with st := 1, spprAll := 1, hpprAll := 1 })⟩,
    parts := [(0, { Part.reset with st := .running, arrays := 0xFFFF, job := 1, cores := 2 ^ 64 - 1, cnt := 2 ^ 128 - 1, hbmBase := 0x1000000,
                                    hbmLen := 0x40000000 })],
    power := { Power.reset with powered := true, pwrgd := true, latchClosed := true,
                                islands := (List.range 13).map fun i => (i, { Island.reset with up := true, mhz := 1800 }) },
    start := { Start.reset with stage := 5, begun := true, tillerMhz := 2100 },
    places := { Places.reset with halls := [(1, ⟨1, 0, 0, 0⟩)] },
    cores := { Cores.reset with core := [(0, { Core.reset 0 with st := 0, vxs := 3, csr := [(0x300, 0x6000)] })] } }

def all (l : List Bool) : Bool := l.all id

/-- Context 0 of Tiller 0 runs the word `w` from its scratchpad. -/
def running (w : Nat) (g : Tbl W64 := []) : State :=
  let s := base.modCtx 0 0 fun _ => { Ctx.reset with st := .running, g := g, pc := BitVec.ofNat 64 (spmBase 0), prog := spmBase 0 }
  { s with mem := Memory.writeNat [] (spmBase 0) 16 w }

/-- Context 0 issues the word, and the state after its fetch has the property. -/
def issues (w : Nat) (g : Tbl W64) (p : W128 → State → Bool) : Bool :=
  let r := (running w g).fetch MemFaults.none 0 0
  (running w g).canIssue 0 0 && (match r.1 with
    | .ok v => v == BitVec.ofNat 128 w && p v r.2
    | .error _ => false)

/-- What `issues` answers is the hypothesis of the sequencer's statements. -/
theorem issues_Issues {w : Nat} {g : Tbl W64} {p : W128 → State → Bool} (h : issues w g p = true) :
    ∃ s', Issues (running w g) MemFaults.none 0 0 (BitVec.ofNat 128 w) s' ∧ p (BitVec.ofNat 128 w) s' = true := by
  unfold issues at h
  simp only [Bool.and_eq_true] at h
  obtain ⟨h1, h2⟩ := h
  rcases hf : (running w g).fetch MemFaults.none 0 0 with ⟨r, s'⟩
  rw [hf] at h2
  cases r with
  | error e => cases h2
  | ok v =>
    simp only [Bool.and_eq_true, beq_iff_eq] at h2
    obtain ⟨rfl, h3⟩ := h2
    exact ⟨s', ⟨h1, hf⟩, h3⟩

/-- A word of format C. -/
def wordC (op rd rs1 rs2 fn imm : Nat) : Nat := op + rd * 2 ^ 8 + rs1 * 2 ^ 13 + rs2 * 2 ^ 18 + fn * 2 ^ 23 + imm * 2 ^ 64

def clean (w : W128) : Bool := (fmtC w).rsvd == 0
def jumps (w : W128) (s : State) (a : W64) : Bool := clean w && s.inProgRange 0 (s.ctx 0 0).partition a.toNat 16 && a.toNat % 16 == 0

theorem test_meets_ControlInstructions : all
    [issues 0x00 [] fun w _ => opc w == 0 && fld w 127 8 == 0, issues 0x0A [] fun w _ => opc w == 0x0A && fld w 127 8 == 0,
     issues (wordC 2 1 0 0 0 (2 ^ 64 - 1)) [] fun w _ => opc w == 2 && clean w && (fmtC w).fn == 0 && (fmtC w).rs1 == 0 && (fmtC w).rs2 == 0,
     issues (wordC 3 1 2 3 0 0) [(2, 5), (3, 7)] fun w s => let f := fmtC w
       opc w == 3 && clean w && f.imm == 0 && (aluFn f.fn (greg (s.ctx 0 0).g f.rs1) (greg (s.ctx 0 0).g f.rs2)).isSome,
     issues (wordC 4 1 2 0 0 9) [(2, 5)] fun w s => let f := fmtC w
       opc w == 4 && clean w && f.rs2 == 0 && (aluFn f.fn (greg (s.ctx 0 0).g f.rs1) f.imm).isSome,
     issues (wordC 7 0 2 3 0 1) [] fun w s => let f := fmtC w
       opc w == 7 && f.rd == 0 && brFn f.fn (greg (s.ctx 0 0).g f.rs1) (greg (s.ctx 0 0).g f.rs2) == some true && jumps w s ((s.ctx 0 0).pc + f.imm * 16),
     issues (wordC 8 1 0 0 0 1) [] fun w s => let f := fmtC w
       opc w == 8 && f.fn == 0 && f.rs1 == 0 && f.rs2 == 0 && jumps w s ((s.ctx 0 0).pc + f.imm * 16),
     issues (wordC 9 1 2 0 0 16) [(2, BitVec.ofNat 64 (spmBase 0))] fun w s => let f := fmtC w
       opc w == 9 && f.fn == 0 && f.rs2 == 0 && jumps w s (greg (s.ctx 0 0).g f.rs1 + f.imm)] = true := by decide

theorem test_meets_EndInstructions : all
    [issues (wordC 1 0 0 0 0 0) [] fun w _ => let f := fmtC w
       opc w == 1 && clean w && f.imm == 0 && f.rd == 0 && f.rs2 == 0 && f.fn == 0 && f.rs1 == 0,
     issues (wordC 1 0 2 0 1 0) [] fun w _ => let f := fmtC w
       opc w == 1 && clean w && f.imm == 0 && f.rd == 0 && f.rs2 == 0 && f.fn == 1] = true := by decide

/-- The last double word of the scratchpad, and its first byte. -/
theorem test_meets_ScratchpadAccess : all
    [issues (wordC 5 1 2 0 3 0) [(2, BitVec.ofNat 64 (base.spmBytes 0 - 8))] fun w s => let f := fmtC w
       let off := (greg (s.ctx 0 0).g f.rs1 + f.imm).toNat
       opc w == 5 && clean w && f.rs2 == 0 && f.fn == 3 && off % 8 == 0 && off + 8 == s.spmBytes 0 && s.bad == [],
     issues (wordC 6 0 0 2 0 0) [(2, 5)] fun w s => let f := fmtC w
       opc w == 6 && clean w && f.rd == 0 && f.fn == 0 && decide (1 ≤ s.spmBytes 0) && s.bad == []] = true := by decide

theorem test_meets_CsrrReads : ((List.range 8).all fun fn => issues (wordC 11 1 0 0 fn 0) [] fun w _ => let f := fmtC w
    opc w == 11 && clean w && f.imm == 0 && f.rs2 == 0 && f.rs1 == 0 && f.fn == fn) = true := by decide

def plainS (w : W128) : Bool := (fmtS w).rsvd == 0 && (fmtS w).fn == 0 && (fmtS w).rs3 == 0
def ownS (w : W128) (s : State) : Bool := s.ownsCtr (s.ctx 0 0).partition ((fmtS w).ctr + (greg (s.ctx 0 0).g (fmtS w).rs1).toNat) && !(s.hcStopped 0)

/-- The base state with the memory island of Tiller 0 stopped. -/
def hcGone : State := base.modIsland 4 fun x => { x with up := false }

/-- The counter's number is in register 1, at the last number. -/
theorem test_meets_CounterInstructions : ([0x12, 0x13, 0x14, 0x15].all fun op =>
    issues (wordC op 0 0 0 0 0) [] fun w s => let f := fmtS w
      opc w == op && plainS w && f.queue == 0 && f.tout == 0 && f.rs2 == 0 && ownS w s) = true ∧
    base.ownsCtr 0 131071 = true ∧ base.hcStopped 3 = false ∧ hcGone.hcStopped 0 = true ∧ hcGone.ownsCtr 0 32767 = true := by decide

theorem test_meets_WaitsAndFences : all
    [issues 0x16 [] fun w s => opc w == 0x16 && plainS w && (fmtS w).queue == 0 && ownS w s,
     issues 0x10 [] fun w _ => let f := fmtS w
       opc w == 0x10 && plainS w && f.queue == 0 && f.tout == 0 && f.ctr == 0 && f.rs1 == 0 && f.rs2 == 0 && f.rd == 0,
     issues (0x10 + 2 ^ 80) [] fun w _ => opc w == 0x10 && (fmtS w).rsvd == 0 && (fmtS w).fn == 1 && (fmtS w).tout == 0] = true := by decide

theorem test_meets_EngineEntriesAreQueued : all
    [issues 0x60 [] fun w s => queueOf w == some 4 && decide ((s.queue 0 4).waiting.length < queueDepth 4),
     issues 0x11 [] fun w s => opc w == 0x11 && plainS w && (fmtS w).rd == 0 && (fmtS w).queue == 0 && ownS w s] = true := by decide

theorem test_meets_SequencerStops : all
    [issues 0xFF [] fun w _ => illegalOp w, issues (2 + 2 ^ 28) [] fun w _ => opc w == 2 && !(clean w),
     let s := (running 0).modCtx 0 0 fun x => { x with pc := 0 }
     s.canIssue 0 0 && !(s.inProgRange 0 0 0 16),
     issues (wordC 7 0 2 3 0 (2 ^ 63)) [] fun w s => let f := fmtC w
       opc w == 7 && clean w && f.rd == 0 && brFn f.fn (greg (s.ctx 0 0).g f.rs1) (greg (s.ctx 0 0).g f.rs2) == some true &&
       s.inProgRange 0 0 ((s.ctx 0 0).pc + f.imm * 16).toNat 16,
     issues (wordC 7 0 2 3 0 (2 ^ 40)) [] fun w s => let f := fmtC w
       opc w == 7 && clean w && f.rd == 0 && brFn f.fn (greg (s.ctx 0 0).g f.rs1) (greg (s.ctx 0 0).g f.rs2) == some true &&
       !(s.inProgRange 0 0 ((s.ctx 0 0).pc + f.imm * 16).toNat 16),
     issues (wordC 9 1 2 0 0 8) [(2, BitVec.ofNat 64 (spmBase 0))] fun w s => let f := fmtC w
       opc w == 9 && clean w && f.fn == 0 && f.rs2 == 0 && s.inProgRange 0 0 (greg (s.ctx 0 0).g f.rs1 + f.imm).toNat 16 &&
       (greg (s.ctx 0 0).g f.rs1 + f.imm).toNat % 16 == 8] = true := by decide

/-! ### Contexts, rings and copies -/

def ctx0 (f : Ctx → Ctx) : State := base.modCtx 0 0 fun _ => f { Ctx.reset with st := .running }

/-- Entry 0 of context 0 with the word `w`. -/
def entry (w : Nat) (g : Tbl W64 := []) : QEntry := ⟨0, 0, 0, BitVec.ofNat 128 w, g, false⟩

/-- Entry 0 heads the queue of code q of Tiller 0. -/
def queued (q w : Nat) (g : Tbl W64 := []) : State := base.modQueue 0 q fun x => { x with waiting := [entry w g] }

theorem test_meets_ContextEvents : all
    [let s := ctx0 fun x => { x with issued := 4096 }
     decide (4096 ≤ (s.ctx 0 0).issued),
     let s := ctx0 fun x => { x with wait := .counter 0 0 1 true none }
     decide ((s.ctx 0 0).wait = .counter 0 0 1 true none ∧ (0 : W64) ≤ s.ctr 0),
     let s := ctx0 fun x => { x with wait := .fence [7] }
     s.fenceIds 0 0 (fun _ => true) == [],
     let s := ctx0 fun x => { x with wait := .queue 4 }
     decide ((s.queue 0 4).waiting.length < queueDepth 4),
     let s := ctx0 fun x => { x with wait := .slot }
     decide ((s.ctx 0 0).wait = .slot) && !(s.slotHeld 0 0 0 0),
     let s := queued 0 0x11
     decide (condThr (entry 0x11) ≤ s.ctr (condCtr (entry 0x11))),
     let e := entry (0x11 + 2 ^ 18 + 2 ^ 64) [(1, 9)]
     decide ((queued 0 e.word.toNat e.g).ctr (condCtr e) < condThr e ∧ condTout e ≠ 0),
     let s := ctx0 fun x => { x with timeoutMs := 1 }
     decide ((s.ctx 0 0).timeoutMs ≠ 0 ∧ (s.ctx 0 0).fault = none)] = true := by decide

/-- A ring with one entry at 0x2000000. -/
def rung (flags : Nat) : State :=
  let s := base.modRing 0 0 fun x => { x with enable := true, base := 0x2000000, tail := 1 }
  { s with mem := Memory.writeNat [] 0x2000000 8 flags }

theorem test_meets_EntriesStartAndEnd : all
    [((rung 0).pickRing 0).isSome && (rung 0).startKind 0 0 == .start,
     let s := ctx0 fun x => { x with st := .ending, ended := some 0 }
     s.outstanding 0 0 == 0 && decide ((s.ctx 0 0).st = .ending)] = true := by decide

/-- The entry at the head of a queue with opcode `op`, and the state without it, have a property. -/
def takes (s : State) (q op : Nat) (p : QEntry → State → Bool) : Bool :=
  match s.popHead 0 q (· == op) with
  | some (e, s1) => p e s1
  | none => false

/-- A copy with its addresses in registers 1 to 5, of `rows` rows of `len` bytes. -/
def wordK (op ra rb rc rd re len rows : Nat) : Nat :=
  op + ra * 2 ^ 11 + rb * 2 ^ 16 + rc * 2 ^ 21 + rd * 2 ^ 26 + re * 2 ^ 31 + len * 2 ^ 36 + rows * 2 ^ 68

def copyRegs : Tbl W64 := [(1, BitVec.ofNat 64 (spmBase 0)), (2, BitVec.ofNat 64 (spmBase 0 + 4096)), (3, 64), (4, 64), (5, 8192)]

/-- The last state is one whose first index is 0xFFFF_FFFF and whose second is 1. -/
theorem test_meets_LocalCopies : all
    [takes (queued 8 (wordK 0x20 1 2 3 4 0 64 2) copyRegs) 8 0x20 fun e s => let k := fmtK e.word
       let rows := (List.range k.rows).map fun r => CopyRow.mk (some (rowAddr (gaddr e.g k.ra) (gstride e.g k.rc) r)) (rowAddr (gaddr e.g k.rb) (gstride e.g k.rd) r)
       k.rsvd == 0 && k.re == 0 && (firstCheck (s.copyChecks 0 0 rows k.len ++ [s.incCheck 0 k.ctr k.ri])).isNone &&
       (s.copyRows MemFaults.none 0 0 k.len (fillBytes 0 k.len) rows 0).1.isNone,
     takes (queued 8 (wordK 0x21 0 2 3 4 0 64 2) copyRegs) 8 0x21 fun e s => let k := fmtK e.word
       let rows := (List.range k.rows).map fun r => CopyRow.mk none (rowAddr (gaddr e.g k.rb) (gstride e.g k.rd) r)
       k.rsvd == 0 && k.re == 0 && k.ra == 0 && (firstCheck (s.copyChecks 0 0 rows k.len ++ [s.incCheck 0 k.ctr k.ri])).isNone &&
       (s.copyRows MemFaults.none 0 0 k.len (fillBytes (greg e.g k.rc) k.len) rows 0).1.isNone,
     takes ({ queued 8 (wordK 0x22 1 2 3 4 5 64 2) copyRegs with mem := Memory.writeNat [] (spmBase 0 + 8192) 8 0x1FFFFFFFF }) 8 0x22 fun e s =>
       let k := fmtK e.word
       let r := s.readIndices MemFaults.none 0 (gaddr e.g k.re) 0 k.rows
       let ix := [0xFFFFFFFF, 1]
       let rows := ix.zipIdx.map fun x => CopyRow.mk (if x.1 = 0xFFFFFFFF then none else some (rowAddr (gaddr e.g k.ra) (gstride e.g k.rc) x.1))
         (rowAddr (gaddr e.g k.rb) (gstride e.g k.rd) x.2)
       k.rsvd == 0 && s.spmRangeOk 0 (gaddr e.g k.re) (4 * k.rows) && r.1.map Except.toOption == ix.map some &&
       (firstCheck (r.2.copyChecks 0 0 rows k.len ++ [r.2.incCheck 0 k.ctr k.ri])).isNone &&
       (r.2.copyRows MemFaults.none 0 0 k.len (fillBytes 0 k.len) rows 0).1.isNone,
     let s := base.modQueue 0 8 fun x => { x with active := [entry (wordK 0x20 1 2 3 4 0 64 2) copyRegs] }
     (s.queue 0 8).active.any fun e => opc e.word / 16 == 2] = true := by decide

/-- An atomic of 8 bytes at 248 is one piece, and a range across 256 is two. -/
theorem test_meets_PiecesCoverTheRange : splitPieces 248 8 = [(0, 8)] ∧ splitPieces 252 8 = [(0, 4), (4, 4)] ∧ splitPieces 256 0 = [] := by decide

/-! ### Domain and transport -/

/-- A remote entry with its local address in register 1, its remote address in register 2 and an offset in register 3. -/
def wordR (op len : Nat) (rc : Nat := 0) : Nat := op + 1 * 2 ^ 11 + 2 * 2 ^ 16 + rc * 2 ^ 21 + len * 2 ^ 31

/-- Slot 1 of the domain can be reached over every plane, and its member's entry 0 lets job 1 do everything. -/
def domain : State :=
  { base with
    places := { Places.reset with valid := true, place := 0 },
    net := { Net.reset with slots := [(1, ⟨1, 1, 0xFFFF, 1, 0xFFFF⟩)], cached := [(1, [⟨true, 0, 1, 7, 0, 0x40000000, 0, 128⟩])] },
    optics := { base.optics with ports := (List.range 16).map fun k => (k, { Port.reset with st := stActive, credit0 := 100, credit1 := 100 }) } }

def apertureOf (slot off : Nat) : Nat := 0x400000000000 + slot * 2 ^ 39 + off

/-- The domain state with an entry at copy queue 0. -/
def remote (s : State) (w : Nat) (g : Tbl W64) : State := s.modQueue 0 8 fun x => { x with waiting := [entry w g] }

def takesRemote (s : State) (op : Nat) (p : QEntry → State → Bool) : Bool :=
  match s.popRemote 0 0 (· == op) with
  | some (e, s1) => p e s1
  | none => false

/-- The last byte that the entry of slot 1 opens, and for the atomic its last aligned word. -/
theorem test_meets_DomainOperationsIssue : all (
    [(0x30, rightW, false), (0x31, rightW, false), (0x32, rightR, true)].map (fun x =>
      takesRemote (remote domain (wordR x.1 8) [(1, BitVec.ofNat 64 (spmBase 0)), (2, BitVec.ofNat 64 (apertureOf 1 0x3FFFFFF8))]) x.1 fun e s => let f := fmtR e.word
        let a := gaddr e.g f.rb
        f.rsvd == 0 && f.w64 == 0 && f.atop == 0 && f.rc == 0 && f.rd == 0 && f.rri == 0 && f.len == 8 && s.replicasAt 0 a 8 == [] &&
        (firstCheck ([s.localCheck 0 0 x.2.2 (gaddr e.g f.ra) 8, apertureCheck a 8, s.incCheck 0 f.ctr f.ri] ++ s.domainChecks 0 x.2.1 a 8 none)).isNone &&
        (s.localRead MemFaults.none 0 0 (gaddr e.g f.ra) 8).1.isNone) ++
    [takesRemote (remote domain (wordR 0x33 0 + 9 * 2 ^ 107 + 2 ^ 111) [(1, BitVec.ofNat 64 (spmBase 0)), (2, BitVec.ofNat 64 (apertureOf 1 0x3FFFFFF8))]) 0x33 fun e s =>
       let f := fmtR e.word
       let a := gaddr e.g f.rb
       f.rsvd == 0 && f.rri == 0 && f.len == 0 && f.atop == 9 && f.w64 == 1 && a % 8 == 0 &&
       (firstCheck ([s.localCheck 0 0 true (gaddr e.g f.ra) 8, apertureCheck a 8, s.incCheck 0 f.ctr f.ri] ++ s.domainChecks 0 rightA a 8 none)).isNone]) =
    true := by decide

/-- Connection 3 of partition 0 to place 40000 is open; its cache holds window 5 where `cached`. -/
def connected (cached : Bool) : State :=
  { base with net := { Net.reset with conns := [(3, { Conn.reset with st := 1, place := 40000, cache :=
    if cached then [(5, ⟨true, false, 0, 1, 7, 0, 4096, 0, 128, 0⟩)] else [] })] } }

/-- The last 8 bytes of the window. -/
theorem test_meets_TransportOperationsIssue : all (
    [(0x34, rightP, false, true), (0x34, rightP, false, false), (0x35, rightG, true, true), (0x35, rightG, true, false)].map (fun x =>
      takesRemote (remote (connected x.2.2.2) (wordR x.1 8 3) [(1, BitVec.ofNat 64 (spmBase 0)), (2, BitVec.ofNat 64 (40000 * 2 ^ 32 + 5)), (3, 4088)]) x.1 fun e s =>
        let f := fmtR e.word
        let pw := gaddr e.g f.rb
        s.connTo 0 (placeOf pw) == some 3 && s.connVersion (placeOf pw) == 2 && f.rsvd == 0 && f.w64 == 0 && f.atop == 0 && f.rd == 0 && f.rri == 0 &&
        !(placeRsvd pw) && (firstCheck [s.localCheck 0 0 x.2.2.1 (gaddr e.g f.ra) f.len, s.incCheck 0 f.ctr f.ri]).isNone &&
        (match s.cachedWindow 3 (placeOf pw) (windowOf pw) with
         | some w => x.2.2.2 && (w.check (s.jobOf 0) none x.2.1 (gaddr e.g f.rc) f.len).isNone && (f.add e).isNone
         | none => !x.2.2.2) &&
        (s.localRead MemFaults.none 0 0 (gaddr e.g f.ra) f.len).1.isNone) ++
    [takesRemote (remote (connected false) (0x36 + 2 * 2 ^ 16) [(2, BitVec.ofNat 64 (40000 * 2 ^ 32))]) 0x36 fun e s => let f := fmtR e.word
       let pw := gaddr e.g f.rb
       f.ra == 0 && f.rc == 0 && f.len == 0 && windowOf pw == 0 && !s.places.valid && s.connTo 0 (placeOf pw) == some 3 &&
       (firstCheck [s.incCheck 0 f.ctr f.ri]).isNone]) = true := by decide

/-- An operation of copy queue 0 of Tiller 0, its one piece in a given state. -/
def anOp (k : RKind) (p : PieceState) : RemOp :=
  ⟨4, k, .queue 0 0 0, 0, 1, if k = .put ∨ k = .get then 3 else 65536, 0, apertureOf 1 0, 8, 0, [], 0, false, 0, [⟨0, 8, 0, p, 9⟩], none, .done, 0, [],
    false, 0, false⟩

theorem test_meets_DomainOperationEvents : all
    [(anOp .store .done).good && decide ((anOp .store .done).src = .queue 0 0 0), !(anOp .flagged .held).broken && (anOp .flagged .held).after == [],
     { anOp .flagged .held with broken := true }.broken, (anOp .store .sent).domain && (anOp .store .sent).isSent 0,
     (anOp .load .sent).domain && (anOp .load .sent).isSent 0, (anOp .atomic .sent).domain && (anOp .atomic .sent).isSent 0,
     { anOp .store .done with addTo := some (5, 1), addSt := .sent }.isSent 1,
     let o := { anOp .store .done with addTo := some (5, 1), addSt := .held }
     domain.ownSlot != some (apSlot o.addr) && (planeOf (domain.slot (apSlot o.addr)).mask o.addr).any fun h => (domain.portOfPlane h).isSome,
     ({ domain with net := { domain.net with ops := [anOp .store .done] } }.op 4).isSome] = true := by decide

/-- The last granule of entry 0 of job 1. -/
def target : State := { base with net := { Net.reset with exports := [(0, ⟨true, 0, 1, 7, 0x1000000, 0x200000, 1024, 1⟩)] } }

theorem test_meets_DomainTarget : all
    [(target.grantFor 1 rightW 0x11FFFF8 8).isSome && target.hbmOk 0x11FFFF8 8 && (target.writeErr MemFaults.none 0x11FFFF8 8).isNone,
     (target.grantFor 1 rightR 0x11FFFF8 8).isSome && target.badIn 0x11FFFF8 8 == [] && target.fencedIn 0x11FFFF8 8 == [],
     (target.grantFor 1 rightA 0x11FFFF8 8).isSome, (target.exportsOf 1).any (fun e => e.opens 2047) && !(target.hcStopped 0), (target.modIsland 4 fun x => { x with up := false }).hcStopped (2047 / 32768), !((target.exportsOf 1).any fun e => e.opens 2048),
     (target.grantFor 1 rightW 0x11FFFFC 8).isNone, (target.grantFor 2 rightR 0x1000000 8).isNone && (target.grantFor 1 rightA 0xFFFFFF 1).isNone,
     let s := { target with hbm := ⟨0, []⟩ }
     (s.grantFor 1 rightW 0x1000000 8).isSome && !(s.hbmOk 0x1000000 8)] = true := by decide

/-- A receiver that expects packet 9, with window 5 of 4096 bytes of partition 0. -/
def receiver : State :=
  { base with net := { Net.reset with conns := [(3, { Conn.reset with st := 1, rxPsn := 9 })],
                                      windows := [(5, ⟨true, false, 0, 1, 7, 0x1000000, 4096, 0, 128, 2⟩)] } }

theorem test_meets_TransportReceiver : all
    [(receiver.conn 3).st == 1, psnFate 9 9 == .accept, psnFate 9 10 == .ahead, psnFate 9 8 == .duplicate, (receiver.conn 3).results == [],
     (receiver.targetPut MemFaults.none 1 5 (some 2) 4088 [1, 2, 3, 4, 5, 6, 7, 8]).1.isNone, (receiver.targetPut MemFaults.none 1 5 (some 2) 4089 [1, 2, 3, 4, 5, 6, 7, 8]).1.isSome,
     (receiver.targetGet MemFaults.none 1 5 (some 2) 4088 8).1.toOption.isSome, (receiver.targetWinAdd 1 none 5 1).1.isNone || (receiver.targetWinAdd 1 (some 5) 5 1).1.isNone,
     (receiver.queue 0 8).waiting == []] = true := by decide

def transmitter : State :=
  { receiver with net := { receiver.net with conns := [(3, { Conn.reset with st := 1, unacked := [⟨7, 4, 0⟩] })], ops := [anOp .get .sent] } }

theorem test_meets_TransportTransmitter : all
    [(transmitter.op 4).any fun o => !o.domain && decide (o.kind = .get) && o.isSent 0, ((transmitter.conn 3).unacked.findIdx? fun k => k.psn == 7).isSome,
     (transmitter.conn 3).unacked != [], ((transmitter.conn 3).unacked.find? fun k => k.psn == 7).any fun k => decide (k.part < 2 ^ 32),
     (receiver.conn 3).st == 1 && !(receiver.conn 3).closing && receiver.net.ops == [] && receiver.sunas.mboxes == []] = true := by decide

/-! ### Arrays -/

/-- A word of format M: `ra`, the format, rows and columns, and the fields above them. -/
def wordM (op fmt m nc : Nat) (ra : Nat := 0) (more : Nat := 0) : Nat := op + ra * 2 ^ 10 + fmt * 2 ^ 30 + m * 2 ^ 34 + nc * 2 ^ 45 + more

/-- Array 0 of Tiller 0 starts an operation, and the entry and the state without it have a property. -/
def startsArr (s : State) (op : Nat) (rsvd : FmtM → Bool) (p : FmtM → QEntry → State → Bool) : Bool :=
  !((s.arr 0 0).repairing) && takes s 0 op fun e u => let m := fmtM e.word
    !((u.arr 0 0).retired) && m.rsvd == 0 && !(rsvd m) && bitN (u.part (u.partOf 0 e)).arrays 0 && (u.incCheck (u.partOf 0 e) m.ctr m.ri).isNone && p m e u

def passes (cs : List Check) : Bool := (firstCheck cs).isNone

def spmAt (n : Nat) : W64 := BitVec.ofNat 64 n

/-- The array's prologue A or B is `d`. -/
def withDesc (s : State) (d : List W64) : State := s.modArr 0 0 fun x => { x with prologueA := d, prologueB := d }

/-- One row of one column, and a transposed operand. -/
theorem test_meets_TileLoads : all ([zeroWords8, [BitVec.ofNat 64 (2 ^ 2)]].map fun d =>
    startsArr (withDesc (queued 0 (wordM 0x40 1 1 1)) d) 0x40 mldbRsvd fun m e s =>
      let f := (Fmt.ofCode m.fmt).getD .fp32
      let o := sourceOf (s.arr 0 0).prologueB f e
      decide (0 < m.m ∧ m.m ≤ f.kPass.getD 512 ∧ 0 < m.nc ∧ m.nc ≤ 512) &&
      (if pMode o.d = 1 then passes ([o.alignCheck, s.viewFmtCheck o] ++ s.transChecks 0 0 o m.m m.nc)
       else let r := s.readIdx MemFaults.none 0 o.d 0 m.nc
            passes ([o.alignCheck, s.viewFmtCheck o] ++ r.2.1 ++ r.2.2.rowChecks 0 0 o m.m r.1) &&
            (State.fetchAll (fun s i => s.fetchRow MemFaults.none 0 0 o m.m (r.1.getD i none)) m.nc 0 (r.2.2.activate 0 0 e)).1.toOption.isSome)) = true := by
  decide

/-- One pass without a tile (the zero tile of reset) with ACC and SWAP. -/
theorem test_meets_MatrixMultiply :
    startsArr (queued 0 (wordM 0x41 1 1 0 0 (2 ^ 69 + 2 ^ 70))) 0x41 mmulRsvd (fun m e s =>
      let f := (Fmt.ofCode m.fmt).getD .fp32
      let o := sourceOf (s.arr 0 0).prologueA f e
      let b := (s.arr 0 0).standby
      let r := s.readIdx MemFaults.none 0 o.d (m.bank * 1024 + m.rowb) m.m
      m.acc == 1 && m.swap == 1 && decide (0 < m.m ∧ m.m ≤ 1024 ∧ m.rowb + m.m ≤ 1024) && pMode o.d != 1 && (mmulStart b f).isNone &&
      passes ([o.alignCheck, s.viewFmtCheck o] ++ r.2.1 ++ (if b.kTile = 0 then [] else r.2.2.rowChecks 0 0 o b.kTile r.1)) &&
      (r.2.2.fetchA MemFaults.none 0 ⟨e, 0, o, r.1⟩ b.kTile 0).1.toOption.isSome && (r.2.2.acmRead MemFaults.none (acmWord 0 0 0 0 0) 4 b.nc).1.isSome) =
    true := by decide

/-- One row of each, at the last row of its bank for MACM. -/
theorem test_meets_RowOperations : all
    [startsArr (queued 0 (wordM 0x42 1 1 0 0 (1023 * 2 ^ 59))) 0x42 macmRsvd fun m _ s =>
       m.m == 1 && m.rowb + m.m == 1024 && bitN (s.part 0).arrays m.srcArr && (s.acmRead MemFaults.none (acmWord 0 m.srcArr m.bank2 m.rowb 0) 4 512).1.isSome,
     startsArr (queued 0 (wordM 0x43 0 1 0 0 (3 * 2 ^ 73 + 2 ^ 71))) 0x43 mfldRsvd fun m _ s =>
       m.m == 1 && m.first == 1 && (s.acmRead MemFaults.none (acmWord 0 0 0 0 0) 4 512).1.isSome,
     startsArr (queued 0 (wordM 0x44 0 1 1 1 (3 * 2 ^ 73)) [(1, 64)]) 0x44 mcmbRsvd fun m e s =>
       m.m == 1 && m.nc == 1 && gaddr e.g m.ra % 2 == 0 && s.spmRangeOk 0 (gaddr e.g m.ra) 2 && s.spmRangeOk 0 (gaddr e.g m.rb) 2 &&
       (s.load MemFaults.none (spmBase 0 + 64) 2).1.toOption.isSome && (s.wideRead MemFaults.none 0 0 0 1).1.isSome,
     startsArr (queued 0 (wordM 0x48 0 1 1)) 0x48 mchnRsvd fun m e s =>
       m.m == 1 && m.nc == 1 && s.spmRangeOk 0 (gaddr e.g m.ra) 16 && (s.readIf MemFaults.none true (spmBase 0 + 8) 4 1).1.toOption.isSome &&
       (s.acmRead MemFaults.none (acmWord 0 0 m.bank2 0 0) 4 1).1.isSome] = true := by decide

/-- MEPI of one FP32 element. -/
theorem test_meets_FusedStages : all
    [startsArr (queued 0 (wordM 0x45 0 0 0)) 0x45 msetRsvd fun m e s => let r := s.readDesc MemFaults.none 0 (gaddr e.g m.ra)
       r.2.1.isEmpty && !(pRsvd r.1) && !(pLeaves r.1) && r.2.2.parts == s.parts,
     startsArr (queued 0 (wordM 0x46 0 0 0)) 0x46 (fun m => msetRsvd m || m.path != 0) fun m e s => let r := s.readDesc MemFaults.none 0 (gaddr e.g m.ra)
       r.2.1.isEmpty && !(eRsvd r.1) && r.2.2.parts == s.parts,
     startsArr ((queued 0 (wordM 0x47 1 1 1)).modArr 0 0 fun x => { x with epilogue := x.epilogue.set 0 1 }) 0x47 mepiRsvd fun m e s =>
       let d := (s.arr 0 0).epilogue
       let o := sourceOf d (outFmt d) e
       let s1 := s.activate 0 0 e
       let r := State.epiRows MemFaults.none 0 0 d m ([], []) 1 0 s1
       passes (s.mepiChecks 0 0 0 m d o) && (s1.readIf MemFaults.none (eScaleMode d == 2) (spmBase 0 + eScaleVec d) 4 m.nc).1.toOption.isSome &&
       !(r.1.isEmpty) && r.2.1.isNone && (r.2.2.rowStateFail MemFaults.none 0 d 1).1.isNone &&
       (State.writeLines MemFaults.none 0 0 d o m.m m.nc (epiLines d m.fmt m.nc r.1) 0 r.2.2).2.1.isNone] = true := by decide

theorem test_meets_ArrayEvents : all
    [let s := queued 0 0x49
     (s.mwaitCheck 0 0 (entry 0x49)).isNone && decide (condThr (entry 0x49) ≤ s.ctr (condCtr (entry 0x49))),
     let e := entry (0x49 + 2 ^ 15 + 2 ^ 104) [(1, 9)]
     opc e.word == 0x49 && ((queued 0 e.word.toNat e.g).mwaitCheck 0 0 e).isNone && decide ((queued 0 e.word.toNat e.g).ctr (condCtr e) < condThr e ∧ condTout e ≠ 0),
     let s := base.modArr 0 0 fun x => { x with repairing := true }
     (s.arr 0 0).repairing && (s.arr 0 0).rerun == none,
     let s := (queued 0 0x42).modArr 0 0 fun x => { x with retired := true }
     takes s 0 0x42 fun _ u => (u.arr 0 0).retired,
     startsArr (queued 0 (wordM 0x40 1 0 1)) 0x40 mldbRsvd fun m _ _ => m.m == 0,
     startsArr (queued 0 (wordM 0x41 1 0 0 0 (2 ^ 70))) 0x41 mmulRsvd fun m _ s => m.m == 0 && m.swap == 1 && (mmulStart (s.arr 0 0).standby .fp32).isNone,
     startsArr (queued 0 (wordM 0x44 0 0 0 0 (3 * 2 ^ 73))) 0x44 mcmbRsvd fun m _ _ => m.m == 0,
     startsArr (queued 0 (wordM 0x48 0 1024 0)) 0x48 mchnRsvd fun m _ _ => m.nc == 0 && m.m == 1024,
     startsArr ((queued 0 (wordM 0x47 1 0 1)).modArr 0 0 fun x => { x with epilogue := x.epilogue.set 0 1 }) 0x47 mepiRsvd fun m e s =>
       let d := (s.arr 0 0).epilogue
       m.m == 0 && passes (s.mepiChecks 0 0 0 m d (sourceOf d (outFmt d) e))] = true := by decide

/-! ### The vector engine -/

/-- Word 0 of a contiguous stream of a format, or of an immediate (kind 2). -/
def stream (fmt kind : Nat) : Nat := kind * 2 ^ 56 + fmt * 2 ^ 52 + 2 ^ 16

/-- An instruction of one element with its descriptor block at 0: the destination at 4096, and sources at 4160, 4224, 4288. -/
def vector (op alt fn dst : Nat) (srcs : List Nat) (n : Nat := 1) : State :=
  let slot := fun (i f base : Nat) (m : Memory) => Memory.writeNat m (spmBase 0 + 32 * i) 32 (stream f 0 + base * 2 ^ 64)
  let mem := (srcs.zipIdx.foldl (fun m x => slot (x.2 + 1) x.1 (4160 + 64 * x.2) m) (slot 0 dst 4096 []))
  { queued 4 (op + n * 2 ^ 40 + fn * 2 ^ 67 + alt * 2 ^ 76) with mem := mem }

/-- The vector engine starts an instruction, and its job and the state have a property. -/
def startsVec (s : State) (op alt k : Nat) (pos : Bool) (p : VJob → State → Bool) : Bool :=
  takes s 4 op fun e u => let v := fmtV e.word
    let n := if v.rn = 0 then v.n else gaddr e.g v.rn
    let desc := v.desc + gaddr e.g v.rds
    let slot := fun (i : Nat) => VStream.mk ((chunksOf 8 4 (u.peek (spmBase 0 + desc + 32 * i) 32)).map (BitVec.ofNat 64))
    let j : VJob := { n := n, fn := v.fn, rm := veMode v.rm, conv := v.conv, acc := v.acc == 1, desc := desc, dst := slot 0,
                      srcs := (List.range k).map fun i => slot (i + 1), pos := if pos then slot 3 else ⟨[]⟩ }
    v.alt == alt && !(veRsvd v op) && desc % 32 == 0 && u.spmRangeOk 0 desc 128 && decide (n ≤ 65535) &&
    (u.incCheck (u.partOf 0 e) v.ctr v.ri).isNone && u.bad == [] && p j u

def elemOk (k : Nat) (j : VJob) (s : State) : Bool := passes (s.elemChecks 0 0 j (List.replicate k j.n))

/-- Each operation on floats and, where it has one, on integers; the shifts and logic on INT32; compares and selects. -/
theorem test_meets_VectorElements : all (
    [(0x60, 2), (0x61, 2), (0x62, 2), (0x63, 3), (0x64, 3), (0x65, 2), (0x66, 1), (0x68, 2), (0x69, 2), (0x6A, 1), (0x6B, 1)].map (fun x =>
      startsVec (vector x.1 0 0 1 [1, 1, 1]) x.1 0 x.2 false fun j s => okFloats (j.dst.fmt :: j.srcs.map VStream.fmt) && elemOk x.2 j s) ++
    [(0x60, 2), (0x61, 2), (0x62, 2), (0x68, 2), (0x69, 2), (0x6A, 1), (0x6B, 1), (0x6E, 2), (0x6F, 2), (0x70, 2), (0x71, 2), (0x72, 2), (0x73, 2)].map (fun x =>
      startsVec (vector x.1 0 0 11 [11, 11]) x.1 0 x.2 false fun j s => (j.dst.fmt :: j.srcs.map VStream.fmt).all (· == .int32) && elemOk x.2 j s) ++
    [startsVec (vector 0x6C 0 7 10 [1, 1]) 0x6C 0 2 false fun j s => j.dst.fmt == .int8 && okFloats (j.srcs.map VStream.fmt) && j.fn == 7 && elemOk 2 j s,
     startsVec (vector 0x6C 0 7 10 [11, 11]) 0x6C 0 2 false fun j s => j.dst.fmt == .int8 && okInts (j.srcs.map VStream.fmt) && elemOk 2 j s,
     startsVec (vector 0x6D 0 0 1 [1, 1, 10]) 0x6D 0 3 false fun j s => (j.src 2).fmt == .int8 && okFloats [j.dst.fmt, (j.src 0).fmt, (j.src 1).fmt] && elemOk 3 j s,
     startsVec (vector 0x6D 0 0 11 [11, 11, 10]) 0x6D 0 3 false fun j s =>
       (j.src 2).fmt == .int8 && okInts [j.dst.fmt, (j.src 0).fmt, (j.src 1).fmt] && j.dst.fmt.layout?.isNone && elemOk 3 j s]) = true := by decide

theorem test_meets_VectorFunctions : all (
    [(0x67, 0), (0x74, 0), (0x74, 1), (0x75, 0), (0x75, 1), (0x76, 0), (0x76, 1), (0x77, 0), (0x77, 1)].map (fun x =>
      startsVec (vector x.1 x.2 0 1 [1]) x.1 x.2 1 false fun j s => okFloats [j.dst.fmt, (j.src 0).fmt] && elemOk 1 j s) ++
    [startsVec (vector 0x78 0 0xB 1 [1]) 0x78 0 1 false fun j s => j.fn == 0xB && [Fmt.fp32, .fp16, .bf16].contains j.dst.fmt &&
       [Fmt.fp32, .fp16, .bf16].contains (j.src 0).fmt && passes (s.elemChecks 0 0 j [j.n, j.n]),
     let s := vector 0x78 0 0xA 1 [1]
     startsVec { s with mem := Memory.writeNat s.mem (spmBase 0 + 64) 32 (stream 0 2 + 0x3F80000000000000 * 2 ^ 128) } 0x78 0 2 false fun j s =>
       let a := fp32.decode ((j.src 1).w 2 % 2 ^ 32)
       let b := fp32.decode ((j.src 1).w 2 / 2 ^ 32)
       j.fn == 0xA && (j.src 1).kind == 2 && (j.src 1).fmt == .fp64 && !a.isNan && !b.isNan && !(FVal.lt b a) && passes (s.elemChecks 0 0 j [j.n, j.n]),
     startsVec (vector 0x79 0 1 1 [1, 1]) 0x79 0 2 false fun j s => j.dst.fmt == veCompute [j.dst.fmt, (j.src 0).fmt, (j.src 1).fmt] && (j.src 1).fmt == j.dst.fmt &&
       j.fn == 1 && passes (s.elemChecks 0 0 j [j.n, j.fn + 1]),
     startsVec (vector 0x80 0 0 2 [1]) 0x80 0 1 false fun j s => (convControl j.dst.fmt j.conv).isSome && !j.dst.fmt.isMx && elemOk 1 j s,
     let s := vector 0x80 0 0 4 [1]
     startsVec { s with mem := Memory.writeNat s.mem (spmBase 0) 32 (stream 4 0 + 4096 * 2 ^ 64 + 8192 * 2 ^ 160) } 0x80 0 1 false fun j s =>
       (convControl j.dst.fmt j.conv).isSome && j.dst.fmt.isMx && elemOk 1 j s]) = true := by decide

def reduceOk (k : Nat) (j : VJob) (s : State) : Bool :=
  let row := (j.src 0).row j.n
  let rows := (j.n + row - 1) / row
  passes (s.streamChecks 0 0 j.dst true rows ++ (j.srcs.flatMap fun y => s.streamChecks 0 0 y false j.n) ++ [overlapCheck [(j.dst, rows)] (j.srcs.map fun y => (y, j.n))]) &&
  j.srcs.length == k && j.srcs.all fun y => y.rowLen == (j.src 0).rowLen

theorem test_meets_VectorReductions : all (
    [(0x7A, 1, 1), (0x7B, 2, 1), (0x7C, 1, 1), (0x7D, 1, 1), (0x7A, 1, 11), (0x7B, 2, 11), (0x7C, 1, 11), (0x7D, 1, 11)].map (fun x =>
      startsVec (vector x.1 0 0 x.2.2 [x.2.2, x.2.2] 2) x.1 0 x.2.1 false fun j s =>
        let fmts := j.dst.fmt :: j.srcs.map VStream.fmt
        (okFloats fmts || okInts fmts) && j.fn == 0 && reduceOk x.2.1 j s) ++
    [let s := vector 0x7E 0 1 1 [1] 2
     startsVec { s with mem := Memory.writeNat s.mem (spmBase 0 + 96) 32 (stream 11 0 + 8192 * 2 ^ 64) } 0x7E 0 1 true fun j s =>
       j.fn == 1 && okFloats [(j.src 0).fmt] && j.dst.fmt == (j.src 0).fmt && j.pos.fmt == .int32 &&
       passes (s.streamChecks 0 0 j.dst true 1 ++ s.streamChecks 0 0 j.pos true 1 ++ (j.srcs.flatMap fun y => s.streamChecks 0 0 y false j.n) ++
         [overlapCheck [(j.dst, 1), (j.pos, 1)] (j.srcs.map fun y => (y, j.n))]),
     let s := vector 0x7F 0 128 11 []
     startsVec s 0x7F 0 1 false fun j s => j.dst.fmt == .int32 && j.fn == 128 && (j.src 0).w 3 == 0 && passes (s.streamChecks 0 0 j.dst true j.n) &&
       (j.dst.ranges j.n).all fun r => decide ((j.desc + 56 : Int) ≤ r.1 ∨ r.2 ≤ j.desc + 40)]) = true := by decide

/-- CSLC of one row of one element, cut into three slices. -/
theorem test_meets_VectorCompletionAndSlices :
    takes (queued 5 (0x81 + 1 * 2 ^ 38 + 1 * 2 ^ 49 + 3 * 2 ^ 67 + 2 * 2 ^ 18 + 3 * 2 ^ 33 + 4 * 2 ^ 28) [(2, 4096), (3, 8192), (4, 32)]) 5 0x81 (fun e s =>
      let x := fmtX e.word
      x.rsvd == 0 && x.s == 3 && x.rows == 1 && x.l == 1 && (s.incCheck 0 x.ctr x.ri).isNone && gaddr e.g x.rc % 32 == 0 && gstride e.g x.re % 32 == 0 &&
      (s.spmCheck 0 (gaddr e.g x.ra) 8).isNone && (s.spmCheck 0 (gaddr e.g x.rf) 2).isNone &&
      ((List.range 3).all fun (i : Nat) => (s.spmCheck 0 (gaddr e.g x.rc + i * gstride e.g x.re) 32).isNone) &&
      ((s.activate 0 5 e).cutRows MemFaults.none 0 e x 1 0).2.1.isNone) = true ∧
    takes (queued 5 (0x81 + 3 * 2 ^ 67)) 5 0x81 (fun e _ => (fmtX e.word).rows == 0) = true := by decide

/-! ### HBM, views and Husk -/

def stack0 (f : Stack → Stack) : State := base.modStack 0 f

theorem test_meets_HbmAndBankEvents : all
    [let s := base.modTile 0 fun x => { x with bankCopy := [3] }
     (s.tile 0).bankCopy == [3] && (s.tile 0).spareBanks != 0,
     ((stack0 fun x => { x with failing := [7] }).stack 0).serves && ((stack0 fun x => { x with failing := [7] }).stack 0).failing == [7],
     ((stack0 fun x => { x with reported := [(7, 0)] }).stack 0).reported.contains (7, 0),
     let s := stack0 fun x => { x with scrubSector := 29 }
     (s.stack 0).serves && (s.stack 0).scrubEnable && (s.stack 0).failing == [] &&
     (let r := s.readErr MemFaults.none (s.paOf 0 (rowSector (s.stack 0).rowsDone 29)) 32
      r.1.isNone && decide ((r.2.stack 0).scrubSector < 31)),
     !(base.stack 0).throttled,
     ((stack0 fun x => { x with waiting := [(0, 64)] }).stack 0).choose 0 == some (0, 64)] = true := by decide

/-- View 1 of partition 0: two rows of 8 FP32 elements shown as FP16, which a write replaces or adds to. -/
def viewed (accum : Bool) : State :=
  { base with views := [(1, [BitVec.ofNat 64 (1 + 2 * 2 ^ 4 + b2n accum * 2 ^ 24 + 2 ^ 28), 0x1000000, 32, 0x200000008, 0, 0, 0, 0])] }

/-- The last element of the view, and one beyond it. -/
theorem test_meets_ViewAccesses : all
    [(viewed false).viewReadOk 0 1 62 2, !((viewed false).viewReadOk 0 1 95 2), !((viewed false).viewReadOk 1 1 0 2),
     (viewed false).viewWriteOk 0 1 46 2 && !(vAccum ((viewed false).view 1)), (viewed true).viewWriteOk 0 1 46 2 && vAccum ((viewed true).view 1),
     !((viewed false).viewWriteOk 1 1 0 2), !((viewed true).viewWriteOk 1 1 0 2), (vTgt ((viewed true).view 1)).bits == 16] = true := by decide

/-- A Husk of partition 0 with one region of one granule, in state `st`. -/
def husked (st mode : Nat) (shards : List Shard) : State :=
  base.modHusk 0 fun _ => { Husk.reset with
    cfg := some ⟨mode, [(0x1000000, 0x10000)], 0x2000000, 0x10000, 1000, 24, 7, 1, 0, 0, 0, 0, true, 3, 4⟩, st := st, shards := shards,
    trigNext := 0, snapId := 1 }

def aShard (drained : Bool) : Shard := ⟨0x1000000, 0x100, 0, [], 0, drained⟩

theorem test_meets_HuskSnapshots : all
    [decide (((husked 1 0 []).husk 0).trigNext ≤ ((husked 1 0 []).ctr 3).toNat) && (husked 1 0 []).huskCanFreeze 0, !((husked 3 0 []).huskCanFreeze 0),
     let v := ((husked 2 0 []).modHusk 0 fun h => { h with st := 3 }).releaseHeld 0
     (((v.huskLog 0 "HUSK_FROZEN").respondWaiting (.freeze 0) 0 0 (leBytes 8 1)).husk 0).cfg == ((husked 2 0 []).husk 0).cfg,
     (husked 3 0 []).cowDue 0 0x1000000 8 && ((husked 3 0 []).writeErr MemFaults.none 0x1000000 8).isNone,
     let s := (husked 3 0 []).modHusk 0 fun h => { h with held := [⟨0x1000000, [0], 0⟩] }
     (s.husk 0).held != [],
     let s := husked 3 0 [aShard false]
     s.shardRuns 0 0 && (s.husk 0).shards[0]? == some (aShard false),
     let s := husked 3 0 [aShard true]
     !((s.husk 0).manifestSent) && ((s.husk 0).shards.all fun x => x.drained) && s.huskPutsDone 0,
     let s := (husked 3 1 [aShard true]).modHusk 0 fun h => { h with manifestSent := true }
     (s.husk 0).manifestSent && s.huskPutsDone 0 && ((s.husk 0).cfg.any fun c => c.mode == 1)] = true := by decide

def restoring (checked : Bool) (shards : List Shard) (done : Nat) : State :=
  (husked 7 0 []).modHusk 0 fun h => { h with restore := some ⟨7, 1, 0, 1, 0, 0, 0, shards, checked, done⟩ }

theorem test_meets_HuskRollbackAndRestore : all
    [((husked 6 0 []).husk 0).st == 6, ((restoring false [] 0).husk 0).restore.any fun r => !r.checked,
     ((restoring true [aShard false] 0).husk 0).restore.any (fun r => r.checked && r.shards[0]? == some (aShard false)),
     (restoring true [] 0).restoreFits 0 0x1000000 0x100, ((restoring true [aShard true] 1).husk 0).restore.any fun r => r.done == r.shards.length] = true := by decide

/-! ### Ports and lasers -/

def port0 (f : Port → Port) : State := base.modPort 0 f

/-- A shard whose bytes have its digest. -/
theorem test_meets_HuskShardDigest : ∃ (data : List Byte) (x : Shard), data.length = x.len ∧ sha256 data = x.digest ∧ x.poison = [] ∧
    bitN x.region 8 = false ∧ x.drained = false ∧ (restoring true [x] 0).restoreFits 0 (moved x.source 0) x.len = true :=
  ⟨List.replicate 256 0, { aShard false with digest := sha256 (List.replicate 256 0) }, List.length_replicate .., Eq.refl _, rfl, rfl, rfl, by
    show (restoring true [] 0).restoreFits 0 0x1000000 256 = true
    decide⟩

def frameOf (ty seq : Nat) : Frame := ⟨ty, seq, 0, false, false, false, if ty = frTrain then 2 else if ty = frData then 1 else 0, 0, 0, []⟩

def active : State := port0 fun p =>
  { p with st := stActive, unacked := [⟨0, 0, 1, 0⟩], lanes := [(8, ⟨1, 8, 0, 0⟩), (17, ⟨1, 8, 0, 0⟩)] }

/-- The expected frame, the last one ahead (2048), and the first behind (2049). -/
theorem test_meets_LinkFrames : all
    ([frData, frIdle, frNak, frLanemap, frTrain].map (fun ty => !((frameOf ty 0).malformed)) ++
     [(frameOf frIdle 1).malformed, (active.port 0).st == stActive, (active.port 0).unacked != [], (active.port 0).lastNak == none,
      let u := active.frameAck 0 (frameOf frData 2048)
      ((frameOf frData 2048).seq + 4096 - (u.port 0).expected) % 4096 == 2048, ((active.frameAck 0 (frameOf frData 0)).port 0).expected == 0,
      ((frameOf frData 2049).seq + 4096 - ((active.frameAck 0 (frameOf frData 2049)).port 0).expected) % 4096 == 2049,
      let c := active.modPort 0 fun p => p.takeCredit false 0
      ((c.port 0).unacked.findIdx? fun y => y.seq == (frameOf frNak 0).ack) == some 0,
      let m := (active.modPort 0 fun p => p.takeCredit false 0).portPump 0
      (m.port 0).mapEpoch != some 0 && ((List.range 9).find? fun l => (Tbl.get Lane.reset (m.port 0).lanes l).st == 1) == some 8]) = true := by decide

/-- Ports in each training state, the third failure in a row, and an offer of this package's plane. -/
theorem test_meets_PortTraining : all
    [((port0 fun p => { p with st := stDetect, fails := 2 }).port 0).fails == 2, ((port0 fun p => { p with st := stDetect, fails := 3 }).port 0).fails == 3,
     ((port0 fun p => { p with st := stAlign }).port 0).st == stAlign && ((List.range 9).filter fun l => bitN 255 l).length == 8,
     let s := port0 fun p => { p with st := stExchange }
     let f := { frameOf frTrain 0 with payload := [2, 2, s.planeOfPort 0, 0, 0, 1024, 1, 0, 0, 0] }
     !f.malformed && !(s.hallPort 0) && f.payload.getD 2 0 == s.planeOfPort 0,
     let s := { port0 fun p => { p with st := stExchange } with timeNs := 6001 }
     decide ((s.timeNs % 2 ^ 32 + 2 ^ 32 - 1) % 2 ^ 32 ≤ 6000),
     ((port0 fun p => { p with st := stBackoff }).port 0).st == stBackoff, ((port0 fun p => { p with st := stDark }).port 0).st == stDark,
     ((port0 fun p => { p with fibre := true }).port 0).st == stOff, ((port0 fun p => { p with fibre := true, st := stDark }).port 0).st != stOff,
     let s := port0 fun p => { p with st := stFibreOut }
     let u := ((((s.modPort 0 fun p => { p with fibre := true, fails := 0 }).mated 0).setFlag (lnOp 0) 2).setFlag lnLs 1).logEv "FIBRE_IN" 1 0 0xFF []
     (u.port 0).st == stFibreOut, (base.port 0).st == stOff && !((base.port 0).fibre)] = true := by decide

def module0 (f : LaserModule → LaserModule) : State := base.modLaser 0 f

theorem test_meets_LanesAndLasers : all
    [(Tbl.get Lane.reset (active.port 0).lanes 9).st == 0 && (active.port 0).sparing == none,
     (List.range 9).any fun l => (Tbl.get Lane.reset (active.port 0).lanes (9 + l)).st == 1,
     !((List.range 9).any fun l => (Tbl.get Lane.reset ((port0 fun p => { p with st := stActive }).port 0).lanes (9 + l)).st == 1),
     ((port0 fun p => { p with sparing := some (0, 1) }).port 0).sparing != none, (Tbl.get Lane.reset (active.port 0).lanes 17).st == 1,
     ((module0 fun x => { x with st := 5, present := true, feed := true }).laser 0).st == 5,
     ((module0 fun x => { x with st := 1, present := true, feed := true }).laser 0).st == 1, ((module0 fun x => { x with present := true }).laser 0).present,
     !((base.laser 0).present), !((base.laser 0).feed) &&
       ((((base.modLaser 0 fun x => { x with feed := true }).mated 24).setFlag lnLs 1).laser 0).st == (base.laser 0).st,
     let s := module0 fun x => { x with st := 7 }
     ((((s.modLaser 0 fun x => { x with feed := true }).mated 24).setFlag lnLs 1).laser 0).st == 7] = true := by decide

/-! ### Cores -/

def core0 (f : Core → Core) : State := base.modCore 0 f

def executes (s : State) (len : Nat) (p : State → Bool) : Bool :=
  (s.core 0).runs && (s.pendingIntr 0).isNone && p (s.modCore 0 fun c => { c with ilen := len })

/-- A double word at the top of the first page of partition 0's memory, in machine mode. -/
theorem test_meets_CoreMemoryAccesses : all
    [executes (core0 fun c => { c with x := [(5, 0x1000FF8)] }) 4 fun s =>
       let r := s.xlate MemFaults.none 0 false (coreSegs ((s.core 0).baseAddr 5 0) 8)
       (match r.1 with
        | .ok ps => let qs := ps.map fun p => (p.1, r.2.loadAddr 0 p.2.1 p.2.2, p.2.2)
                    !(isAperture ((qs.head?.map fun p => p.2.1).getD 0)) && (r.2.coreReadAll MemFaults.none 0 qs).1.toOption.isSome
        | .error _ => false) && (s.core 0).baseAddr 5 0 % 8 == 0,
     executes (core0 fun c => { c with x := [(5, 0x1000FF8)] }) 4 fun s =>
       let r := s.xlate MemFaults.none 0 true (coreSegs ((s.core 0).baseAddr 5 0) 8)
       (match r.1 with
        | .ok ps => let f := (ps.head?.map fun p => p.2.1).getD 0
                    !(isAperture f) && (r.2.storeFault MemFaults.none 0 f 8).isNone && (r.2.coreWriteAll MemFaults.none 0 [(f, leBytes 8 7)]).1.isNone
        | .error _ => false),
     executes { domain with cores := (core0 fun c => { c with x := [(5, BitVec.ofNat 64 (apertureOf 1 0))] }).cores } 4 fun s =>
       let r := s.xlate MemFaults.none 0 false (coreSegs ((s.core 0).baseAddr 5 0) 8)
       isAperture (apertureOf 1 0) && r.1.toOption.isSome && r.2.coreDomainOk 0 rightR (apertureOf 1 0) 8 && r.2.coreDomainOk 0 rightW (apertureOf 1 0) 8,
     executes base 4 fun s =>
       let r := s.translate MemFaults.none 0 true 0x1000FF8 8
       (match r.1 with
        | .ok pa => !(isAperture pa) && isHbm pa && (r.2.coreRead MemFaults.none 0 pa 8).1.toOption.isSome && (r.2.storeFault MemFaults.none 0 pa 8).isNone &&
                    (r.2.lrScFault pa 8).isNone && (r.2.core 0).resv != some (pa, 8)
        | .error _ => false),
     executes (core0 fun c => { c with resv := some (0x1000FF8, 8) }) 4 fun s => (s.core 0).resv == some (0x1000FF8, 8),
     executes base 4 fun s => s.storesOut 0 == []] = true := by decide

theorem test_meets_CoreControl : all
    [executes base 4 fun s => (s.core 0).csrLegal 0x340 true, executes base 4 fun s => !((s.core 0).csrLegal 0xF11 true),
     executes (core0 fun c => { c with vxs := 0 }) 4 fun s => (s.core 0).vxs == 0,
     isHbm (alignDown 64 0x1000000) && base.userHbmOk 0x1000000 64 && !(base.tillerRegion 0x1000000),
     let s := { core0 fun c => { c with mtimecmp := 5, csr := [(0x300, 0x6008), (0x304, 0x80)] } with timeNs := 5 }
     s.pendingIntr 0 == some 7 && (s.core 0).runs, !((State.reset.core 0).runs)] = true := by decide

/-- The same state serves every SVX and LVX instruction. -/
theorem test_meets_SvxInstructions : (base.core 0).runs = true ∧ base.pendingIntr 0 = none ∧ (base.core 0).vxs ≠ 0 ∧ (base.core 0).frm.isSome = true := by decide

theorem test_meets_LvxAndVectorMemory : all
    [executes base 4 fun s => (s.core 0).vxs != 0 && ((s.core 0).rounding 7).isSome && ((s.core 0).rounding 0).isSome,
     executes (core0 fun c => { c with x := [(5, 0x1000FF0)], p := [(1, 0xFF)] }) 4 fun s => (s.core 0).sumAddr 5 0 % 16 == 0 && (s.core 0).pr 1 != 0 &&
       (let r := s.firstElems MemFaults.none 0 8 [0x1000FF0, 0x1000FF8]
        r.1.length == 2 && r.2.1.isNone && r.1.all fun e => e.2.2.isSome),
     (base.core 0).pr 1 == 0 && (base.core 0).pr 0 == 0xFF] = true := by decide

/-! ### Registers -/

theorem test_meets_CounterPorts : all
    [(base.core 0).runs && base.ownsCtr (base.core 0).spart (0 * 32768 + (base.ctPort 0 0).num) && !(base.hcStopped 0),
     (hcGone.core 0).runs && hcGone.hcStopped 0,
     let s := base.modCore 0 fun c => { c with spart := 1 }
     (s.core 0).runs && !(s.ownsCtr (s.core 0).spart (0 * 32768 + (s.ctPort 0 0).num))] = true := by decide

theorem test_meets_FlagReads : all [base.masterRuns .scarab, base.masterRuns (.core 0), (base.tile 3).inService && !(base.hcStopped 3), base.ownsMbox .scarab 63] = true := by decide

theorem test_meets_DataReads : all
    [base.masterRuns .scarab, decide (base.idx (.array 0 0) ⟨0x40, 0x50, 0, 10, false⟩ < 641), base.idx (.sq 0) ⟨0x18, 0x1C, 0, 18, true⟩ / 4 % 8 != 6,
     let s := { base with regs := { base.regs with index := (List.range 300).map fun i => (i, 0x18) } }
     s.idx (.sq 0) ⟨0x18, 0x1C, 0, 18, true⟩ / 4 % 8 == 6, decide (base.idx (.op 0) ⟨0x28, 0x2C, 0, 9, true⟩ / 16 < 18),
     base.idx .ls ⟨0x10, 0x14, 0, 9, true⟩ / 64 != 7, decide (base.idx .pl ⟨0xC, 0x10, 0, 9, false⟩ < 288), base.idx .rk ⟨8, 0xC, 0, 6, true⟩ / 4 % 2 == 0,
     let s := { base with regs := { base.regs with index := (List.range 300).map fun i => (i, 4) } }
     s.idx .rk ⟨8, 0xC, 0, 6, true⟩ / 4 % 2 == 1] = true := by decide

/-- CHEAD at CTAIL is taken, one beyond is not. -/
theorem test_meets_RegisterWrites : all
    [let s := base.modRing 0 0 fun x => { x with enable := true, ctail := 4 }
     s.ownsRing .scarab 0 0 && decide ((4 - (s.ring 0 0).chead).toNat ≤ ((s.ring 0 0).ctail - (s.ring 0 0).chead).toNat) &&
     decide (((s.ring 0 0).ctail - (s.ring 0 0).chead).toNat < (5 - (s.ring 0 0).chead : W32).toNat),
     let s := base.modRing 0 0 fun x => { x with enable := true, dbctrEn := true }
     (s.ring 0 0).dbctrEn, !((base.modRing 0 0 fun x => { x with enable := true, partition := 1 }).ownsRing (.core 0) 0 0),
     !(base.hcStopped 3), hcGone.masterRuns .scarab && hcGone.hcStopped 0, base.privileged .scarab && !(base.modCore 0 fun c => { c with mode := .user }).privileged (.core 0),
     (let n := aliasValue 9 (bit (base.stack 0).scrubEnable 8 + (base.stack 0).scrubPeriod % 256) 0 168
      decide (0 < n % 256 ∧ n % 256 ≤ 168)), base.idx .ic ⟨0, 4, 0, 11, true⟩ / 8 < 144,
     (List.range 32).all fun i => decide ((32 * base.idx .ac ⟨0x10, 0x14, 0, 13, false⟩ + i) * 0x200000 < base.hbmEnd),
     base.ownsMbox .scarab 63 && base.ownsMbox (.core 0) 6, (blockAt 0x900000000000).isNone && 0x900000000000 % 4 == 0] = true := by decide

/-! ### Cricket -/

def ck (f : Cricket → Cricket) : State := base.modCk f

def burst : Burst := ⟨3, 1, 0, 1, []⟩

theorem test_meets_CricketSegment : all
    [base.cricket.offset == none && base.cricket.inFlight == none && base.cricket.st == 0 && base.cricket.seen == 0, (ck fun c => { c with seen := 1 }).cricket.seen == 1,
     (ck fun c => { c with st := 3, agree := 1 }).cricket.agree == 1, (ck fun c => { c with st := 2, missed := 3 }).cricket.missed == 3,
     (ck fun c => { c with st := 1, assigned := true }).cricket.assigned,
     let s := ck fun c => { c with st := 2, member := some 5, inFlight := some burst, sentSlot := 5 }
     s.cricket.inFlight == some burst && s.cricket.member == some 5 && !s.ckSilent && bitN 32 s.cricket.sentSlot && !(bitN 31 s.cricket.sentSlot),
     let s := ck fun c => { c with st := 1 }
     s.cricket.joinSent == none && s.cricket.joinFrame == none && !s.ckSilent, (ck fun c => { c with st := 1, joinSent := some 3 }).cricket.joinSent != none,
     (ck fun c => { c with st := 1, member := some 5 }).cricket.mailIn == none && (base.mbox 57).st != 1,
     { base with optics := { base.optics with cricketFibre := true } }.optics.cricketFibre,
     let s := ck fun c => { c with st := 4 }
     !s.optics.cricketFibre && ((({ s with optics := { s.optics with cricketFibre := true } }.mated 30).setFlag lnLs 1).cricket.st == 4)] = true := by decide

/-! ### Sunas -/

/-- Mailbox m of `s` holds command `k` with its fields' values (size, value) and more bytes after them; its turn has come. -/
def ask (s : State) (m : Nat) (k : CmdSpec) (fields : List (Nat × Nat)) (more : List Byte := []) : State :=
  let bs := packFields fields
  let bs := bs ++ List.replicate (k.tailAt - bs.length) 0 ++ more
  let bs := bs ++ List.replicate ((8 - bs.length % 8) % 8) 0
  let b : Mbox := { Mbox.reset with st := 1, header := leBytes 8 (k.op + bs.length * 2 ^ 32) ++ List.replicate 24 0, payload := bs }
  s.modSunas fun u => { u with order := [m], mboxes := Tbl.set u.mboxes m b }

/-- Sunas serves the command, which and the state of its performance have a property. -/
def serves (s : State) (m : Nat) (k : CmdSpec) (fields : List (Nat × Nat)) (p : Cmd → State → Bool) (more : List Byte := []) : Bool :=
  let s := ask s m k fields more
  let t := s.takeMbox m
  let c := k.read m (s.mbox m).header (s.mbox m).payload
  let w0 := headerWord (s.mbox m).header 0
  s.nextMbox == some m && (s.mbox m).opcode == k.op && k.allowed c && k.lenOk c (field w0 56 32) (bitN w0 17) && t.badHeader c == [] &&
  k.badPayload c == [] && !(t.gated c) && p c t

theorem serves_Serves {s : State} {m : Nat} {k : CmdSpec} {fields : List (Nat × Nat)} {p : Cmd → State → Bool} {more : List Byte}
    (h : serves s m k fields p more = true) : ∃ c t, Serves (ask s m k fields more) k m c t ∧ p c t = true := by
  simp only [serves, Bool.and_eq_true, beq_iff_eq, Bool.not_eq_true'] at h
  obtain ⟨⟨⟨⟨⟨⟨⟨h1, h2⟩, h3⟩, h4⟩, h5⟩, h6⟩, h7⟩, h8⟩ := h
  exact ⟨_, _, ⟨h1, h2, rfl, rfl, h3, h4, h5, h6, h7⟩, h8⟩

/-- Another turn, and a partition mailbox that asks for a management command. -/
theorem test_meets_MailboxTurns : all
    [base.nextMbox != some 56, (ask base 0 kNodeReady []).nextMbox == some 0 &&
     !(kNodeReady.allowed (kNodeReady.read 0 ((ask base 0 kNodeReady []).mbox 0).header []))] = true := by decide

def stage (n : Nat) : State := base.modStart fun x => { x with stage := n }
def part (st : PartSt) : State := base.modPart 0 fun p => { p with st := st }
def yes (_ : Cmd) (_ : State) : Bool := true

theorem test_meets_GeneralAndPartitionCommands : all
    [serves base 0 kStatus [] yes, serves base 56 kNodeReady [] (fun _ t => decide (3 ≤ t.start.stage)), serves (stage 2) 56 kNodeReady [] (fun _ t => t.atStage 3),
     serves ((stage 2).modStart fun x => { x with failed := true }) 56 kNodeReady [] (fun _ t => !(t.atStage 3)),
     serves base 56 kRestart [] yes, serves base 56 kCoreStart [(1, 0), (8, 64), (8, 1), (8, 2)] (fun _ t => (t.core 0).st == 0),
     serves base 56 kCoreStart [(1, 63), (8, 64), (8, 1), (8, 2)] (fun _ t => (t.core 63).st == 1 && (t.island islCores).up),
     serves base 56 kJoin [] yes, serves (stage 3) 56 kJoin [] yes, serves (part .stopped) 56 kPlaceSet [(4, 0xFFFFF), (1, 7)] (fun _ t => (List.range 8).all fun q => (t.part q).st != .running),
     serves base 56 kPlaceSet [(4, 0), (1, 0)] (fun _ t => (t.part 0).st == .running),
     serves base 56 kNotifySet [(8, 0x1000000), (1, 4), (4, 131071)] (fun c t => t.userHbmOk (c.f 0) (64 * 2 ^ c.f 1)),
     serves (part .unset) 56 kPartSet [(1, 0), (2, 1), (2, 1), (8, 1), (8, 1), (8, 1), (8, 0x1000000), (8, 0x200000)] (fun c t => t.userHbmOk (c.f 6) (c.f 7) && (t.part 0).st == .unset),
     serves base 56 kPartSet [(1, 0), (2, 0), (2, 1), (8, 0), (8, 0), (8, 0), (8, 0x1000000), (8, 0x200000)] (fun _ t => (t.part 0).st == .running),
     serves (part .stopped) 56 kPartStart [(1, 0)] (fun _ t => (t.part 0).st == .stopped && !t.power.pkgEvac), serves base 56 kPartStart [(1, 0)] (fun _ t => (t.part 0).st != .stopped),
     serves base 0 kPartStop [(1, 0)] (fun _ t => (t.part 0).st == .running), serves (part .stopped) 0 kPartStop [(1, 0)] (fun _ t => (t.part 0).st != .running),
     serves base 0 kPartReset [(1, 0)] (fun _ t => (t.part 0).st != .unset), serves base 56 kPartReset [(1, 1)] (fun _ t => (t.part 1).st == .unset),
     serves (part .stopped) 0 kKeySet [(1, 0), (1, 1), (1, 8), (1, 3), (1, 3), (1, 1)] (fun c t => c.f 2 == 8 && c.f 3 == 3 && c.f 4 == 3 && (t.part 0).st == .stopped),
     serves base 0 kKeySet [(1, 0), (1, 1), (1, 0), (1, 0), (1, 0), (1, 0)] (fun _ t => (t.part 0).st == .running), serves base 0 kKeyGet [(1, 0)] yes] = true := by decide

/-- All partitions stopped; connection 3 of partition 0 open; window 5 and export 0 valid. -/
def quiet : State :=
  { receiver with parts := [(0, { (base.part 0) with st := .stopped })],
                  net := { receiver.net with conns := [(3, { Conn.reset with st := 1, place := 40000, peerCaches := [5] })] } }

theorem test_meets_FabricCommands : all
    [serves base 56 kPortRoles [(1, 48)] (fun c t => !(rolesBad (c.f 0)) && !t.allStopped),
     serves quiet 56 kPortRoles [(1, 48)] (fun c t => !(rolesBad (c.f 0)) && t.allStopped && !(t.actBlocked .roles ((t.changedPorts (c.f 0)).map .port) t.sunas.nextTicket)),
     serves base 56 kLaneLimit [(4, 0xFFFFFF), (2, 4096)] yes,
     serves active 56 kPortRetrain [(4, 1)] (fun c t => (maskPorts (c.f 0)).all (fun k => (t.port k).st != stOff) &&
       !(t.actBlocked .retrain ((maskPorts (c.f 0)).map Res.port) t.sunas.nextTicket)),
     serves base 56 kLaserEvacuate [(1, 5)] (fun c t => decide (4 ≤ t.start.stage) && !(t.actBlocked .evac (evacRes (c.f 0)) t.sunas.nextTicket)),
     serves base 56 kTableSet [(1, 0), (1, 31), (1, 2), (1, 7), (1, 1), (1, 80), (2, 0), (4, 0)] (fun c t => c.f 1 == 31 && !t.places.valid),
     serves base 56 kTableSet [(1, 1), (1, 255), (1, 1), (1, 0), (1, 0), (1, 0), (2, 0), (4, 0)] (fun c _ => c.f 0 == 1),
     serves base 56 kTableSet [(1, 2), (1, 127), (1, 1), (1, 0), (1, 0), (1, 0), (2, 0xFFFF), (4, 7)] (fun c _ => c.f 0 == 2 && c.f 1 == 127),
     serves base 56 kExportSet [(1, 63), (1, 1), (1, 0), (2, 1), (1, 7), (8, 0x40E00000), (8, 0x200000), (4, 130048), (1, 1)] (fun c t =>
       t.inPartition (c.f 2) (c.f 5) (c.f 6) && t.ownsBlocks (c.f 2) (c.f 7) (c.f 8)),
     serves base 56 kExportSet [(1, 63), (1, 0), (1, 0), (2, 1), (1, 7), (8, 0x1000000), (8, 0x200000), (4, 0), (1, 0)] (fun c _ => !(c.on 1)),
     serves base 56 kReplicaSet [(1, 63), (1, 1), (1, 0), (1, 127), (8, 0), (8, 0x200000), (8, 0x1000000)] (fun c t =>
       decide (c.f 4 + c.f 5 ≤ 2 ^ 39) && t.inPartition (c.f 2) (c.f 6) (c.f 5)), serves base 56 kDomainTimeout [(2, 50)] yes,
     serves quiet 0 kWindowSet [(2, 4095), (1, 1), (1, 0), (2, 1), (1, 7), (8, 0x1000000), (8, 4096), (4, 0), (1, 128)] (fun c t =>
       c.on 1 && t.inPartition (c.f 2) (c.f 5) (c.f 6) && t.ownsBlocks (c.f 2) (c.f 7) (c.f 8)),
     serves quiet 0 kWindowSet [(2, 5), (1, 0), (1, 0), (2, 1), (1, 0), (8, 0), (8, 0), (4, 0), (1, 0)] (fun c t =>
       !(c.on 1) && (t.window 5).valid && !(c.foreign (t.window 5).partition) && t.net.conns.any fun k => k.2.st == 1 && k.2.peerCaches.contains 5),
     serves receiver 0 kWindowSet [(2, 5), (1, 0), (1, 0), (2, 1), (1, 0), (8, 0), (8, 0), (4, 0), (1, 0)] (fun _ t =>
       (t.window 5).valid && !(t.net.conns.any fun k => k.2.st == 1 && k.2.peerCaches.contains 5)),
     serves { base with places := { Places.reset with valid := true, halls := [(1, ⟨1, 0, 2, 0⟩)] } } 0 kConnOpen [(1, 0), (4, 40000), (2, 0)] (fun c t => t.placeReachable (c.f 1) && decide (t.connSlot 0 (c.f 1) < 65536)),
     serves quiet 0 kConnClose [(2, 9)] (fun _ t => (t.conn 9).st == 0), serves quiet 0 kConnClose [(2, 3)] (fun c t => (t.conn 3).st == 1 && !(c.foreign (t.conn 3).partition)),
     serves (quiet.modConn 3 fun x => { x with st := 2 }) 0 kConnClose [(2, 3)] (fun _ t => (t.conn 3).st == 2),
     serves quiet 0 kConnTimeout [(2, 3), (2, 10000)] (fun c t => (t.conn 3).st != 0 && decide (4 * (t.conn 3).srttUs ≤ c.f 1 * 1000))] = true := by decide

/-- The view has two rows of 8 FP32 elements, shown as FP16. -/
theorem test_meets_MemoryAndViewCommands : all
    [serves (stage 1) 56 kMemInterleave [(1, 2)] (fun _ t => decide (t.start.stage < 2)), serves quiet 56 kMemInterleave [(1, 2)] (fun _ t => t.allStopped && decide (2 ≤ t.start.stage)),
     serves base 56 kMemInterleave [(1, 0)] (fun _ t => !t.allStopped),
     serves base 56 kMemRegulator [(1, 255), (1, 0), (2, 256), (2, 256), (1, 12)] (fun c t => decide (c.f 2 ≤ c.f 3) && (List.range 8).all fun k => decide ((t.stack k).guarSum (c.f 1) (c.f 2) ≤ 256)),
     serves quiet 56 kMemBlockMode [(1, 0), (1, 1)] (fun _ t => (t.part 0).st == .stopped), serves base 56 kMemBlockMode [(1, 0), (1, 1)] (fun _ t => (t.part 0).st != .stopped),
     serves base 56 kMemUeLimit [(1, 1), (2, 8)] yes, serves base 56 kMemScrub [(1, 1), (1, 1), (1, 168)] yes,
     serves (stack0 fun x => { x with reported := [(7, 9)] }) 56 kRowAck [(8, 9)] (fun c t => (t.pendingReport (c.f 0)).isSome),
     serves base 56 kRowAck [(8, 9)] (fun c t => (t.pendingReport (c.f 0)).isNone), serves base 56 kRetireRead [(1, 7), (2, 4095), (1, 251)] yes,
     serves quiet 0 kViewSet [(1, 2), (8, 2 ^ 28 + 1 + 2 * 16), (8, 0x1000000), (8, 32), (8, 0x200000008), (8, 0), (8, 0), (8, 0), (8, 0)] (fun c t =>
       !(t.viewForeign c) && (t.viewBad ((List.range 8).map fun i => BitVec.ofNat 64 (c.f (i + 1)))).all fun b => !b.1),
     serves base 0 kViewCounts [(1, 2)] (fun c t => !(t.viewForeign c)),
     serves (husked 1 0 []) 0 kHuskFreeze [(1, 0), (8, 7)] (fun _ t => t.huskCanFreeze 0), serves (husked 3 0 []) 0 kHuskFreeze [(1, 0), (8, 7)] (fun _ t => !(t.huskCanFreeze 0)),
     serves (husked 2 0 []) 0 kHuskAbandon [(1, 0)] (fun _ t => (t.husk 0).st == 2), serves (husked 4 0 []) 0 kHuskAbandon [(1, 0)] (fun _ t => (t.husk 0).st == 4),
     serves (husked 4 1 []) 0 kHuskCommit [(1, 0)] (fun _ t => (t.husk 0).st == 4), serves (husked 1 1 []) 0 kHuskCommit [(1, 0)] (fun _ t => (t.husk 0).st != 4),
     serves ((husked 5 1 []).modPart 0 fun p => { p with st := .stopped }) 0 kHuskRollback [(1, 0)] (fun _ t => (t.part 0).st == .stopped && (t.husk 0).st == 5 &&
       !(t.actBlocked .huskrb [.partition 0] t.sunas.nextTicket)),
     serves quiet 0 kHuskRestore [(1, 0), (2, 5), (4, 40000), (2, 0), (2, 1), (8, 0), (8, 0x1000000), (8, 0)] (fun c t =>
       (t.connTo 0 (c.f 2)).isSome && t.userHbmOk (c.f 6) 1 && t.canRestore 0 && !(t.actBlocked .huskrb [.partition 0] t.sunas.nextTicket)),
     serves base 0 kRingSet [(1, 0), (2, 8191), (1, 1), (1, 0), (1, 3), (1, 4), (8, 0x1000000), (1, 4), (8, 0x1001000), (1, 64), (1, 1), (4, 0), (1, 2)] (fun c t =>
       (t.ring 0 8191).inProgress == 0 && t.ownsCtr 0 (c.f 11) && t.ringRange 0 0 (c.f 6) (c.f 5) 64 && t.ringRange 0 0 (c.f 8) (c.f 7) 32),
     serves base 0 kRingSet [(1, 0), (2, 0), (1, 0), (1, 0), (1, 0), (1, 4), (8, 0), (1, 4), (8, 0), (1, 1), (1, 0), (4, 0), (1, 0)] (fun c _ => !(c.on 2)),
     serves base 0 kGroupReset [(1, 0), (2, 65535), (1, 1)] (fun c t => !((t.tile 0).groups.any fun g => g.2.group == c.f 1)),
     let g : Group := ⟨9, 0, 1, 0, 0x1000000, 1, 16, 0x1000000, 0, 0, 0⟩
     serves (base.modTile 0 fun x => { x with groups := [(0, g)] }) 0 kGroupReset [(1, 0), (2, 9), (1, 1)] (fun c t =>
       ((t.tile 0).groups.find? fun g => g.2.group == c.f 1) == some (0, g) && !(c.foreign g.partition) && t.ctxsOf 0 (fun x => x.coll && x.group == c.f 1) == [])] =
    true := by decide +kernel

/-- A group of one member, this package's Tiller 0. -/
theorem test_meets_GroupSet :
    serves { base with places := { Places.reset with valid := true, place := 0 },
                       net := { Net.reset with exports := [(0, ⟨true, 0, 1, 7, 0x1000000, 0x1000000, 1024, 1⟩)] } } 0 kGroupSet
      [(1, 0), (2, 65535), (1, 0), (4, 1), (4, 0), (8, 0x1000000), (1, 1), (1, 16), (8, 0x1100000), (4, 1024), (2, 0)] (fun c t =>
        let ms := t.members (c.f 5) (c.f 3)
        let scope := t.scopeOf ms
        let n := groupBytes (c.f 6) (c.f 7)
        decide (c.f 4 < c.f 3) && t.userHbmOk (c.f 5) (4 * c.f 3) && ms.all (fun y => decide (y < 2 ^ 22)) && t.inPartition (c.f 2) (c.f 8) n &&
        t.bufCovered scope (c.f 2) (c.f 10) (c.f 8) n && t.ownsBlocks (c.f 2) (c.f 9) 1 && t.cntCovered scope (c.f 2) (c.f 10) (c.f 9) &&
        (scope == 0 || t.groupWindow (c.f 2) (c.f 10))) = true := by decide

/-- In the stack-local mode a reserve of 1 MiB lies on the one stack of its region. -/
theorem test_meets_HuskConfig :
    serves { quiet with hbm := { quiet.hbm with mode := 2 } } 0 kHuskConfig
      [(1, 0), (1, 0), (1, 24), (1, 1), (1, 1), (2, 1), (4, 100), (4, 40000), (4, 3), (4, 4), (8, 0x2000000), (8, 0x100000), (8, 0), (8, 0), (8, 0), (8, 0)]
      (fun c t => let x := c.huskCfg
        (t.connTo 0 x.destPlace).isSome && t.ownsCtr 0 x.trigCtr && t.ownsCtr 0 x.doneCtr && t.inPartition 0 x.resBase x.resLen && !(t.reserveThin x) &&
        decide (x.shardCount ≤ 32768) && !(t.regionBad 0 x 0) && decide ((t.husk 0).st ≤ 1))
      (leBytes 8 0x1000000 ++ leBytes 8 0x10000) = true := by decide +kernel

def slotA (committed : Bool) : State :=
  quiet.modSunas fun u => { u with slotA := ⟨true, 1, 1, 0, 1, 4096⟩, slotB := ⟨true, 2, 2, 0, 2, 4096⟩, verified := true, uncommitted := !committed, byActivate := !committed }

theorem test_meets_FirmwareAndDiagnosticCommands : all
    [serves base 56 kSensors [] yes, serves base 56 kTillerCap [(1, 15), (2, 800)] (fun c t => decide (800 ≤ c.f 1 ∧ c.f 1 ≤ t.start.tillerMhz)),
     serves { quiet with parts := [] } 56 kTillerState [(1, 3), (1, 0)] (fun c t => !(t.tillerOwned (c.f 0)) && decide (3 ≤ t.start.stage)),
     serves { quiet with parts := [], tiles := [] } 56 kTillerState [(1, 3), (1, 1)] (fun c t => !(t.tillerOwned (c.f 0)) && !((t.tile 3).inService) && decide (2 ≤ t.workingArrays 3)),
     serves base 63 kFwInfo [] yes,
     serves (slotA true) 56 kFwWrite [(8, 4096)] (fun c t => decide (c.f 0 + c.tail.length ≤ slotBytes) && !t.sunas.uncommitted && !(t.actBlocked .flash [.flash] t.sunas.nextTicket) &&
       decide (1536 ≤ (t.standbyBlocks false).1)) [1, 2, 3],
     serves (slotA true) 56 kFwVerify [(8, 4096)] (fun c t => decide (c.f 0 ≤ slotBytes) && (t.imageOk t.sunas.standby true) && !(t.imageOk t.sunas.standby false)),
     serves (slotA true) 56 kFwActivate [(1, 1)] (fun c t => t.sunas.verified && c.on 0 && t.waitingMboxes == []), serves base 56 kFwActivate [(1, 0)] (fun _ t => !t.sunas.verified),
     serves (slotA false) 56 kFwCommit [] (fun _ t => t.sunas.byActivate && t.sunas.runningSlot == t.sunas.activeSlot),
     serves { quiet with parts := [] } 56 kUcodeApply [(1, 15)] (fun c t => (maskTillers (c.f 0)).all fun i => !(t.tillerOwned i)), serves base 0 kLogInfo [] (fun _ t => t.log.records.isEmpty),
     serves (base.logEv "FW_COMMITTED" 5 0 0xFF []) 56 kLogInfo [] (fun _ t => (leastOf (t.log.records.map (·.number))).isSome), serves base 0 kLogRead [(8, 1), (1, 31)] yes,
     serves quiet 63 kHbm1500 [(1, 0), (2, 3), (2, 8)] (fun _ t => !(t.actBlocked .hbmdiag (t.diagRes 0) t.sunas.nextTicket)) [1],
     serves (({ quiet with parts := [] }.newTicket ⟨0, 0x0A03, 0, .repair, [.stack 0], 63, [], [], true⟩).2.modSunas fun u => { u with notify := some (0x1000000, 4, 0) }) 63 kHbmBist
       [(1, 0), (1, 0)] (fun c t => t.actBlocked .hbmdiag (t.diagRes 0) t.sunas.nextTicket && !(t.stackInUse 0) && decide (t.heldCommands < 64) && !c.nowait &&
         t.sunas.notify.isSome),
     serves { quiet with parts := [] } 63 kHbmBist [(1, 0), (1, 0)] (fun _ t => !(t.stackInUse 0) && !(t.actBlocked .hbmdiag (t.diagRes 0) t.sunas.nextTicket)),
     serves { quiet with parts := [] } 63 kHbmModereg [(1, 0), (1, 31), (1, 1), (1, 1), (4, 5)] (fun c t => c.on 3 && (Tbl.find (t.stack 0).modeRegs (c.f 1 * 256 + c.f 2)).isNone),
     serves base 63 kHbmRepair [(1, 0), (1, 63), (1, 63), (1, 0), (2, 16383)] (fun _ t => (t.stack 0).serves && (t.stack 0).sppr 4095 != 0 && (t.stack 0).hppr 4095 != 0),
     serves base 63 kArrayMap [(1, 0), (1, 0), (1, 0), (2, 640), (2, 0)] (fun c t => (t.tile 0).inService && decide (c.f 3 < 641) && !(t.actBlocked .arrdiag [.array 0] t.sunas.nextTicket)),
     serves base 0 kMaintStatus [(4, 9)] (fun _ t => (Tbl.find t.sunas.tickets 9).isNone), serves base 56 kMaintCancel [(4, 9)] (fun _ t => (Tbl.find t.sunas.tickets 9).isNone),
     serves (base.newTicket ⟨0, 0x0A01, 0, .hbmdiag, [.stack 0], 63, [], [], true⟩).2 56 kMaintCancel [(4, 1)] (fun _ t => (Tbl.find t.sunas.tickets 1).any fun x => x.st == 0),
     (let s := (base.newTicket ⟨0, 0x0A01, 0, .hbmdiag, [.stack 0], 63, [], [], true⟩).2
      (Tbl.find s.sunas.tickets 1).any fun x => s.ticketFree 1 x && x.mbox != 64 && (cmdOf x.opcode).isSome)] = true := by decide +kernel

/-! ### Pins, power and the start -/

def pins (f : Power → Power) : State := base.modPower f

theorem test_meets_PinsAndBuses : all
    [!State.reset.power.powered, base.power.pwrgd, !base.power.resetLow, (pins fun w => { w with resetLow := true }).power.resetLow, base.power.refclk,
     !(pins fun w => { w with refclk := false }).power.refclk, base.power.latchClosed, !(pins fun w => { w with latchClosed := false }).power.latchClosed, !base.power.btnDown,
     let s := pins fun w => { w with btnDown := true }
     s.power.btnDown && !s.power.trip && !s.power.railFault && s.power.latchClosed && decide (4 ≤ s.start.stage), (pins fun w => { w with btnDown := true, trip := true }).power.trip,
     let s := (pins fun w => { w with btnDown := true }).modLaser 2 fun x => { x with present := true, st := 2 }
     (s.modPower fun w => { w with btnDown := false }).cancelTarget == none, base.power.powered && base.power.i3cOff == 0] = true := by decide

theorem test_meets_PowerLimits : all
    [(pins fun w => { w with vchanged := [0] }).power.vchanged.contains 0, !(base.power.vchanged.contains 0),
     let n := base.railNominal 0
     decide (n.1 ≤ n.2) && (Tbl.get Rail.reset base.power.rails 0).out == 0, (Tbl.get Rail.reset (pins fun w => { w with rails := [(0, ⟨0, 0, 1⟩)] }).power.rails 0).out == 1,
     decide (floorClock 0 < 1800) && varClock 0, !base.power.trip, (base.island 0).up && (base.island 1).up && (base.island 0).mhz == (base.island 1).mhz && !(base.island 0).clamped,
     let s := base.modIsland 1 fun k => { k with mhz := 400 }
     decide (4 * (s.island 1).mhz < (s.island 0).mhz) && decide ((s.island 0).mhz ≤ 5 * (s.island 1).mhz),
     let s := base.modIsland 1 fun k => { k with mhz := 300 }
     decide (5 * (s.island 1).mhz < (s.island 0).mhz),
     let s := pins fun w => { w with trip := true, pwrgd := false }
     s.power.trip && !s.power.pwrgd] = true := by decide

def starting (n : Nat) : State := { stage n with places := Places.reset }

theorem test_meets_StagedStart : all
    [let s := State.reset.modPower fun w => { w with powered := true }
     s.power.powered && !s.power.pwrgd, (starting 0).atStage 1, (starting 1).atStage 2, (starting 2).atStage 3 && ((starting 2).island islCores).up && ((starting 2).core 0).st != 2,
     (starting 3).atStage 4, (starting 2).startRuns,
     ((starting 0).modStart fun x => { x with fuseBad := true }).start.fuseBad, !(starting 0).start.fuseBad,
     (let s := (starting 4).modStart fun x => { x with joinAsked := true, placeGiven := some (5, 1) }
      s.atStage 5 && s.start.joinAsked && s.start.placeGiven == some (5, 1))] = true := by decide

theorem test_meets_RestartsAndFlash : all
    [!base.log.halted && base.log.lockstepAt == none, (base.modLog fun l => { l with lockstepAt := some 0 }).log.lockstepAt == some 0,
     (base.modLog fun l => { l with restarting := true }).log.restarting, (base.modSunas fun u => { u with handOver := some (0, false, false, false) }).sunas.handOver != none,
     (base.logEv "FW_COMMITTED" 5 0 0xFF []).log.ring.length == 1 && decide (([] : List LogRec).length + 0 < 1),
     let s := base.modLog fun l => { l with pinnedQueue := [⟨2, 0, 0⟩] }
     s.log.pinnedQueue != [] && s.log.pinnedFree != 0, (base.modLog fun l => { l with pinnedHeld := [⟨2, 0, 0⟩], pinnedFree := 0 }).log.pinnedFree == 0] = true := by decide

theorem test_meets_CommandsThatStoreNothing : base.bad = [] ∧ ∃ u, exec (.nop 0 0 MemFaults.none) (running 0) = .next u := ⟨rfl, _, rfl⟩

/-! ### The spec's worked cases, each one operation -/

/-- 470, 300, −3.3, 0.001 and zeros as MXFP8 E4M3 (Number Formats). -/
theorem test_mx_block : (let r := mxEncode .e4m3 .rne .saturate ([470, 300].map (fun n => FVal.ofInt n 0) ++
      [fp32.decode 0xC0533333, fp32.decode 0x3A83126F] ++ List.replicate 28 (FVal.ofInt 0 0))
    r.1 = 0x7F ∧ r.2.1.take 5 = [0x7E, 0x79, 0xC5, 0x01, 0x00]) := by decide

/-- 0x0012_3456_7AC0 lies on H5, at 0x2_468A_CFC0 (HBM Memory, fine mode). -/
theorem test_fine_mode : base.stackOf 0x001234567AC0 = some (5, 0x2468ACFC0) := by decide

/-- 0x4880_2000_1000 is byte 0x2000_1000 of slot 17 (Domain Memory). -/
theorem test_aperture : apSlot 0x488020001000 = 17 ∧ apAddr 0x488020001000 = 0x20001000 := by decide

/-- Window of view 5 (Scope). -/
theorem test_view_window : localKind 0x010500000000 = .view 5 0 := by decide

/-- Q15 products and their rounding (Application Cores): 0.5 × 0.75, a tie under each mode, and the saturation of −1 × −1. -/
theorem test_svmulhr : (satSigned 16 (fxRound 0 (0x4000 * 0x6000) 15)).1 = 0x3000 ∧ [0, 1, 2, 3].map (fun m => fxRound m (1 * 0x4000) 15) = [1, 0, 0, 0] ∧
    satSigned 16 (fxRound 0 (toSigned 16 0x8000 * toSigned 16 0x8000) 15) = (0x7FFF, true) := by decide

/-- MEM_REGULATOR of 0xFF, 1, 32, 64, 20 (Sunas Mailboxes): its payload and word 0 of its header. -/
theorem test_pack : packFields [(1, 0xFF), (1, 1), (2, 0x20), (2, 0x40), (1, 0x14)] = [0xFF, 0x01, 0x20, 0x00, 0x40, 0x00, 0x14] ∧
    headerWord ((ask base 56 kMemRegulator [(1, 0xFF), (1, 1), (2, 0x20), (2, 0x40), (1, 0x14)]).mbox 56).header 0 = 0x0000000800000201 := by decide

/-- The receiver that expects 4,090: SEQ 5 is ahead and answered by a NAK, 4,089 is behind (Optical Ports). -/
theorem test_nak : (match exec (.dataFrame 0 (frameOf frData 5)) (port0 fun p => { p with st := stActive, expected := 4090 }) with
    | .next u => u.out
    | .fault _ => []
    | .refused _ => []) = [.frame 0 frNak 4090] := by decide

/-- Element (0, 0) of the 4 × 4 block of s = 3: 44,249,856 · 2^-23 as an FP64 code (Sliced-64). -/
theorem test_mcmb : mcmbElem 3 44249856 2 3 0 = 0x4015199800000000 := by decide +kernel

/-- Place 100,522 is hall 3, domain 17, slot 42 (Places and Limits). -/
theorem test_place : hallOf 100522 = 3 ∧ domainOf 100522 = 17 ∧ 100522 % 128 = 42 := by decide

/-- A program of one step: `LI g1, −1` moves on by 16 and writes g1. -/
theorem test_li : (match exec (.li 0 0 MemFaults.none) (running (wordC 2 1 0 0 0 (2 ^ 64 - 1))) with
    | .next u => (greg (u.ctx 0 0).g 1, (u.ctx 0 0).pc)
    | .fault _ => (0, 0)
    | .refused _ => (0, 0)) = (0xFFFFFFFFFFFFFFFF, BitVec.ofNat 64 (spmBase 0 + 16)) := by decide

/-- A core's load of the byte 0x80 at 0x1000000, signed. -/
theorem test_core_load : (match exec (.coreLoad 0 0 true false false 6 5 0 MemFaults.none)
      { core0 fun c => { c with x := [(5, 0x1000000)] } with mem := Memory.write [] 0x1000000 0x80 } with
    | .next u => ((u.core 0).xr 6, (u.core 0).pc)
    | .fault _ => (0, 0)
    | .refused _ => (0, 0)) = (0xFFFFFFFFFFFFFF80, 4) := by decide

/-- The first word of a tray-bus write is the offset of the next read (R1066). -/
theorem test_i3c : (match exec (.i3cPrivateWrite 0x100 []) base with
    | .next u => u.power.i3cOff
    | .fault _ => 0
    | .refused _ => 0) = 0x100 := by decide

end Sys2Proof.Tests
end

section
/-!
PROOF. The pieces of an operation (R607, R671), and the counter ports of the application cores (R653 to R657).
-/
namespace Sys2Proof.Machine

open Sys2Proof

/-! ### Pieces of an operation -/

/-- The list cuts the n bytes that begin `off` bytes after address a into adjoining pieces, none of them empty and each in
one 256-byte block (R607). -/
inductive CutsRange (a : Nat) : Nat → Nat → List (Nat × Nat) → Prop
  | nil (off : Nat) : CutsRange a off 0 []
  | cons {off m n : Nat} {ps : List (Nat × Nat)} (pos : 0 < m) (inBlock : (a + off) / 256 = (a + off + m - 1) / 256)
      (rest : CutsRange a (off + m) n ps) : CutsRange a off (m + n) ((off, m) :: ps)

@[simp] theorem splitFuel_zero_length (k a off : Nat) : splitFuel k a off 0 = [] := by
  cases k <;> simp [splitFuel]

/-- With fuel for every block that the range touches, the split cuts it: the first piece ends the range or a block, and
what is left then begins at a boundary and touches one block fewer. -/
theorem splitFuel_cutsRange (a k off n : Nat) (fuel : 0 < n → (a + off) % 256 + n ≤ 256 * k) :
    CutsRange a off n (splitFuel k a off n) := by
  induction k generalizing off n with
  | zero =>
    obtain rfl : n = 0 := by omega
    exact .nil off
  | succ k ih =>
    rcases Nat.eq_zero_or_pos n with rfl | hn
    · simpa using CutsRange.nil off
    · have hfuel := fuel hn
      have hrest := ih (off + min n (256 - (a + off) % 256)) (n - min n (256 - (a + off) % 256)) (by omega)
      have hcut := CutsRange.cons (by omega) (by omega) hrest
      rw [Nat.add_sub_cancel' (Nat.min_le_left _ _)] at hcut
      simpa only [splitFuel, if_neg hn.ne'] using hcut

theorem splitPieces_cutsRange (a n : Nat) : CutsRange a 0 n (splitPieces a n) :=
  splitFuel_cutsRange a (n / 256 + 2) 0 n (by omega)

namespace CutsRange

variable {a off n : Nat} {ps : List (Nat × Nat)}

theorem piece_within (h : CutsRange a off n ps) : ∀ p ∈ ps, off ≤ p.1 ∧ p.1 + p.2 ≤ off + n := by
  induction h with
  | nil => simp
  | cons _ _ _ ih =>
    intro p hp
    rcases List.mem_cons.mp hp with rfl | hp
    · simp
    · have := ih p hp
      omega

theorem piece_in_block (h : CutsRange a off n ps) :
    ∀ p ∈ ps, 0 < p.2 ∧ (a + p.1) / 256 = (a + p.1 + p.2 - 1) / 256 := by
  induction h with
  | nil => simp
  | cons pos inBlock _ ih => exact List.forall_mem_cons.mpr ⟨⟨pos, inBlock⟩, ih⟩

theorem sum_lengths (h : CutsRange a off n ps) : (ps.map (·.2)).sum = n := by
  induction h with
  | nil => rfl
  | cons _ _ _ ih => simp [ih]

theorem covers (h : CutsRange a off n ps) (x : Nat) (lo : off ≤ x) (hi : x < off + n) : ∃ p ∈ ps, p.1 ≤ x ∧ x < p.1 + p.2 := by
  induction h with
  | nil => omega
  | @cons off m n ps _ _ _ ih =>
    by_cases hx : x < off + m
    · exact ⟨(off, m), List.mem_cons_self, lo, hx⟩
    · obtain ⟨p, hp, hcov⟩ := ih (by omega) (by omega)
      exact ⟨p, List.mem_cons_of_mem _ hp, hcov⟩

theorem pairwise_adjoining (h : CutsRange a off n ps) : ps.Pairwise fun p q => p.1 + p.2 ≤ q.1 := by
  induction h with
  | nil => exact .nil
  | cons _ _ rest ih => exact .cons (fun q hq => (rest.piece_within q hq).1) ih

end CutsRange

/-- A range that fits in what is left of its block is one piece. -/
theorem splitPieces_of_fits (a n : Nat) (hn : 0 < n) (fits : a % 256 + n ≤ 256) : splitPieces a n = [(0, n)] := by
  have hmin : min n (256 - (a + 0) % 256) = n := by omega
  rw [splitPieces, splitFuel, if_neg hn.ne', hmin]
  simp

/-- Settles O19: the split cuts the range (`CutsRange`), and aligned bytes of an atomic never meet a boundary. -/
theorem piecesCoverTheRange : Obligations.PiecesCoverTheRange := by
  intro a n
  have hcuts := splitPieces_cutsRange a n
  refine ⟨fun p hp => ?_, hcuts.sum_lengths, fun x hx => hcuts.covers x (by omega) (by omega), hcuts.pairwise_adjoining,
    fun hn ha => splitPieces_of_fits a n (by omega) ?_⟩
  · obtain ⟨pos, inBlock⟩ := hcuts.piece_in_block p hp
    have := hcuts.piece_within p hp
    exact ⟨pos, by omega, inBlock⟩
  · rcases hn with rfl | rfl <;> omega

/-! ### Counter ports -/

@[simp] theorem State.modCtPort_ctPort (s : State) (t h : Nat) (f : CtPort → CtPort) :
    (s.modCtPort t h f).ctPort t h = f (s.ctPort t h) := by
  simp [State.ctPort, State.modCtPort, Tbl.get_upd]

@[simp] theorem State.modCtPort_ctr (s : State) (t h n : Nat) (f : CtPort → CtPort) : (s.modCtPort t h f).ctr n = s.ctr n := rfl

@[simp] theorem State.modCtPort_core (s : State) (t h k : Nat) (f : CtPort → CtPort) : (s.modCtPort t h f).core k = s.core k := rfl

@[simp] theorem State.modCtPort_ownsCtr (s : State) (t h p n : Nat) (f : CtPort → CtPort) :
    (s.modCtPort t h f).ownsCtr p n = s.ownsCtr p n := rfl

/-- Two changes of one port are one. -/
theorem State.modCtPort_modCtPort (s : State) (t h : Nat) (f g : CtPort → CtPort) :
    (s.modCtPort t h f).modCtPort t h g = s.modCtPort t h fun p => g (f p) := by
  simp only [State.modCtPort, State.modTile_modTile, Tbl.upd_upd]

/-- Register r of core h's port stands at 0x1000 + 32h of the counter block (R653). -/
theorem portAt_port {o h r : Nat} (ho : o = 0x1000 + 32 * h + r) (hh : h < 64) (hr : r < 32) : portAt o = some (h, r) := by
  have hcore : (o - 0x1000) / 32 = h := by omega
  have hreg : (o - 0x1000) % 32 = r := by omega
  rw [portAt, if_pos (by omega), hcore, hreg]

theorem bounds_of_portAt {o : Nat} {x : Nat × Nat} (ho : portAt o = some x) : 0x1000 ≤ o ∧ o < 0x1800 := by
  by_contra hn
  rw [portAt, if_neg hn] at ho
  cases ho

/-- A port takes a write of its own core (R654). -/
theorem State.writeRow_ctPort (s : State) {t : Nat} {h : Fin 64} {a o r : Nat} (v : W32) (hat : blockAt a = some (.ct t, o))
    (hport : portAt o = some (h.val, r)) (runs : (s.core h).runs = true) (up : s.hcStopped t = false) :
    s.writeRow (.core h) a v = s.ctPortWrite t h r v.toNat := by
  obtain ⟨lo, hi⟩ := bounds_of_portAt hport
  have hctrl : o ≠ 0 := by omega
  simp [State.writeRow, State.regWrite, State.masterRuns, runs, hat, State.blockRefuses, up, State.writeBlock, Blk.indexes,
    Blk.common, hctrl, hport]

/-- A port answers a read of its own core (R654). -/
theorem State.readRow_ctPort (s : State) {t : Nat} {h : Fin 64} {a o r : Nat} (hat : blockAt a = some (.ct t, o))
    (hport : portAt o = some (h.val, r)) (runs : (s.core h).runs = true) (up : s.hcStopped t = false) :
    s.readRow (.core h) a = (s.ctPortRead t h r).2.emit (.regRead a (BitVec.ofNat 32 (s.ctPortRead t h r).1)) := by
  obtain ⟨lo, hi⟩ := bounds_of_portAt hport
  have hctrl : o ≠ 0 := by omega
  have hflags : o ≠ 4 := by omega
  have hlo : o ≠ 8 := by omega
  have hhi : o ≠ 0xC := by omega
  simp [State.readRow, State.regRead, State.masterRuns, runs, hat, State.blockRefuses, up, State.readBlock, Blk.baseOff,
    Blk.indexes, Blk.common, State.readPlain, hctrl, hflags, hlo, hhi, hport]

/-- An operation on a counter of the core's partition is performed, on the port that holds its number (R653). -/
theorem State.ctPortStart_owned (s : State) (t h op : Nat) (hop : op < 6)
    (own : s.ownsCtr (s.core h).spart (t * 32768 + (s.ctPort t h).num) = true) :
    s.ctPortStart t h op = (s.modCtPort t h fun p => { p with op := op }).ctPortOp t h op (t * 32768 + (s.ctPort t h).num) := by
  have hmod : op % 16 = op := by omega
  simp [State.ctPortStart, hmod, Nat.not_le.mpr hop, own]

/-- An operation on a counter of another partition is not performed (R655). -/
theorem State.ctPortStart_foreign (s : State) (t h op : Nat) (hop : op < 6)
    (foreign : s.ownsCtr (s.core h).spart (t * 32768 + (s.ctPort t h).num) = false) :
    s.ctPortStart t h op = (s.modCtPort t h fun p => { p with op := op, res := 0 }).setFlag (lnCt t) fCtPort := by
  have hmod : op % 16 = op := by omega
  simp [State.ctPortStart, hmod, Nat.not_le.mpr hop, foreign, State.modCtPort_modCtPort]

/-- The command of the port operation with code `op` (R653); noncomputable because compiled code cannot tag so many
constructors. -/
noncomputable def ctPortInstr (t : Fin 4) (h : Fin 64) : Fin 6 → Instr
  | 0 => .ctPortRead t h
  | 1 => .ctPortAdd t h
  | 2 => .ctPortSet t h
  | 3 => .ctPortCas t h
  | 4 => .ctPortArm t h
  | 5 => .ctPortDisarm t h

/-- A port operation is a write of its code to the port's second register. -/
theorem exec_ctPortInstr (t : Fin 4) (h : Fin 64) (op : Fin 6) (s : State) :
    exec (ctPortInstr t h op) s = .next (s.writeRow (.core h) (ctBase t + 0x1004 + 32 * h) (BitVec.ofNat 32 op)) := by
  match op with
  | 0 | 1 | 2 | 3 | 4 | 5 => rfl

theorem exec_ctPResLoRead (t : Fin 4) (h : Fin 64) (s : State) :
    exec (.ctPResLoRead t h) s = .next (s.readRow (.core h) (ctBase t + 0x1018 + 32 * h)) := rfl

/-- The address of register r of core h's port lies in the counter block of Tiller t. -/
theorem blockAt_ctPort (t : Fin 4) (h : Fin 64) {o : Nat} (ho : o < 0x1020) :
    blockAt (ctBase t + o + 32 * h) = some (.ct t, o + 32 * h) := by
  rw [Nat.add_assoc, blockAt_ct t _ t.isLt (by omega)]

section
variable {s : State} {t : Fin 4} {h : Fin 64} (runs : (s.core h).runs = true)
include runs

/-- A port operation starts where the memory island that holds the ports is up. -/
theorem runs_ctPortInstr (up : s.hcStopped t = false) (op : Fin 6) :
    Runs (ctPortInstr t h op) s (s.ctPortStart t h op) := by
  have hport : portAt (0x1004 + 32 * h) = some (h.val, 4) := portAt_port (by omega) h.isLt (by omega)
  have hop : (BitVec.ofNat 32 op).toNat = op.val := by
    rw [BitVec.toNat_ofNat]; omega
  rw [Runs, exec_ctPortInstr, s.writeRow_ctPort _ (blockAt_ctPort t h (by omega)) hport runs up, hop]
  rfl

theorem runs_ctPortInstr_stopped (stopped : s.hcStopped t = true) (op : Fin 6) :
    Runs (ctPortInstr t h op) s (s.regRefuse (.core h) true (ctBase t + 0x1004 + 32 * h) reasonIsland) := by
  rw [Runs, exec_ctPortInstr, s.writeRow_refused (.core h) _ _ _ _ runs (blockAt_ctPort t h (by omega)) stopped]

/-- A read of the result's low half answers it and latches the high half (R656). -/
theorem runs_ctPResLoRead (up : s.hcStopped t = false) :
    Runs (.ctPResLoRead t h) s
      ((s.modCtPort t h fun p => { p with resHiLatch := BitVec.ofNat 32 (p.res.toNat / 2 ^ 32), latched := true }).emit
        (.regRead (ctBase t + 0x1018 + 32 * h) (BitVec.ofNat 32 ((s.ctPort t h).res.toNat % 2 ^ 32)))) := by
  have hport : portAt (0x1018 + 32 * h) = some (h.val, 0x18) := portAt_port (by omega) h.isLt (by omega)
  rw [Runs, exec_ctPResLoRead, s.readRow_ctPort (blockAt_ctPort t h (by omega)) hport runs up]
  rfl

theorem runs_ctPResLoRead_stopped (stopped : s.hcStopped t = true) :
    Runs (.ctPResLoRead t h) s (s.regRefuse (.core h) false (ctBase t + 0x1018 + 32 * h) reasonIsland) := by
  rw [Runs, exec_ctPResLoRead, s.readRow_refused (.core h) _ _ _ runs (blockAt_ctPort t h (by omega)) stopped]

end

/-- Settles O46: each operation is a write of its code to the core's port, which performs it on a counter of the partition
(`ctPortStart_owned`), answers 0 on another's (`ctPortStart_foreign`), or is refused with the stopped island. -/
theorem counterPorts : Obligations.CounterPorts := by
  intro s t h runs p n done refused armed
  refine ⟨fun up own => ?_, fun up foreign => ?_, fun up => runs_ctPResLoRead runs up, fun stopped => ?_⟩
  · have performed (op : Fin 6) :
        Runs (ctPortInstr t h op) s ((s.modCtPort t h fun p => { p with op := op }).ctPortOp t h op n) := by
      simpa only [s.ctPortStart_owned t h op op.isLt own] using runs_ctPortInstr runs up op
    simp only [State.ctPortOp, State.modCtPort_modCtPort, State.modCtPort_ctr, State.modCtPort_ctPort] at performed
    exact ⟨performed 0, performed 1, performed 2, performed 3, performed 4, performed 5⟩
  · have answered (op : Fin 6) : Runs (ctPortInstr t h op) s (refused op) := by
      simpa only [s.ctPortStart_foreign t h op op.isLt foreign] using runs_ctPortInstr runs up op
    exact ⟨answered 0, answered 1, answered 2, answered 3, answered 4, answered 5⟩
  · have answered := runs_ctPortInstr_stopped runs stopped
    exact ⟨answered 0, answered 1, answered 2, answered 3, answered 4, answered 5, runs_ctPResLoRead_stopped runs stopped⟩

end Sys2Proof.Machine
end

section
/-!
PROOF. The limits of voltage, temperature and power, and of the pairs of islands (R36, R48 to R55, R1076 to R1088).
-/
namespace Sys2Proof.Machine

open Sys2Proof

/-! ### Set-points and rails -/

section
variable {s : State} {k v : Nat}

theorem State.vackWrite_confirms (changed : s.power.vchanged.contains k = true) (lo : 600 ≤ v) (hi : v ≤ 850) :
    s.vackWrite k v = s.modPower fun w =>
      { w with vack := Tbl.set w.vack k v, vchanged := if Tbl.get 750 w.vset k = v then w.vchanged.filter (· != k) else w.vchanged } := by
  rw [State.vackWrite, if_neg]
  rw [changed]
  simp [lo, hi]

theorem State.vackWrite_ignored (h : v < 600 ∨ 850 < v ∨ s.power.vchanged.contains k = false) :
    s.vackWrite k v = s.setFlag lnPw fPwCfg := by
  rw [State.vackWrite, if_pos (by simpa using h)]

end

theorem exec_vsetTimeout (s : State) (k : Fin 6) (changed : s.power.vchanged.contains k.val = true) :
    exec (.vsetTimeout k) s = .next (((s.modPower fun w => { w with faults := sat32 (w.faults + 1) }).setFlag lnPw fPwRail).logEv
      "VSET_TIMEOUT" 5 0 0xFF [(4, k.val), (4, Tbl.get 750 s.power.vset k.val)]) :=
  congrArg Host.Outcome.next (if_neg (by rw [changed]; simp))

theorem exec_railSample (s : State) (samples : List (Nat × Nat)) (watts : Nat) (good : s.power.pwrgd = true) :
    exec (.railSample samples watts) s = .next ((samples.zipIdx.take 11).foldl
      (fun s x => s.railSample x.2 (x.1.1 % 65536) (x.1.2 % 65536)) (s.modPower fun w => { w with packageWatts := watts })) :=
  congrArg Host.Outcome.next (if_neg (by simp [good]))

/-- The state with the rail's sample recorded as the `out`-th in a row out of tolerance. -/
def State.recordRail (s : State) (r mv amps out : Nat) : State :=
  s.modPower fun w => { w with rails := Tbl.set w.rails r ⟨mv, amps, out⟩ }

section
variable {s : State} {r mv amps : Nat}

theorem State.railSample_within (within : s.railOut r mv = false) : s.railSample r mv amps = s.recordRail r mv amps 0 := by
  simp [State.railSample, State.recordRail, within]

theorem State.railSample_first_out (out : s.railOut r mv = true) (was : (Tbl.get Rail.reset s.power.rails r).out = 0) :
    s.railSample r mv amps = s.recordRail r mv amps 1 := by
  simp [State.railSample, State.recordRail, out, was]

theorem State.railSample_second_out (main : r < 9) (out : s.railOut r mv = true)
    (was : (Tbl.get Rail.reset s.power.rails r).out = 1) :
    s.railSample r mv amps = (s.recordRail r mv amps 2).railFault r mv := by
  simp [State.railSample, State.recordRail, main, out, was]

end

/-! ### Temperature and power -/

section
variable {s : State} {t : Nat}

theorem State.powerHold_of_le_share (within : (s.island t).watts ≤ s.tillerShare) : s.powerHold t = s := by
  simp [State.powerHold, Nat.not_lt.mpr within]

/-- The clock that the hold chooses is free between the floor and the clock it lowers (R1082). -/
theorem State.powerHold_of_share_lt (up : (s.island t).up = true) (excess : s.tillerShare < (s.island t).watts)
    (above : 800 < (s.island t).mhz) :
    ∃ m, 800 ≤ m ∧ m < (s.island t).mhz ∧ (s.powerHold t).island t = { s.island t with mhz := m } := by
  have below := Nat.mod_lt (s.fresh 16).1.toNat (Nat.sub_pos_of_lt above)
  refine ⟨800 + (s.fresh 16).1.toNat % ((s.island t).mhz - 800), by omega, by omega, ?_⟩
  rw [State.powerHold, if_pos (by simp [up, excess, above]), State.modIsland_island]
  rfl

end

section
variable {s : State} {i : Nat} {temp : Int}

theorem State.varThermal_holds (lo : 97 ≤ temp) (hi : temp < 100) : s.varThermal i temp = s := by
  rw [State.varThermal, if_neg (by omega), if_pos hi]

theorem State.varThermal_throttles (lo : 100 ≤ temp) (hi : temp < 105) :
    s.varThermal i temp = (s.throttle i temp).modIsland i fun k => { k with mhz := max (floorClock i) (k.mhz - 100) } := by
  rw [State.varThermal, if_neg (by omega), if_neg (by omega), if_pos hi]

theorem State.varThermal_floors (lo : 105 ≤ temp) (hi : temp < 110) :
    s.varThermal i temp = ((s.throttle i temp).setFlag lnPw fPwThermal).modIsland i fun k => { k with mhz := min k.mhz (floorClock i) } := by
  rw [State.varThermal, if_neg (by omega), if_neg (by omega), if_neg (by omega), if_pos (.inl hi)]

theorem State.varThermal_stops (lo : 110 ≤ temp) (hi : temp < 115) (floor : (s.island i).mhz ≤ floorClock i) :
    s.varThermal i temp = s.stopIsland i := by
  rw [State.varThermal, if_neg (by omega), if_neg (by omega), if_neg (by omega), if_neg (by omega), if_pos hi]

theorem State.varThermal_trips (lo : 115 ≤ temp) : s.varThermal i temp = s.thermTrip 9 i temp := by
  rw [State.varThermal, if_neg (by omega), if_neg (by omega), if_neg (by omega), if_neg (by omega), if_neg (by omega)]

theorem State.fixedThermal_trips (lo : 115 ≤ temp) : s.fixedThermal i temp = s.thermTrip 9 i temp := by
  rw [State.fixedThermal, if_pos lo]

theorem State.fixedThermal_of_warned (lo : 105 ≤ temp) (hi : temp < 115) (warned : (s.island i).warned = true) :
    s.fixedThermal i temp = s := by
  rw [State.fixedThermal, if_neg (by omega), if_neg (by omega), if_pos warned]

end

/-- The first trip: asserted, reported and logged, before everything stops and the start fails with reason 7
(R1086 to R1088). -/
theorem State.thermTrip_of_untripped (s : State) (source idx : Nat) (temp : Int) (untripped : s.power.trip = false) :
    s.thermTrip source idx temp =
      (((((s.modPower fun w => { w with trip := true }).setFlag lnPw fPwThermal).ibi 4).logEv "THERMTRIP" source idx 0xFF
        [(1, idx), (4, twos 4 temp)]).stopAll).stageFail (min (s.start.stage + 1) 5) 7 :=
  if_neg (by simp [untripped])

theorem exec_thermtripRelease (s : State) (trip : s.power.trip = true) (low : s.power.pwrgd = false) :
    exec .thermtripRelease s = .next (s.modPower fun w => { w with trip := false }) :=
  congrArg Host.Outcome.next (if_pos (by simp [trip, low]))

/-! ### Samples of the islands, and their pairs -/

theorem exec_islandSample (s : State) (samples : List (Nat × Int × Nat)) (requests : List (Nat × Nat)) :
    exec (.islandSample samples requests) s = execIslandSample samples requests s := rfl

theorem pairBeyond_ratio {a b : Island} {ratio : Nat} (mv : Nat) (temp : Int) (h : ratio * min a.mhz b.mhz < max a.mhz b.mhz) :
    pairBeyond a b ratio mv temp = some (0, max a.mhz b.mhz * 100 / max (min a.mhz b.mhz) 1) :=
  if_pos h

theorem pairBeyond_eq_none {a b : Island} {ratio mv : Nat} {temp : Int} (clock : max a.mhz b.mhz ≤ ratio * min a.mhz b.mhz)
    (supply : max a.mv b.mv - min a.mv b.mv ≤ mv) (heat : max a.temp b.temp - min a.temp b.temp ≤ temp) :
    pairBeyond a b ratio mv temp = none := by
  simp [pairBeyond, Nat.not_lt.mpr clock, Nat.not_lt.mpr supply, Int.not_lt.mpr heat]

/-- Islands with one clock and one supply differ in temperature alone. -/
theorem pairBeyond_of_eq {a b : Island} {ratio mv : Nat} {temp : Int} (one : 1 ≤ ratio) (clock : a.mhz = b.mhz)
    (supply : a.mv = b.mv) (heat : max a.temp b.temp - min a.temp b.temp ≤ temp) : pairBeyond a b ratio mv temp = none :=
  pairBeyond_eq_none (by rw [clock, max_self, min_self]; exact Nat.le_mul_of_pos_left b.mhz one) (by omega) heat

theorem fasterOf_of_lt (i j : Nat) {a b : Island} (faster : b.mhz < a.mhz) : fasterOf i j a b = i := by
  rw [fasterOf, if_pos faster.ne', if_pos faster]

section
variable {s : State} {i j : Nat} (iUp : (s.island i).up = true) (jUp : (s.island j).up = true)
include iUp jUp

theorem State.pairSample_within (margin : pairBeyond (s.island i) (s.island j) 5 260 50 = none)
    (limits : pairBeyond (s.island i) (s.island j) 4 200 40 = none) : s.pairSample i j = s := by
  simp [State.pairSample, iUp, jUp, margin, limits]

/-- The faster island of a pair beyond the bridge margin, a Tiller, is stopped (R51, R55). -/
theorem State.pairSample_stops {l v : Nat} (margin : pairBeyond (s.island i) (s.island j) 5 260 50 = some (l, v))
    (tiller : i < 4) (faster : (s.island j).mhz < (s.island i).mhz) :
    s.pairSample i j = (s.logPair "ISLAND_STOP" (some i) i j l v).stopIsland i := by
  have clocked : i ≠ islScarab ∧ i ≠ islCricket := by simp [islScarab, islCricket]; omega
  simp [State.pairSample, iUp, jUp, margin, fasterOf_of_lt i j faster, clocked]

/-- The faster island of a pair beyond the limits, a Tiller, is clamped (R48, R54). -/
theorem State.pairSample_clamps {l v : Nat} (margin : pairBeyond (s.island i) (s.island j) 5 260 50 = none)
    (limits : pairBeyond (s.island i) (s.island j) 4 200 40 = some (l, v)) (tiller : i < 4)
    (faster : (s.island j).mhz < (s.island i).mhz) (free : (s.island i).clamped = false)
    (running : s.log.restarting = false) (alive : s.log.halted = false) :
    s.pairSample i j = (s.modIsland i fun k => { k with clamped := true, good := 0 }).logPair "ISLAND_CLAMP" (some i) i j l v := by
  simp [State.pairSample, iUp, jUp, margin, limits, fasterOf_of_lt i j faster, varClock, tiller, free, running, alive]

end

/-- Settles O57: each clause is the case of its operation that the measured value selects. -/
theorem powerLimits : Obligations.PowerLimits := by
  intro s w
  refine ⟨fun t => rfl, fun k v changed => ?changedSetPoint, fun k v unchanged => ?unchangedSetPoint,
    fun samples watts => exec_railSample s samples watts, ?rail, fun temps => rfl,
    fun t => ⟨State.powerHold_of_le_share, State.powerHold_of_share_lt⟩, ?junction, ?trip, exec_thermtripRelease s, ?islands, ?pair⟩
  case changedSetPoint =>
    exact ⟨fun lo hi => congrArg Host.Outcome.next (State.vackWrite_confirms changed lo hi),
      fun outside => congrArg Host.Outcome.next (State.vackWrite_ignored (or_assoc.mp (.inl outside))), exec_vsetTimeout s k changed⟩
  case unchangedSetPoint => exact congrArg Host.Outcome.next (State.vackWrite_ignored (.inr (.inr unchanged)))
  case rail =>
    intro r mv amps main n bad was sampled faulted
    have faults (out : bad) (second : was = 1) : s.railSample r mv amps = (s.recordRail r mv amps 2).railFault r mv :=
      State.railSample_second_out main (decide_eq_true out) second
    exact ⟨fun within => State.railSample_within (decide_eq_false within),
      fun out first => State.railSample_first_out (decide_eq_true out) first,
      fun out second core => (faults out second).trans (if_pos core),
      fun out second shared => (faults out second).trans (if_neg (Nat.not_lt.mpr shared))⟩
  case junction =>
    intro i temp k
    exact ⟨State.varThermal_holds, State.varThermal_throttles, State.varThermal_floors, State.varThermal_stops,
      fun hot => ⟨State.varThermal_trips hot, State.fixedThermal_trips hot⟩, State.fixedThermal_of_warned⟩
  case trip =>
    intro idx temp untripped u
    exact ⟨congrArg Host.Outcome.next (s.thermTrip_of_untripped 9 idx temp untripped),
      congrArg Host.Outcome.next (s.thermTrip_of_untripped 0 idx temp untripped)⟩
  case islands =>
    intro samples requests _ _ u1 u2 u3 running alive
    have serves : ¬ (u3.log.restarting || u3.log.halted) = true := by simp [running, alive]
    rw [Runs, exec_islandSample, execIslandSample, if_neg serves]
  case pair =>
    intro i j a b iUp jUp
    refine ⟨fun clock supply heat => ?_, fun stop tiller => ?_, fun clamp margin supply heat tiller free running alive => ?_⟩
    · exact State.pairSample_within iUp jUp (pairBeyond_of_eq (by decide) clock supply (heat.trans (by decide)))
        (pairBeyond_of_eq (by decide) clock supply heat)
    · have beyond : 5 * min a.mhz b.mhz < max a.mhz b.mhz := by omega
      have faster : b.mhz < a.mhz := by omega
      exact ⟨_, State.pairSample_stops iUp jUp (pairBeyond_ratio 260 50 beyond) tiller faster⟩
    · have short : max a.mhz b.mhz ≤ 5 * min a.mhz b.mhz := by omega
      have beyond : 4 * min a.mhz b.mhz < max a.mhz b.mhz := by omega
      have faster : b.mhz < a.mhz := by omega
      exact ⟨_, State.pairSample_clamps iUp jUp (pairBeyond_eq_none short supply heat) (pairBeyond_ratio 200 40 beyond) tiller
        faster free running alive⟩

end Sys2Proof.Machine
end

section
/-!
What every command keeps (Laws/Kept.lean): the queue, the canonical form of memory, the direction of package time and of
the anti-rollback version, and the identity read from the fuses. One lemma for each command that is more than one call of
an operation; the commands that are one call cite that operation's lemma in `exec_kept`.
-/
namespace Sys2Proof.Machine

open Sys2Proof

/-! ### Two operations without such a lemma so far -/

theorem State.powerHold_kept {s₀ s : State} (t : Nat) (hs : Kept s₀ s) : Kept s₀ (s.powerHold t) := by
  unfold State.powerHold
  extract_lets k r
  split
  · exact State.modIsland_kept _ _ (State.fresh_kept _ hs)
  · exact hs

theorem State.chargeLines_kept {s₀ s : State} (d : List W64) (o : Source) (m nc : Nat) (lines : List EpiLine) (hs : Kept s₀ s) :
    Kept s₀ (s.chargeLines d o m nc lines) := by
  unfold State.chargeLines
  repeat' first
    | with_reducible assumption
    | with_reducible apply State.viewWriteCharge_kept
    | extract_lets
    | split

section
variable {s₀ s : State}

/-! ### The sequencer -/

theorem execNop_kept (t : Fin 4) (c : Fin 128) (mf : MemFaults) (hs : Kept s₀ s) :
    KeptOut s₀ (execNop t c mf s) := by
  unfold execNop
  refine .next ?_
  repeat' first
    | with_reducible assumption
    | with_reducible apply State.next_kept
    | with_reducible apply State.runInstr_kept
    | with_reducible apply State.seqFault_kept
    | split
    | intro _

theorem execEnd_kept (t : Fin 4) (c : Fin 128) (mf : MemFaults) (hs : Kept s₀ s) :
    KeptOut s₀ (execEnd t c mf s) := by
  unfold execEnd
  refine .next ?_
  repeat' first
    | with_reducible assumption
    | with_reducible apply State.runInstr_kept
    | with_reducible apply State.seqFault_kept
    | with_reducible apply State.endProgram_kept
    | split
    | intro _

theorem execEndAbort_kept (t : Fin 4) (c : Fin 128) (mf : MemFaults) (hs : Kept s₀ s) :
    KeptOut s₀ (execEndAbort t c mf s) := by
  unfold execEndAbort
  refine .next ?_
  repeat' first
    | with_reducible assumption
    | with_reducible apply State.runInstr_kept
    | with_reducible apply State.seqFault_kept
    | with_reducible apply State.endProgram_kept
    | split
    | intro _

theorem execLi_kept (t : Fin 4) (c : Fin 128) (mf : MemFaults) (hs : Kept s₀ s) :
    KeptOut s₀ (execLi t c mf s) := by
  unfold execLi
  refine .next ?_
  repeat' first
    | with_reducible assumption
    | with_reducible apply State.next_kept
    | with_reducible apply State.runInstr_kept
    | with_reducible apply State.seqFault_kept
    | extract_lets
    | split
    | intro _

theorem execAlu_kept (t : Fin 4) (c : Fin 128) (mf : MemFaults) (hs : Kept s₀ s) :
    KeptOut s₀ (execAlu t c mf s) := by
  unfold execAlu
  refine .next ?_
  repeat' first
    | with_reducible assumption
    | with_reducible apply State.next_kept
    | with_reducible apply State.runInstr_kept
    | with_reducible apply State.seqFault_kept
    | extract_lets
    | split
    | intro _

theorem execAlui_kept (t : Fin 4) (c : Fin 128) (mf : MemFaults) (hs : Kept s₀ s) :
    KeptOut s₀ (execAlui t c mf s) := by
  unfold execAlui
  refine .next ?_
  repeat' first
    | with_reducible assumption
    | with_reducible apply State.next_kept
    | with_reducible apply State.runInstr_kept
    | with_reducible apply State.seqFault_kept
    | extract_lets
    | split
    | intro _

theorem execLd_kept (t : Fin 4) (c : Fin 128) (mf : MemFaults) (hs : Kept s₀ s) :
    KeptOut s₀ (execLd t c mf s) := by
  unfold execLd
  refine .next ?_
  repeat' first
    | with_reducible assumption
    | with_reducible apply State.next_kept
    | with_reducible apply State.runInstr_kept
    | with_reducible apply State.seqFault_kept
    | with_reducible apply State.load_kept
    | with_reducible apply Kept.of_snd (by assumption)
    | extract_lets
    | split
    | intro _

theorem execSt_kept (t : Fin 4) (c : Fin 128) (mf : MemFaults) (hs : Kept s₀ s) :
    KeptOut s₀ (execSt t c mf s) := by
  unfold execSt
  refine .next ?_
  repeat' first
    | with_reducible assumption
    | with_reducible apply State.next_kept
    | with_reducible apply State.runInstr_kept
    | with_reducible apply State.seqFault_kept
    | with_reducible apply State.storeChecked_kept
    | with_reducible apply Kept.of_snd (by assumption)
    | extract_lets
    | split
    | intro _

theorem execBr_kept (t : Fin 4) (c : Fin 128) (mf : MemFaults) (hs : Kept s₀ s) :
    KeptOut s₀ (execBr t c mf s) := by
  unfold execBr
  refine .next ?_
  repeat' first
    | with_reducible assumption
    | with_reducible apply State.next_kept
    | with_reducible apply State.runInstr_kept
    | with_reducible apply State.seqFault_kept
    | with_reducible apply State.jump_kept
    | extract_lets
    | split
    | intro _

theorem execJal_kept (t : Fin 4) (c : Fin 128) (mf : MemFaults) (hs : Kept s₀ s) :
    KeptOut s₀ (execJal t c mf s) := by
  unfold execJal
  refine .next ?_
  repeat' first
    | with_reducible assumption
    | with_reducible apply State.runInstr_kept
    | with_reducible apply State.seqFault_kept
    | with_reducible apply State.jump_kept
    | extract_lets
    | split
    | intro _

theorem execJalr_kept (t : Fin 4) (c : Fin 128) (mf : MemFaults) (hs : Kept s₀ s) :
    KeptOut s₀ (execJalr t c mf s) := by
  unfold execJalr
  refine .next ?_
  repeat' first
    | with_reducible assumption
    | with_reducible apply State.runInstr_kept
    | with_reducible apply State.seqFault_kept
    | with_reducible apply State.jump_kept
    | extract_lets
    | split
    | intro _

theorem execYield_kept (t : Fin 4) (c : Fin 128) (mf : MemFaults) (hs : Kept s₀ s) :
    KeptOut s₀ (execYield t c mf s) := by
  unfold execYield
  refine .next ?_
  repeat' first
    | with_reducible assumption
    | with_reducible apply State.next_kept
    | with_reducible apply State.runInstr_kept
    | with_reducible apply State.seqFault_kept
    | with_reducible apply State.leave_kept
    | split
    | intro _

theorem execCsrr_kept (t : Fin 4) (c : Fin 128) (mf : MemFaults) (hs : Kept s₀ s) :
    KeptOut s₀ (execCsrr t c mf s) := by
  unfold execCsrr
  refine .next ?_
  repeat' first
    | with_reducible assumption
    | with_reducible apply State.next_kept
    | with_reducible apply State.runInstr_kept
    | with_reducible apply State.seqFault_kept
    | with_reducible apply State.fresh_kept
    | with_reducible apply Kept.of_snd (by assumption)
    | extract_lets
    | split
    | intro _

theorem execSfenceQueue_kept (t : Fin 4) (c : Fin 128) (mf : MemFaults) (hs : Kept s₀ s) :
    KeptOut s₀ (execSfenceQueue t c mf s) := by
  unfold execSfenceQueue
  refine .next ?_
  repeat' first
    | with_reducible assumption
    | with_reducible apply State.runInstr_kept
    | with_reducible apply State.seqFault_kept
    | with_reducible apply State.fenceOn_kept
    | extract_lets
    | split
    | intro _

theorem execSfenceAll_kept (t : Fin 4) (c : Fin 128) (mf : MemFaults) (hs : Kept s₀ s) :
    KeptOut s₀ (execSfenceAll t c mf s) := by
  unfold execSfenceAll
  refine .next ?_
  repeat' first
    | with_reducible assumption
    | with_reducible apply State.runInstr_kept
    | with_reducible apply State.seqFault_kept
    | with_reducible apply State.fenceOn_kept
    | extract_lets
    | split
    | intro _

theorem execSqwait_kept (t : Fin 4) (c : Fin 128) (mf : MemFaults) (hs : Kept s₀ s) :
    KeptOut s₀ (execSqwait t c mf s) := by
  unfold execSqwait
  refine .next ?_
  repeat' first
    | with_reducible assumption
    | with_reducible apply State.runInstr_kept
    | with_reducible apply State.seqFault_kept
    | with_reducible apply State.enqueue_kept
    | extract_lets
    | split
    | intro _

theorem execTadd_kept (t : Fin 4) (c : Fin 128) (mf : MemFaults) (hs : Kept s₀ s) :
    KeptOut s₀ (execTadd t c mf s) := by
  unfold execTadd
  refine .next ?_
  repeat' first
    | with_reducible assumption
    | with_reducible apply State.next_kept
    | with_reducible apply State.runInstr_kept
    | with_reducible apply State.seqFault_kept
    | with_reducible apply State.ctrAdd_kept
    | extract_lets
    | split
    | intro _

theorem execTset_kept (t : Fin 4) (c : Fin 128) (mf : MemFaults) (hs : Kept s₀ s) :
    KeptOut s₀ (execTset t c mf s) := by
  unfold execTset
  refine .next ?_
  repeat' first
    | with_reducible assumption
    | with_reducible apply State.next_kept
    | with_reducible apply State.runInstr_kept
    | with_reducible apply State.seqFault_kept
    | with_reducible apply State.ctrSet_kept
    | extract_lets
    | split
    | intro _

theorem execTcas_kept (t : Fin 4) (c : Fin 128) (mf : MemFaults) (hs : Kept s₀ s) :
    KeptOut s₀ (execTcas t c mf s) := by
  unfold execTcas
  refine .next ?_
  repeat' first
    | with_reducible assumption
    | with_reducible apply State.next_kept
    | with_reducible apply State.runInstr_kept
    | with_reducible apply State.seqFault_kept
    | with_reducible apply State.ctrSet_kept
    | extract_lets
    | split
    | intro _

theorem execTread_kept (t : Fin 4) (c : Fin 128) (mf : MemFaults) (hs : Kept s₀ s) :
    KeptOut s₀ (execTread t c mf s) := by
  unfold execTread
  refine .next ?_
  repeat' first
    | with_reducible assumption
    | with_reducible apply State.next_kept
    | with_reducible apply State.runInstr_kept
    | with_reducible apply State.seqFault_kept
    | extract_lets
    | split
    | intro _

theorem execTwait_kept (t : Fin 4) (c : Fin 128) (mf : MemFaults) (hs : Kept s₀ s) :
    KeptOut s₀ (execTwait t c mf s) := by
  unfold execTwait
  refine .next ?_
  repeat' first
    | with_reducible assumption
    | with_reducible apply State.next_kept
    | with_reducible apply State.runInstr_kept
    | with_reducible apply State.seqFault_kept
    | with_reducible apply State.leave_kept
    | extract_lets
    | split
    | intro _

theorem execQueueEntry_kept (t : Fin 4) (c : Fin 128) (mf : MemFaults) (hs : Kept s₀ s) :
    KeptOut s₀ (execQueueEntry t c mf s) := by
  unfold execQueueEntry
  refine .next ?_
  repeat' first
    | with_reducible assumption
    | with_reducible apply State.runInstr_kept
    | with_reducible apply State.enqueue_kept
    | split
    | intro _

theorem execUndefinedOpcode_kept (t : Fin 4) (c : Fin 128) (mf : MemFaults) (hs : Kept s₀ s) :
    KeptOut s₀ (execUndefinedOpcode t c mf s) := by
  unfold execUndefinedOpcode
  refine .next ?_
  repeat' first
    | with_reducible assumption
    | with_reducible apply State.runInstr_kept
    | with_reducible apply State.seqFault_kept
    | intro _

theorem execTimeSlice_kept (t : Fin 4) (c : Fin 128) (hs : Kept s₀ s) :
    KeptOut s₀ (execTimeSlice t c s) := by
  unfold execTimeSlice
  refine .next ?_
  repeat' first
    | with_reducible assumption
    | with_reducible apply State.leave_kept
    | split

theorem execContextWake_kept (t : Fin 4) (c : Fin 128) (hs : Kept s₀ s) :
    KeptOut s₀ (execContextWake t c s) := by
  unfold execContextWake
  refine .next ?_
  repeat' first
    | with_reducible assumption
    | with_reducible apply State.wake_kept
    | split

theorem execQueueSpaceFreed_kept (t : Fin 4) (c : Fin 128) (hs : Kept s₀ s) :
    KeptOut s₀ (execQueueSpaceFreed t c s) := by
  unfold execQueueSpaceFreed
  refine .next ?_
  repeat' first
    | with_reducible assumption
    | with_reducible apply State.modCtx_kept
    | with_reducible apply State.enqueue_kept
    | with_reducible apply State.coreNext_kept
    | split

theorem execTwaitTimeout_kept (t : Fin 4) (c : Fin 128) (hs : Kept s₀ s) :
    KeptOut s₀ (execTwaitTimeout t c s) := by
  unfold execTwaitTimeout
  refine .next ?_
  repeat' first
    | with_reducible assumption
    | with_reducible apply State.seqFault_kept
    | split

theorem execEntryTimeout_kept (t : Fin 4) (c : Fin 128) (hs : Kept s₀ s) :
    KeptOut s₀ (execEntryTimeout t c s) := by
  unfold execEntryTimeout
  refine .next ?_
  repeat' first
    | with_reducible assumption
    | with_reducible apply State.ctxFault_kept
    | with_reducible apply State.coreNext_kept
    | extract_lets
    | split

theorem execEntryStart_kept (t : Fin 4) (mf : MemFaults) (hs : Kept s₀ s) :
    KeptOut s₀ (execEntryStart t mf s) := by
  unfold execEntryStart
  refine .next ?_
  repeat' first
    | with_reducible assumption
    | with_reducible apply State.pickRing_kept
    | with_reducible apply State.startEntry_kept
    | with_reducible apply State.modTile_kept
    | with_reducible apply Kept.of_some_snd (by assumption)
    | split

theorem execCollSlotRelease_kept (t : Fin 4) (c : Fin 128) (hs : Kept s₀ s) :
    KeptOut s₀ (execCollSlotRelease t c s) := by
  unfold execCollSlotRelease
  refine .next ?_
  repeat' first
    | with_reducible assumption
    | with_reducible apply State.wake_kept
    | extract_lets
    | split

theorem execEntryComplete_kept (t : Fin 4) (c : Fin 128) (hs : Kept s₀ s) :
    KeptOut s₀ (execEntryComplete t c s) := by
  unfold execEntryComplete
  refine .next ?_
  repeat' first
    | with_reducible assumption
    | with_reducible apply State.fresh_kept
    | with_reducible apply State.openRecord_kept
    | with_reducible apply State.endEntry_kept
    | with_reducible apply Kept.of_snd (by assumption)
    | extract_lets
    | split

/-! ### Local copies -/

theorem execCcopy_kept (t : Fin 4) (q : Fin 8) (mf : MemFaults) (hs : Kept s₀ s) :
    KeptOut s₀ (execCcopy t q mf s) := by
  unfold execCcopy
  refine .next ?_
  repeat' first
    | with_reducible assumption
    | with_reducible apply State.localCopy_kept
    | intro _

theorem execCfill_kept (t : Fin 4) (q : Fin 8) (mf : MemFaults) (hs : Kept s₀ s) :
    KeptOut s₀ (execCfill t q mf s) := by
  unfold execCfill
  refine .next ?_
  repeat' first
    | with_reducible assumption
    | with_reducible apply State.localCopy_kept
    | intro _

theorem execCgather_kept (t : Fin 4) (q : Fin 8) (mf : MemFaults) (hs : Kept s₀ s) :
    KeptOut s₀ (execCgather t q mf s) := by
  unfold execCgather
  refine .next ?_
  repeat' first
    | with_reducible assumption
    | with_reducible apply State.localCopy_kept
    | with_reducible apply State.readIndices_kept
    | extract_lets
    | split
    | intro _

/-! ### Ports, lanes and laser modules -/

theorem execDataFrame_kept (k : Fin 24) (f : Frame) (hs : Kept s₀ s) :
    KeptOut s₀ (execDataFrame k f s) := by
  unfold execDataFrame
  refine .next ?_
  repeat' first
    | with_reducible assumption
    | with_reducible apply State.frameIn_kept
    | with_reducible apply State.frameAck_kept
    | with_reducible apply State.modPort_kept
    | with_reducible apply State.emit_kept
    | extract_lets
    | split
    | intro _

theorem execIdleFrame_kept (k : Fin 24) (f : Frame) (hs : Kept s₀ s) :
    KeptOut s₀ (execIdleFrame k f s) := by
  unfold execIdleFrame
  refine .next ?_
  repeat' first
    | with_reducible assumption
    | with_reducible apply State.frameIn_kept
    | with_reducible apply State.frameAck_kept
    | intro _

theorem execNakFrame_kept (k : Fin 24) (f : Frame) (hs : Kept s₀ s) :
    KeptOut s₀ (execNakFrame k f s) := by
  unfold execNakFrame
  refine .next ?_
  repeat' first
    | with_reducible assumption
    | with_reducible apply State.frameIn_kept
    | with_reducible apply State.modPort_kept
    | with_reducible apply State.resend_kept
    | with_reducible apply State.portPump_kept
    | extract_lets
    | split
    | intro _

theorem execLanemapFrame_kept (k : Fin 24) (f : Frame) (hs : Kept s₀ s) :
    KeptOut s₀ (execLanemapFrame k f s) := by
  unfold execLanemapFrame
  refine .next ?_
  repeat' first
    | with_reducible assumption
    | with_reducible apply State.frameIn_kept
    | with_reducible apply State.modPort_kept
    | with_reducible apply State.portPump_kept
    | with_reducible apply State.setFlag_kept
    | extract_lets
    | split
    | intro _

theorem execTrainFrame_kept (k : Fin 24) (f : Frame) (hs : Kept s₀ s) :
    KeptOut s₀ (execTrainFrame k f s) := by
  unfold execTrainFrame
  refine .next ?_
  repeat' first
    | with_reducible assumption
    | with_reducible apply State.modPort_kept
    | with_reducible apply State.leaveActive_kept
    | with_reducible apply State.emit_kept
    | with_reducible apply State.trainFail_kept
    | with_reducible apply State.logEv_kept
    | with_reducible apply State.enterActive_kept
    | extract_lets
    | split

theorem execReplayTimeout_kept (k : Fin 24) (hs : Kept s₀ s) :
    KeptOut s₀ (execReplayTimeout k s) := by
  unfold execReplayTimeout
  refine .next ?_
  repeat' first
    | with_reducible assumption
    | with_reducible apply State.modPort_kept
    | with_reducible apply State.resend_kept
    | split

theorem execLinkDownTimeout_kept (k : Fin 24) (hs : Kept s₀ s) :
    KeptOut s₀ (execLinkDownTimeout k s) := by
  unfold execLinkDownTimeout
  refine .next ?_
  repeat' first
    | with_reducible assumption
    | with_reducible apply State.portOut_kept
    | split

theorem execDetectSuccess_kept (k : Fin 24) (hs : Kept s₀ s) :
    KeptOut s₀ (execDetectSuccess k s) := by
  unfold execDetectSuccess
  refine .next ?_
  repeat' first
    | with_reducible assumption
    | with_reducible apply State.modPort_kept
    | with_reducible apply State.setPortSt_kept
    | split

theorem execAlignSuccess_kept (k : Fin 24) (goodTx goodRx : Fin 512) (hs : Kept s₀ s) :
    KeptOut s₀ (execAlignSuccess k goodTx goodRx s) := by
  unfold execAlignSuccess
  refine .next ?_
  repeat' first
    | with_reducible assumption
    | with_reducible apply State.modPort_kept
    | with_reducible apply State.setPortSt_kept
    | with_reducible apply State.emit_kept
    | extract_lets
    | split

theorem execBackoffExpiry_kept (k : Fin 24) (hs : Kept s₀ s) :
    KeptOut s₀ (execBackoffExpiry k s) := by
  unfold execBackoffExpiry
  refine .next ?_
  repeat' first
    | with_reducible assumption
    | with_reducible apply State.modPort_kept
    | with_reducible apply State.portStart_kept
    | split

theorem execDarkProbe_kept (k : Fin 24) (hs : Kept s₀ s) :
    KeptOut s₀ (execDarkProbe k s) := by
  unfold execDarkProbe
  refine .next ?_
  repeat' first
    | with_reducible assumption
    | with_reducible apply State.modPort_kept
    | with_reducible apply State.portStart_kept
    | split

theorem execFibreOut_kept (k : Fin 24) (hs : Kept s₀ s) :
    KeptOut s₀ (execFibreOut k s) := by
  unfold execFibreOut
  refine .next ?_
  repeat' first
    | with_reducible assumption
    | with_reducible apply State.modPort_kept
    | with_reducible apply State.setFlag_kept
    | with_reducible apply State.leaveActive_kept
    | with_reducible apply State.logEv_kept
    | with_reducible apply State.clearService_kept
    | split

theorem execFibreIn_kept (k : Fin 24) (hs : Kept s₀ s) :
    KeptOut s₀ (execFibreIn k s) := by
  unfold execFibreIn
  refine .next ?_
  repeat' first
    | with_reducible assumption
    | with_reducible apply State.modPort_kept
    | with_reducible apply State.mated_kept
    | with_reducible apply State.setFlag_kept
    | with_reducible apply State.logEv_kept
    | with_reducible apply State.portStart_kept
    | extract_lets
    | split

theorem execLightLoss_kept (k : Fin 24) (hs : Kept s₀ s) :
    KeptOut s₀ (execLightLoss k s) := by
  unfold execLightLoss
  refine .next ?_
  repeat' first
    | with_reducible assumption
    | with_reducible apply State.modPort_kept
    | with_reducible apply State.portOut_kept
    | extract_lets
    | split

theorem execLaneFailing_kept (k : Fin 24) (lane : Fin 9) (hs : Kept s₀ s) :
    KeptOut s₀ (execLaneFailing k lane s) := by
  unfold execLaneFailing
  refine .next ?_
  repeat' first
    | with_reducible assumption
    | with_reducible apply State.setFlag_kept
    | with_reducible apply State.portOut_kept
    | with_reducible apply State.modPort_kept
    | with_reducible apply State.emit_kept
    | extract_lets
    | split

theorem execSparingTimeout_kept (k : Fin 24) (hs : Kept s₀ s) :
    KeptOut s₀ (execSparingTimeout k s) := by
  unfold execSparingTimeout
  refine .next ?_
  repeat' first
    | with_reducible assumption
    | with_reducible apply State.portOut_kept
    | split

theorem execLaneFailed_kept (k : Fin 24) (lane : Fin 18) (hs : Kept s₀ s) :
    KeptOut s₀ (execLaneFailed k lane s) := by
  unfold execLaneFailed
  refine .next ?_
  repeat' first
    | with_reducible assumption
    | with_reducible apply State.modPort_kept
    | with_reducible apply State.setFlag_kept
    | with_reducible apply State.logEv_kept
    | split

theorem execLaserPoll_kept (m : Fin 6) (powers : List Int) (temp10 : Int) (alarm lost : Bool) (hs : Kept s₀ s) :
    KeptOut s₀ (execLaserPoll m powers temp10 alarm lost s) := by
  unfold execLaserPoll
  refine .next ?_
  repeat' first
    | with_reducible assumption
    | with_reducible apply State.modLaser_kept
    | with_reducible apply State.moduleFail_kept
    | extract_lets
    | split

theorem execLaserModulePull_kept (m : Fin 6) (hs : Kept s₀ s) :
    KeptOut s₀ (execLaserModulePull m s) := by
  unfold execLaserModulePull
  refine .next ?_
  repeat' first
    | with_reducible assumption
    | with_reducible apply State.modLaser_kept
    | with_reducible apply State.moduleFail_kept
    | with_reducible apply State.setModuleSt_kept
    | extract_lets
    | split

theorem execLaserModuleInsert_kept (m : Fin 6) (ok : Bool) (vendor : Nat) (hs : Kept s₀ s) :
    KeptOut s₀ (execLaserModuleInsert m ok vendor s) := by
  unfold execLaserModuleInsert
  refine .next ?_
  repeat' first
    | with_reducible assumption
    | with_reducible apply State.modLaser_kept
    | with_reducible apply State.moduleStart_kept
    | split

theorem execLaserSetpointReached_kept (m : Fin 6) (hs : Kept s₀ s) :
    KeptOut s₀ (execLaserSetpointReached m s) := by
  unfold execLaserSetpointReached
  refine .next ?_
  repeat' first
    | with_reducible assumption
    | with_reducible apply State.modLaser_kept
    | with_reducible apply State.setModuleSt_kept
    | with_reducible apply State.feedPorts_kept
    | with_reducible apply State.clearService_kept
    | with_reducible apply State.evacEnds_kept
    | with_reducible apply State.releaseDeferred_kept
    | split

theorem execFeedOut_kept (m : Fin 6) (hs : Kept s₀ s) :
    KeptOut s₀ (execFeedOut m s) := by
  unfold execFeedOut
  refine .next ?_
  repeat' first
    | with_reducible assumption
    | with_reducible apply State.modLaser_kept
    | with_reducible apply State.setFlag_kept
    | with_reducible apply State.moduleFail_kept
    | extract_lets
    | split

theorem execFeedIn_kept (m : Fin 6) (ok : Bool) (vendor : Nat) (hs : Kept s₀ s) :
    KeptOut s₀ (execFeedIn m ok vendor s) := by
  unfold execFeedIn
  refine .next ?_
  repeat' first
    | with_reducible assumption
    | with_reducible apply State.modLaser_kept
    | with_reducible apply State.mated_kept
    | with_reducible apply State.setFlag_kept
    | with_reducible apply State.moduleStart_kept
    | extract_lets
    | split

/-! ### Memory and bank repair -/

theorem execSpmBankCopy_kept (t : Fin 4) (hs : Kept s₀ s) :
    KeptOut s₀ (execSpmBankCopy t s) := by
  unfold execSpmBankCopy
  refine .next ?_
  repeat' first
    | with_reducible assumption
    | with_reducible apply State.bankSpare_kept
    | with_reducible apply State.bankNext_kept
    | split

theorem execHbmSoftRepair_kept (k : Fin 8) (mf : MemFaults) (hs : Kept s₀ s) :
    KeptOut s₀ (execHbmSoftRepair k mf s) := by
  unfold execHbmSoftRepair
  refine .next ?_
  repeat' first
    | with_reducible assumption
    | with_reducible apply State.rowRepair_kept
    | split

theorem execHbmRowFence_kept (k : Fin 8) (row : Nat) (hs : Kept s₀ s) :
    KeptOut s₀ (execHbmRowFence k row s) := by
  unfold execHbmRowFence
  refine .next ?_
  repeat' first
    | with_reducible assumption
    | with_reducible apply State.rowFence_kept
    | split

theorem execHbmPatrolScrub_kept (k : Fin 8) (n : Nat) (mf : MemFaults) (hs : Kept s₀ s) :
    KeptOut s₀ (execHbmPatrolScrub k n mf s) := by
  unfold execHbmPatrolScrub
  refine .next ?_
  repeat' first
    | with_reducible assumption
    | with_reducible apply State.forN_kept
    | with_reducible apply State.scrubOne_kept
    | intro _

theorem execHbmTempRead_kept (k : Fin 8) (temp : Fin 256) (hs : Kept s₀ s) :
    KeptOut s₀ (execHbmTempRead k temp s) := by
  unfold execHbmTempRead
  refine .next ?_
  repeat' first
    | with_reducible assumption
    | with_reducible apply State.modStack_kept
    | with_reducible apply State.setFlag_kept
    | with_reducible apply State.logEv_kept
    | with_reducible apply State.thermTrip_kept
    | split
    | dsimp +zetaDelta only

theorem execHbmRequestGrant_kept (k : Fin 8) (hs : Kept s₀ s) :
    KeptOut s₀ (execHbmRequestGrant k s) := by
  unfold execHbmRequestGrant
  refine .next ?_
  repeat' first
    | with_reducible assumption
    | with_reducible apply State.modStack_kept
    | split

/-! ### The matrix arrays -/

theorem execMldb_kept (t a : Fin 4) (mf : MemFaults) (hs : Kept s₀ s) :
    KeptOut s₀ (execMldb t a mf s) := by
  unfold execMldb
  refine .next ?_
  repeat' first
    | with_reducible assumption
    | with_reducible apply State.takeArr_kept
    | with_reducible apply State.readIdx_kept
    | with_reducible apply State.arrBoundary_kept
    | with_reducible apply State.fetchAll_kept
    | with_reducible apply State.fetchCol_kept
    | with_reducible apply State.fetchRow_kept
    | with_reducible apply State.failArr_kept
    | with_reducible apply State.modArr_kept
    | with_reducible apply Kept.of_snd (by assumption)
    | with_reducible apply Kept.of_thd (by assumption)
    | extract_lets
    | split
    | intro _

theorem execMmul_kept (t a : Fin 4) (mf : MemFaults) (mism : List Nat) (hs : Kept s₀ s) :
    KeptOut s₀ (execMmul t a mf mism s) := by
  unfold execMmul
  refine .next ?_
  repeat' first
    | with_reducible assumption
    | with_reducible apply State.takeArr_kept
    | with_reducible apply State.readIdx_kept
    | with_reducible apply State.modArr_kept
    | with_reducible apply State.failArr_kept
    | with_reducible apply State.runPasses_kept
    | split
    | intro _
    | dsimp +zetaDelta only

theorem execArrayAbist_kept (t a : Fin 4) (defects : List (Fin 641)) (mism : List Nat) (mf : MemFaults) (hs : Kept s₀ s) :
    KeptOut s₀ (execArrayAbist t a defects mism mf s) := by
  unfold execArrayAbist
  refine .next ?_
  repeat' first
    | with_reducible assumption
    | with_reducible apply State.modArr_kept
    | with_reducible apply State.arrRepair_kept
    | with_reducible apply State.loseArr_kept
    | with_reducible apply State.failArr_kept
    | with_reducible apply State.runPasses_kept
    | split
    | dsimp +zetaDelta only

theorem execMacm_kept (t a : Fin 4) (mf : MemFaults) (hs : Kept s₀ s) :
    KeptOut s₀ (execMacm t a mf s) := by
  unfold execMacm
  refine .next ?_
  repeat' first
    | with_reducible assumption
    | with_reducible apply State.takeArr_kept
    | with_reducible apply State.runRows_kept
    | with_reducible apply State.acmRead_kept
    | with_reducible apply State.acmWrite_kept
    | with_reducible apply State.arrFlags_kept
    | with_reducible apply Kept.of_snd (by assumption)
    | with_reducible apply KeptRow.ok
    | with_reducible apply KeptRow.error
    | split
    | intro _

theorem execMfld_kept (t a : Fin 4) (mf : MemFaults) (hs : Kept s₀ s) :
    KeptOut s₀ (execMfld t a mf s) := by
  unfold execMfld
  refine .next ?_
  repeat' first
    | with_reducible assumption
    | with_reducible apply State.takeArr_kept
    | with_reducible apply State.runRows_kept
    | with_reducible apply State.acmRead_kept
    | with_reducible apply State.wideRead_kept
    | with_reducible apply State.acmWrite_kept
    | with_reducible apply Kept.of_snd (by assumption)
    | with_reducible apply KeptRow.ok
    | with_reducible apply KeptRow.error
    | split
    | intro _

theorem execMcmb_kept (t a : Fin 4) (mf : MemFaults) (hs : Kept s₀ s) :
    KeptOut s₀ (execMcmb t a mf s) := by
  unfold execMcmb
  refine .next ?_
  repeat' first
    | with_reducible assumption
    | with_reducible apply State.takeArr_kept
    | with_reducible apply State.runRows_kept
    | with_reducible apply State.load_kept
    | with_reducible apply State.wideRead_kept
    | with_reducible apply State.acmRead_kept
    | with_reducible apply State.acmWrite_kept
    | with_reducible apply Kept.of_snd (by assumption)
    | with_reducible apply KeptRow.ok
    | with_reducible apply KeptRow.error
    | extract_lets
    | split
    | intro _

theorem execMwait_kept (t a : Fin 4) (hs : Kept s₀ s) :
    KeptOut s₀ (execMwait t a s) := by
  unfold execMwait
  refine .next ?_
  repeat' first
    | with_reducible assumption
    | with_reducible apply State.modQueue_kept
    | with_reducible apply State.failEntry_kept
    | split

theorem execMwaitRelease_kept (t a : Fin 4) (hs : Kept s₀ s) :
    KeptOut s₀ (execMwaitRelease t a s) := by
  unfold execMwaitRelease
  refine .next ?_
  repeat' first
    | with_reducible assumption
    | with_reducible apply State.releaseCondition_kept
    | split

theorem execMwaitTimeout_kept (t a : Fin 4) (hs : Kept s₀ s) :
    KeptOut s₀ (execMwaitTimeout t a s) := by
  unfold execMwaitTimeout
  refine .next ?_
  repeat' first
    | with_reducible assumption
    | with_reducible apply State.timeoutCondition_kept
    | split

theorem execArrayOpDone_kept (t a : Fin 4) (hs : Kept s₀ s) :
    KeptOut s₀ (execArrayOpDone t a s) := by
  unfold execArrayOpDone
  refine .next ?_
  repeat' first
    | with_reducible assumption
    | with_reducible apply State.completeFirst_kept
    | split

/-! ### Power and pins -/

theorem execPowerOn_kept (slotA slotB : ImageInfo) (active : Fin 2) (mode : Fin 3) (hs : Kept s₀ s) :
    KeptOut s₀ (execPowerOn slotA slotB active mode s) := by
  unfold execPowerOn
  refine .next ?_
  repeat' first
    | with_reducible assumption
    | with_reducible apply State.modPower_kept
    | with_reducible apply State.modSunas_kept
    | with_reducible apply State.modStart_kept
    | with_reducible apply State.islandUp_kept
    | split
    | intro _
    | with_reducible rfl
    | exact rfl

theorem execPwrgdFall_kept (hs : Kept s₀ s) :
    KeptOut s₀ (execPwrgdFall s) := by
  unfold execPwrgdFall
  refine .next ?_
  repeat' first
    | with_reducible assumption
    | with_reducible apply State.modPower_kept
    | with_reducible apply State.modStart_kept
    | with_reducible apply State.stopAll_kept
    | split
    | intro _
    | exact rfl

theorem execResetAssert_kept (hs : Kept s₀ s) :
    KeptOut s₀ (execResetAssert s) := by
  unfold execResetAssert
  refine .next ?_
  repeat' first
    | with_reducible assumption
    | with_reducible apply State.modPower_kept
    | with_reducible apply State.stopAll_kept
    | split

theorem execResetRelease_kept (hs : Kept s₀ s) :
    KeptOut s₀ (execResetRelease s) := by
  unfold execResetRelease
  refine .next ?_
  repeat' first
    | with_reducible assumption
    | with_reducible apply State.modPower_kept
    | with_reducible apply State.restart1_kept
    | extract_lets
    | split

theorem execRefclkLoss_kept (hs : Kept s₀ s) :
    KeptOut s₀ (execRefclkLoss s) := by
  unfold execRefclkLoss
  refine .next ?_
  repeat' first
    | with_reducible assumption
    | with_reducible apply State.modPower_kept
    | with_reducible apply State.stopAll_kept
    | with_reducible apply State.logEv_kept
    | split

theorem execRefclkReturn_kept (hs : Kept s₀ s) :
    KeptOut s₀ (execRefclkReturn s) := by
  unfold execRefclkReturn
  refine .next ?_
  repeat' first
    | with_reducible assumption
    | with_reducible apply State.modPower_kept
    | with_reducible apply State.restart1_kept
    | extract_lets
    | split

theorem execLatchOpen_kept (hs : Kept s₀ s) :
    KeptOut s₀ (execLatchOpen s) := by
  unfold execLatchOpen
  refine .next ?_
  repeat' first
    | with_reducible assumption
    | with_reducible apply State.modPower_kept
    | with_reducible apply State.setFlag_kept
    | with_reducible apply State.stopAll_kept
    | with_reducible apply State.logEv_kept
    | extract_lets
    | split

theorem execLatchClose_kept (hs : Kept s₀ s) :
    KeptOut s₀ (execLatchClose s) := by
  unfold execLatchClose
  refine .next ?_
  repeat' first
    | with_reducible assumption
    | with_reducible apply State.modPower_kept
    | with_reducible apply State.setFlag_kept
    | with_reducible apply State.restart1_kept
    | extract_lets
    | split

theorem execButtonPress_kept (hs : Kept s₀ s) :
    KeptOut s₀ (execButtonPress s) := by
  unfold execButtonPress
  refine .next ?_
  repeat' first
    | with_reducible assumption
    | with_reducible apply State.modPower_kept
    | with_reducible apply State.setFlag_kept
    | split

theorem execServiceButton_kept (ms : Nat) (hs : Kept s₀ s) :
    KeptOut s₀ (execServiceButton ms s) := by
  unfold execServiceButton
  refine .next ?_
  repeat' first
    | with_reducible assumption
    | with_reducible apply State.modPower_kept
    | with_reducible apply State.logEv_kept
    | with_reducible apply State.pressDone_kept
    | extract_lets
    | split

theorem execButtonStuck_kept (hs : Kept s₀ s) :
    KeptOut s₀ (execButtonStuck s) := by
  unfold execButtonStuck
  refine .next ?_
  repeat' first
    | with_reducible assumption
    | with_reducible apply State.logEv_kept
    | split

theorem execRailSample_kept (samples : List (Nat × Nat)) (watts : Nat) (hs : Kept s₀ s) :
    KeptOut s₀ (execRailSample samples watts s) := by
  unfold execRailSample
  refine .next ?_
  repeat' first
    | with_reducible assumption
    | with_reducible apply Kept.foldl
    | with_reducible apply State.railSample_kept
    | with_reducible apply State.modPower_kept
    | split
    | intro _

theorem execVsetTimeout_kept (k : Fin 6) (hs : Kept s₀ s) :
    KeptOut s₀ (execVsetTimeout k s) := by
  unfold execVsetTimeout
  refine .next ?_
  repeat' first
    | with_reducible assumption
    | with_reducible apply State.modPower_kept
    | with_reducible apply State.setFlag_kept
    | with_reducible apply State.logEv_kept
    | split

theorem execIslandSample_kept (samples : List (Nat × Int × Nat)) (requests : List (Nat × Nat)) (hs : Kept s₀ s) :
    KeptOut s₀ (execIslandSample samples requests s) := by
  unfold execIslandSample
  refine .next ?_
  repeat' first
    | with_reducible assumption
    | with_reducible apply Kept.foldl
    | with_reducible apply State.modIsland_kept
    | with_reducible apply State.pairSample_kept
    | with_reducible apply State.forN_kept
    | with_reducible apply State.clampSample_kept
    | with_reducible apply State.vsetRequest_kept
    | extract_lets
    | split
    | intro _

theorem execThermalSample_kept (temps : List Int) (hs : Kept s₀ s) :
    KeptOut s₀ (execThermalSample temps s) := by
  unfold execThermalSample
  refine .next ?_
  repeat' first
    | with_reducible assumption
    | with_reducible apply State.powerHold_kept
    | with_reducible apply Kept.foldl
    | with_reducible apply State.modIsland_kept
    | with_reducible apply State.varThermal_kept
    | with_reducible apply State.fixedThermal_kept
    | with_reducible apply State.forN_kept
    | split
    | intro _

theorem execThermtripRelease_kept (hs : Kept s₀ s) :
    KeptOut s₀ (execThermtripRelease s) := by
  unfold execThermtripRelease
  refine .next ?_
  repeat' first
    | with_reducible assumption
    | with_reducible apply State.modPower_kept
    | split

/-! ### The staged start and restarts -/

theorem execStage1ImageVerify_kept (sigA sigB journalOk : Bool) (failedCores : List (Fin 64)) (modules : List (Fin 6 × Bool × Nat)) (hs : Kept s₀ s) :
    KeptOut s₀ (execStage1ImageVerify sigA sigB journalOk failedCores modules s) := by
  unfold execStage1ImageVerify
  refine .next ?_
  repeat' first
    | with_reducible assumption
    | with_reducible apply Kept.foldl
    | with_reducible apply State.stageFail_kept
    | with_reducible apply State.chooseImage_kept
    | with_reducible apply State.modSunas_kept
    | with_reducible apply State.modStart_kept
    | with_reducible apply State.applyMaps_kept
    | with_reducible apply State.applyJournal_kept
    | with_reducible apply State.islandUp_kept
    | with_reducible apply State.retireCore_kept
    | with_reducible apply State.clearService_kept
    | with_reducible apply State.modLaser_kept
    | with_reducible apply State.moduleStart_kept
    | with_reducible apply State.stageDone_kept
    | with_reducible apply Kept.of_snd (by assumption)
    | split
    | intro _
    | with_reducible rfl
    | dsimp +zetaDelta only
    | exact rfl

theorem execStage2Hbm_kept (up : List TrainedStack) (hs : Kept s₀ s) :
    KeptOut s₀ (execStage2Hbm up s) := by
  unfold execStage2Hbm
  refine .next ?_
  repeat' first
    | with_reducible assumption
    | with_reducible apply Kept.foldl
    | with_reducible apply State.forN_kept
    | with_reducible apply State.islandUp_kept
    | with_reducible apply State.modStack_kept
    | with_reducible apply State.setStackSt_kept
    | with_reducible apply State.setFlag_kept
    | with_reducible apply State.raiseService_kept
    | with_reducible apply State.clearService_kept
    | with_reducible apply State.logEv_kept
    | with_reducible apply State.zeroHbm_kept
    | with_reducible apply State.stageFail_kept
    | with_reducible apply State.stageDone_kept
    | extract_lets
    | split
    | intro _
    | fail_if_no_progress (with_reducible apply Kept.mk_of <;> try first | with_reducible rfl | exact id | exact Nat.le_refl _)

theorem execStage3Boot_kept (image : List Byte) (hs : Kept s₀ s) :
    KeptOut s₀ (execStage3Boot image s) := by
  unfold execStage3Boot
  refine .next ?_
  repeat' first
    | with_reducible assumption
    | with_reducible apply State.islandUp_kept
    | with_reducible apply State.store_kept
    | with_reducible apply State.modStart_kept
    | with_reducible apply State.modCore_kept
    | split
    | intro _
    | dsimp +zetaDelta only
    | exact rfl

theorem execStage4TillerBringup_kept (t : Fin 4) (banks : List (Fin 64)) (defects : List (Fin 4 × List (Fin 641))) (hs : Kept s₀ s) :
    KeptOut s₀ (execStage4TillerBringup t banks defects s) := by
  unfold execStage4TillerBringup
  refine .next ?_
  repeat' first
    | with_reducible assumption
    | with_reducible apply State.tillerUp_kept
    | split

theorem execStage4Complete_kept (hs : Kept s₀ s) :
    KeptOut s₀ (execStage4Complete s) := by
  unfold execStage4Complete
  refine .next ?_
  repeat' first
    | with_reducible assumption
    | with_reducible apply Kept.foldl
    | with_reducible apply State.stageFail_kept
    | with_reducible apply State.stageDone_kept
    | with_reducible apply State.pressDone_kept
    | with_reducible apply State.modPower_kept
    | split

theorem execDomainJoin_kept (hs : Kept s₀ s) :
    KeptOut s₀ (execDomainJoin s) := by
  unfold execDomainJoin
  refine .next ?_
  repeat' first
    | with_reducible assumption
    | with_reducible apply State.setPlace_kept
    | with_reducible apply State.stageDone_kept
    | split

theorem execStageBudgetExpiry_kept (hs : Kept s₀ s) :
    KeptOut s₀ (execStageBudgetExpiry s) := by
  unfold execStageBudgetExpiry
  refine .next ?_
  repeat' first
    | with_reducible assumption
    | with_reducible apply State.stageFail_kept
    | extract_lets
    | split

theorem execScarabLockstep_kept (hs : Kept s₀ s) :
    KeptOut s₀ (execScarabLockstep s) := by
  unfold execScarabLockstep
  refine .next ?_
  repeat' first
    | with_reducible assumption
    | with_reducible apply State.modLog_kept
    | with_reducible apply State.forN_kept
    | with_reducible apply State.partReset_kept
    | with_reducible apply State.raiseService_kept
    | with_reducible apply State.logEv_kept
    | extract_lets
    | split

theorem execScarabRestartDone_kept (hs : Kept s₀ s) :
    KeptOut s₀ (execScarabRestartDone s) := by
  unfold execScarabRestartDone
  refine .next ?_
  repeat' first
    | with_reducible assumption
    | with_reducible apply Kept.foldl
    | with_reducible apply State.modLog_kept
    | with_reducible apply State.respond_kept
    | with_reducible apply State.modSunas_kept
    | with_reducible apply State.endTicket_kept
    | with_reducible apply State.forN_kept
    | with_reducible apply State.reportRow_kept
    | with_reducible apply State.modStack_kept
    | split
    | intro _
    | with_reducible rfl

theorem execLiveHandOver_kept (hs : Kept s₀ s) :
    KeptOut s₀ (execLiveHandOver s) := by
  unfold execLiveHandOver
  refine .next ?_
  repeat' first
    | with_reducible assumption
    | with_reducible apply State.modSunas_kept
    | with_reducible apply State.drainBad_kept
    | split
    | intro _
    | with_reducible rfl

theorem execFwReverted_kept (hs : Kept s₀ s) :
    KeptOut s₀ (execFwReverted s) := by
  unfold execFwReverted
  refine .next ?_
  repeat' first
    | with_reducible assumption
    | with_reducible apply State.modSunas_kept
    | with_reducible apply State.logEv_kept
    | with_reducible apply State.drainBad_kept
    | split
    | intro _
    | with_reducible rfl

/-! ### The log in flash -/

theorem execLogProgram_kept (n erases : Nat) (worn : Bool) (hs : Kept s₀ s) :
    KeptOut s₀ (execLogProgram n erases worn s) := by
  unfold execLogProgram
  refine .next ?_
  repeat' first
    | with_reducible assumption
    | with_reducible apply State.modLog_kept
    | with_reducible apply State.blockWorn_kept
    | with_reducible apply State.reportDropped_kept
    | split

theorem execPinnedWrite_kept (erases : Nat) (worn : Bool) (hs : Kept s₀ s) :
    KeptOut s₀ (execPinnedWrite erases worn s) := by
  unfold execPinnedWrite
  refine .next ?_
  repeat' first
    | with_reducible assumption
    | with_reducible apply State.modLog_kept
    | with_reducible apply State.pinPending_kept
    | with_reducible apply State.blockWorn_kept
    | with_reducible apply State.clearService_kept
    | split
    | dsimp +zetaDelta only

/-! ### The Cricket segment -/

theorem execBeacon_kept (frame time echo : Nat) (diff : Int) (hs : Kept s₀ s) :
    KeptOut s₀ (execBeacon frame time echo diff s) := by
  unfold execBeacon
  refine .next ?_
  split
  · exact hs
  extract_lets c off err s1 s2 s3 agree s4 s5
  have k1 : Kept s₀ s1 := State.modCk_kept _ (State.ckCount_kept _ _ hs)
  have k2 : Kept s₀ s2 := by
    unfold s2
    split
    · exact State.modCk_kept _ k1
    · exact State.ckRetry_kept k1
  clear_value s2
  have k3 : Kept s₀ s3 := State.modCk_kept _ k2
  have k4 : Kept s₀ s4 := State.modCk_kept _ k2
  have k5 : Kept s₀ s5 := by
    unfold s5
    split
    · exact State.setCkSt_kept _ (State.modCk_kept _ k2)
    · exact k2
  repeat' first
    | with_reducible assumption
    | with_reducible apply State.modCk_kept
    | with_reducible apply State.setCkSt_kept
    | with_reducible apply State.ckMute_kept
    | with_reducible apply State.rackTime_kept
    | split

theorem execBeaconMiss_kept (hs : Kept s₀ s) :
    KeptOut s₀ (execBeaconMiss s) := by
  unfold execBeaconMiss
  refine .next ?_
  repeat' first
    | with_reducible assumption
    | with_reducible apply State.ckCount_kept
    | with_reducible apply State.modCk_kept
    | with_reducible apply State.ckRetry_kept
    | with_reducible apply State.ckMute_kept
    | extract_lets
    | split

theorem execMemberSlot_kept (hs : Kept s₀ s) :
    KeptOut s₀ (execMemberSlot s) := by
  unfold execMemberSlot
  refine .next ?_
  repeat' first
    | with_reducible assumption
    | with_reducible apply State.nextBurst_kept
    | with_reducible apply State.modCk_kept
    | with_reducible apply State.emit_kept
    | split

theorem execJoinSlot_kept (hs : Kept s₀ s) :
    KeptOut s₀ (execJoinSlot s) := by
  unfold execJoinSlot
  refine .next ?_
  repeat' first
    | with_reducible assumption
    | with_reducible apply State.modCk_kept
    | with_reducible apply State.emit_kept
    | extract_lets
    | split

theorem execJoinRetry_kept (hs : Kept s₀ s) :
    KeptOut s₀ (execJoinRetry s) := by
  unfold execJoinRetry
  refine .next ?_
  repeat' first
    | with_reducible assumption
    | with_reducible apply State.modCk_kept
    | split
    | fail_if_no_progress (with_reducible apply Kept.mk_of <;> try first | with_reducible rfl | exact id | exact Nat.le_refl _)
    | exact Nat.le_succ _

theorem execAssign_kept (serial : W64) (member : Fin 128) (delay advance : Nat) (hs : Kept s₀ s) :
    KeptOut s₀ (execAssign serial member delay advance s) := by
  unfold execAssign
  refine .next ?_
  repeat' first
    | with_reducible assumption
    | with_reducible apply State.modCk_kept
    | split

theorem execPlace_kept (place : Fin 1048576) (site : Fin 8) (hs : Kept s₀ s) :
    KeptOut s₀ (execPlace place site s) := by
  unfold execPlace
  refine .next ?_
  repeat' first
    | with_reducible assumption
    | with_reducible apply State.modStart_kept
    | split
    | intro _
    | exact rfl

theorem execMailbox_kept (seq : Fin 65536) (frag frags : Fin 5) (data : List Byte) (hs : Kept s₀ s) :
    KeptOut s₀ (execMailbox seq frag frags data s) := by
  unfold execMailbox
  refine .next ?_
  repeat' first
    | with_reducible assumption
    | with_reducible apply State.dropMail_kept
    | with_reducible apply State.ckCount_kept
    | with_reducible apply State.mailDone_kept
    | with_reducible apply State.modCk_kept
    | split
    | dsimp +zetaDelta only

theorem execPinnedReturn_kept (frag frags : Fin 5) (data : List Byte) (hs : Kept s₀ s) :
    KeptOut s₀ (execPinnedReturn frag frags data s) := by
  unfold execPinnedReturn
  refine .next ?_
  repeat' first
    | with_reducible assumption
    | with_reducible apply State.modCk_kept
    | split

theorem execOffset_kept (ns : Int) (hs : Kept s₀ s) :
    KeptOut s₀ (execOffset ns s) := by
  unfold execOffset
  refine .next ?_
  repeat' first
    | with_reducible assumption
    | with_reducible apply State.modCk_kept
    | split

theorem execRelease_kept (hs : Kept s₀ s) :
    KeptOut s₀ (execRelease s) := by
  unfold execRelease
  refine .next ?_
  repeat' first
    | with_reducible assumption
    | with_reducible apply State.ckRejoin_kept
    | split

theorem execMuteTimeout_kept (hs : Kept s₀ s) :
    KeptOut s₀ (execMuteTimeout s) := by
  unfold execMuteTimeout
  refine .next ?_
  repeat' first
    | with_reducible assumption
    | with_reducible apply State.ckRejoin_kept
    | split

theorem execCricketFibreOut_kept (hs : Kept s₀ s) :
    KeptOut s₀ (execCricketFibreOut s) := by
  unfold execCricketFibreOut
  refine .next ?_
  repeat' first
    | with_reducible assumption
    | with_reducible apply State.setFlag_kept
    | with_reducible apply State.ckRetry_kept
    | with_reducible apply State.modCk_kept
    | with_reducible apply State.setCkSt_kept
    | split
    | fail_if_no_progress (with_reducible apply Kept.mk_of <;> try first | with_reducible rfl | exact id | exact Nat.le_refl _)

theorem execCricketFibreIn_kept (hs : Kept s₀ s) :
    KeptOut s₀ (execCricketFibreIn s) := by
  unfold execCricketFibreIn
  refine .next ?_
  repeat' first
    | with_reducible assumption
    | with_reducible apply State.mated_kept
    | with_reducible apply State.setFlag_kept
    | with_reducible apply State.modCk_kept
    | with_reducible apply State.setCkSt_kept
    | split
    | dsimp +zetaDelta only
    | fail_if_no_progress (with_reducible apply Kept.mk_of <;> try first | with_reducible rfl | exact id | exact Nat.le_refl _)

theorem execCricketBurst_kept (ok : Bool) (second : Option Bool) (hs : Kept s₀ s) :
    KeptOut s₀ (execCricketBurst ok second s) := by
  unfold execCricketBurst
  refine .next ?_
  repeat' first
    | with_reducible assumption
    | with_reducible apply State.ckErr_kept
    | split

/-! ### Domain memory and transport -/

theorem execRload_kept (t : Fin 4) (q : Fin 8) (mf : MemFaults) (hs : Kept s₀ s) :
    KeptOut s₀ (execRload t q mf s) := by
  unfold execRload
  refine .next ?_
  repeat' first
    | with_reducible assumption
    | with_reducible apply State.popRemote_kept
    | with_reducible apply State.noteRefusal_kept
    | with_reducible apply State.failEntry_kept
    | with_reducible apply State.activate_kept
    | with_reducible apply State.newOp_kept
    | with_reducible apply State.localRead_kept
    | with_reducible apply State.modOp_kept
    | with_reducible apply State.opSettle_kept
    | with_reducible apply State.localWrite_kept
    | with_reducible apply State.sendPieces_kept
    | with_reducible apply Kept.of_thd (by assumption)
    | with_reducible apply Kept.of_some_snd (by assumption)
    | extract_lets
    | split

theorem execRatom_kept (t : Fin 4) (q : Fin 8) (mf : MemFaults) (hs : Kept s₀ s) :
    KeptOut s₀ (execRatom t q mf s) := by
  unfold execRatom
  refine .next ?_
  repeat' first
    | with_reducible assumption
    | with_reducible apply State.popRemote_kept
    | with_reducible apply State.noteRefusal_kept
    | with_reducible apply State.failEntry_kept
    | with_reducible apply State.activate_kept
    | with_reducible apply State.newOp_kept
    | with_reducible apply State.sendPieces_kept
    | with_reducible apply Kept.of_some_snd (by assumption)
    | extract_lets
    | split

theorem execRtadd_kept (t : Fin 4) (q : Fin 8) (_mf : MemFaults) (hs : Kept s₀ s) :
    KeptOut s₀ (execRtadd t q _mf s) := by
  unfold execRtadd
  refine .next ?_
  repeat' first
    | with_reducible assumption
    | with_reducible apply State.popRemote_kept
    | with_reducible apply State.failEntry_kept
    | with_reducible apply State.activate_kept
    | with_reducible apply State.newOp_kept
    | with_reducible apply State.sendAdd_kept
    | with_reducible apply State.enterNext_kept
    | with_reducible apply Kept.of_some_snd (by assumption)
    | extract_lets
    | split

theorem execRemoteOpDone_kept (op : Nat) (hs : Kept s₀ s) :
    KeptOut s₀ (execRemoteOpDone op s) := by
  unfold execRemoteOpDone
  refine .next ?_
  repeat' first
    | with_reducible assumption
    | with_reducible apply State.forgetOp_kept
    | with_reducible apply State.retire_kept
    | with_reducible apply State.addInc_kept
    | with_reducible apply State.connSettle_kept
    | split

theorem execFlaggedStoreRelease_kept (op : Nat) (mf : MemFaults) (hs : Kept s₀ s) :
    KeptOut s₀ (execFlaggedStoreRelease op mf s) := by
  unfold execFlaggedStoreRelease
  refine .next ?_
  repeat' first
    | with_reducible assumption
    | with_reducible apply State.modOp_kept
    | with_reducible apply State.opSettle_kept
    | with_reducible apply State.sendPieces_kept
    | split

theorem execPlaneHoldRelease_kept (op : Nat) (mf : MemFaults) (hs : Kept s₀ s) :
    KeptOut s₀ (execPlaneHoldRelease op mf s) := by
  unfold execPlaneHoldRelease
  refine .next ?_
  repeat' first
    | with_reducible assumption
    | with_reducible apply State.sendPieces_kept
    | split

theorem execDomainStorePiece_kept (slot : Fin 128) (piece job addr : Nat) (data : List Byte) (mf : MemFaults) (hs : Kept s₀ s) :
    KeptOut s₀ (execDomainStorePiece slot piece job addr data mf s) := by
  unfold execDomainStorePiece
  refine .next ?_
  repeat' first
    | with_reducible assumption
    | with_reducible apply State.targetStore_kept
    | with_reducible apply State.emit_kept
    | with_reducible apply Kept.of_snd (by assumption)
    | split

theorem execDomainLoadRequest_kept (slot : Fin 128) (piece job addr len : Nat) (mf : MemFaults) (hs : Kept s₀ s) :
    KeptOut s₀ (execDomainLoadRequest slot piece job addr len mf s) := by
  unfold execDomainLoadRequest
  refine .next ?_
  repeat' first
    | with_reducible assumption
    | with_reducible apply State.targetLoad_kept
    | with_reducible apply State.emit_kept
    | with_reducible apply Kept.of_snd (by assumption)
    | split

theorem execDomainAtomicPiece_kept (slot : Fin 128) (piece job addr : Nat) (atop : Fin 10) (w64 : Bool) (x cmp : Nat) (mf : MemFaults) (hs : Kept s₀ s) :
    KeptOut s₀ (execDomainAtomicPiece slot piece job addr atop w64 x cmp mf s) := by
  unfold execDomainAtomicPiece
  refine .next ?_
  repeat' first
    | with_reducible assumption
    | with_reducible apply State.targetAtomic_kept
    | with_reducible apply State.emit_kept
    | with_reducible apply Kept.of_snd (by assumption)
    | split

theorem execDomainCounterAddition_kept (slot : Fin 128) (piece job ctr : Nat) (x : W64) (hs : Kept s₀ s) :
    KeptOut s₀ (execDomainCounterAddition slot piece job ctr x s) := by
  unfold execDomainCounterAddition
  refine .next ?_
  repeat' first
    | with_reducible assumption
    | with_reducible apply State.targetAdd_kept
    | with_reducible apply State.emit_kept
    | with_reducible apply Kept.of_snd (by assumption)
    | split

theorem execDomainAck_kept (op piece : Nat) (hs : Kept s₀ s) :
    KeptOut s₀ (execDomainAck op piece s) := by
  unfold execDomainAck
  refine .next ?_
  repeat' first
    | with_reducible assumption
    | with_reducible apply State.modOp_kept
    | with_reducible apply State.opSettle_kept
    | with_reducible apply State.pieceDone_kept
    | with_reducible apply State.sendPieces_kept
    | split

theorem execDomainLoadData_kept (op piece : Nat) (data : List Byte) (mf : MemFaults) (hs : Kept s₀ s) :
    KeptOut s₀ (execDomainLoadData op piece data mf s) := by
  unfold execDomainLoadData
  refine .next ?_
  repeat' first
    | with_reducible assumption
    | with_reducible apply State.land_kept
    | with_reducible apply State.sendPieces_kept
    | split

theorem execDomainAtomicResult_kept (op : Nat) (prior : W64) (mf : MemFaults) (hs : Kept s₀ s) :
    KeptOut s₀ (execDomainAtomicResult op prior mf s) := by
  unfold execDomainAtomicResult
  refine .next ?_
  repeat' first
    | with_reducible assumption
    | with_reducible apply State.modOp_kept
    | with_reducible apply State.land_kept
    | with_reducible apply State.opSettle_kept
    | split

theorem execDomainRefusal_kept (op piece code : Nat) (hs : Kept s₀ s) :
    KeptOut s₀ (execDomainRefusal op piece code s) := by
  unfold execDomainRefusal
  refine .next ?_
  repeat' first
    | with_reducible assumption
    | with_reducible apply State.modOp_kept
    | with_reducible apply State.opSettle_kept
    | with_reducible apply State.pieceFail_kept
    | split

theorem execDomainAccessTimeout_kept (op piece : Nat) (hs : Kept s₀ s) :
    KeptOut s₀ (execDomainAccessTimeout op piece s) := by
  unfold execDomainAccessTimeout
  refine .next ?_
  repeat' first
    | with_reducible assumption
    | with_reducible apply State.modNet_kept
    | with_reducible apply State.modOp_kept
    | with_reducible apply State.opSettle_kept
    | with_reducible apply State.pieceFail_kept
    | split

theorem execPutPiece_kept (c psn w gen off : Nat) (data : List Byte) (mf : MemFaults) (hs : Kept s₀ s) :
    KeptOut s₀ (execPutPiece c psn w gen off data mf s) := by
  unfold execPutPiece
  refine .next ?_
  repeat' first
    | with_reducible assumption
    | with_reducible apply State.receive_kept
    | with_reducible apply State.reAck_kept
    | with_reducible apply State.targetPut_kept
    | with_reducible apply State.emit_kept
    | with_reducible apply Kept.of_snd (by assumption)
    | split
    | intro _

theorem execGetRequest_kept (c psn w gen off len : Nat) (mf : MemFaults) (hs : Kept s₀ s) :
    KeptOut s₀ (execGetRequest c psn w gen off len mf s) := by
  unfold execGetRequest
  refine .next ?_
  repeat' first
    | with_reducible assumption
    | with_reducible apply Kept.foldl
    | with_reducible apply State.receive_kept
    | with_reducible apply State.reAck_kept
    | with_reducible apply State.targetGet_kept
    | with_reducible apply State.emit_kept
    | with_reducible apply Kept.of_snd (by assumption)
    | split
    | intro _

theorem execTransportCounterAddition_kept (c psn : Nat) (w : Option Nat) (ctr : Nat) (x : W64) (hs : Kept s₀ s) :
    KeptOut s₀ (execTransportCounterAddition c psn w ctr x s) := by
  unfold execTransportCounterAddition
  refine .next ?_
  repeat' first
    | with_reducible assumption
    | with_reducible apply State.receive_kept
    | with_reducible apply State.reAck_kept
    | with_reducible apply State.emit_kept
    | with_reducible apply State.targetWinAdd_kept
    | with_reducible apply State.modConn_kept
    | with_reducible apply Kept.of_snd (by assumption)
    | split
    | intro _

theorem execGetResponse_kept (op piece : Nat) (data : List Byte) (mf : MemFaults) (hs : Kept s₀ s) :
    KeptOut s₀ (execGetResponse op piece data mf s) := by
  unfold execGetResponse
  refine .next ?_
  repeat' first
    | with_reducible assumption
    | with_reducible apply State.land_kept
    | with_reducible apply State.opSettle_kept
    | with_reducible apply State.connSettle_kept
    | split

theorem execTransportAck_kept (c psn srttUs : Nat) (hs : Kept s₀ s) :
    KeptOut s₀ (execTransportAck c psn srttUs s) := by
  unfold execTransportAck
  refine .next ?_
  repeat' first
    | with_reducible assumption
    | with_reducible apply Kept.foldl
    | with_reducible apply State.modConn_kept
    | with_reducible apply State.packetAcked_kept
    | with_reducible apply State.connPump_kept
    | with_reducible apply State.connSettle_kept
    | extract_lets
    | split
    | intro _

theorem execTransportNak_kept (c : Nat) (hs : Kept s₀ s) :
    KeptOut s₀ (execTransportNak c s) := by
  unfold execTransportNak
  refine .next ?_
  repeat' first
    | with_reducible assumption
    | with_reducible apply State.retransmit_kept
    | split

theorem execTransportRefusal_kept (c psn code : Nat) (hs : Kept s₀ s) :
    KeptOut s₀ (execTransportRefusal c psn code s) := by
  unfold execTransportRefusal
  refine .next ?_
  repeat' first
    | with_reducible assumption
    | with_reducible apply State.setFlagIf_kept
    | with_reducible apply State.modOp_kept
    | with_reducible apply State.opSettle_kept
    | with_reducible apply State.connSettle_kept
    | split

theorem execRetransmissionTimeout_kept (c : Nat) (hs : Kept s₀ s) :
    KeptOut s₀ (execRetransmissionTimeout c s) := by
  unfold execRetransmissionTimeout
  refine .next ?_
  repeat' first
    | with_reducible assumption
    | with_reducible apply State.modConn_kept
    | with_reducible apply State.retransmit_kept
    | split

theorem execWindowFetch_kept (c w : Nat) (hs : Kept s₀ s) :
    KeptOut s₀ (execWindowFetch c w s) := by
  unfold execWindowFetch
  refine .next ?_
  repeat' first
    | with_reducible assumption
    | with_reducible apply State.modConn_kept
    | with_reducible apply State.emit_kept
    | split

theorem execWindowDescriptor_kept (c w : Nat) (valid : Bool) (job rights len cntBase cntCount gen : Nat) (mf : MemFaults) (hs : Kept s₀ s) :
    KeptOut s₀ (execWindowDescriptor c w valid job rights len cntBase cntCount gen mf s) := by
  unfold execWindowDescriptor
  refine .next ?_
  repeat' first
    | with_reducible assumption
    | with_reducible apply State.modConn_kept
    | with_reducible apply State.forN_kept
    | with_reducible apply State.issueXfer_kept
    | extract_lets
    | split
    | intro _

/-! ### The application cores -/

theorem execCoreLoad_kept (h : Fin 64) (w : Fin 4) (signed fp short : Bool) (rd rs1 : Fin 32) (imm : Int) (mf : MemFaults) (hs : Kept s₀ s) :
    KeptOut s₀ (execCoreLoad h w signed fp short rd rs1 imm mf s) := by
  unfold execCoreLoad
  refine .next ?_
  repeat' first
    | with_reducible assumption
    | with_reducible apply State.coreRun_kept
    | with_reducible apply State.illegal_kept
    | with_reducible apply State.coreLoad_kept
    | split
    | intro _

theorem execCoreStore_kept (h : Fin 64) (w : Fin 4) (fp short : Bool) (rs2 rs1 : Fin 32) (imm : Int) (mf : MemFaults) (hs : Kept s₀ s) :
    KeptOut s₀ (execCoreStore h w fp short rs2 rs1 imm mf s) := by
  unfold execCoreStore
  refine .next ?_
  repeat' first
    | with_reducible assumption
    | with_reducible apply State.coreRun_kept
    | with_reducible apply State.illegal_kept
    | with_reducible apply State.coreStore_kept
    | split
    | intro _

theorem execCoreAmo_kept (h : Fin 64) (op : Fin 9) (w64 aq rl : Bool) (rd rs1 rs2 : Fin 32) (mf : MemFaults) (hs : Kept s₀ s) :
    KeptOut s₀ (execCoreAmo h op w64 aq rl rd rs1 rs2 mf s) := by
  unfold execCoreAmo
  refine .next ?_
  repeat' first
    | with_reducible assumption
    | with_reducible apply State.coreRun_kept
    | with_reducible apply State.atomicAddr_kept
    | with_reducible apply State.amoDomain_kept
    | with_reducible apply State.amoLocal_kept
    | with_reducible apply State.coreFault_kept
    | with_reducible apply Kept.of_snd (by assumption)
    | extract_lets
    | split
    | intro _

theorem execCoreLrSc_kept (h : Fin 64) (sc w64 : Bool) (rd rs1 rs2 : Fin 32) (mf : MemFaults) (hs : Kept s₀ s) :
    KeptOut s₀ (execCoreLrSc h sc w64 rd rs1 rs2 mf s) := by
  unfold execCoreLrSc
  refine .next ?_
  repeat' first
    | with_reducible assumption
    | with_reducible apply State.coreRun_kept
    | with_reducible apply State.atomicAddr_kept
    | with_reducible apply State.coreFault_kept
    | with_reducible apply State.storeRefused_kept
    | with_reducible apply State.coreWrite_kept
    | with_reducible apply State.modCore_kept
    | with_reducible apply State.coreRead_kept
    | with_reducible apply Kept.of_snd (by assumption)
    | extract_lets
    | split
    | intro _

theorem execCoreFence_kept (h : Fin 64) (pred succ : Fin 16) (hs : Kept s₀ s) :
    KeptOut s₀ (execCoreFence h pred succ s) := by
  unfold execCoreFence
  refine .next ?_
  repeat' first
    | with_reducible assumption
    | with_reducible apply State.coreRun_kept
    | with_reducible apply State.modCore_kept
    | extract_lets
    | split
    | intro _

theorem execCacheUe_kept (owner : Option (Fin 64)) (addr : Nat) (hs : Kept s₀ s) :
    KeptOut s₀ (execCacheUe owner addr s) := by
  unfold execCacheUe
  refine .next ?_
  repeat' first
    | with_reducible assumption
    | with_reducible apply State.setFlag_kept
    | with_reducible apply State.modCore_kept
    | with_reducible apply State.retireCore_kept
    | extract_lets
    | split
    | fail_if_no_progress (with_reducible apply Kept.mk_of <;> try first | with_reducible rfl | exact id | exact Nat.le_refl _)

theorem execMachineTimerInterrupt_kept (h : Fin 64) (hs : Kept s₀ s) :
    KeptOut s₀ (execMachineTimerInterrupt h s) := by
  unfold execMachineTimerInterrupt
  refine .next ?_
  repeat' first
    | with_reducible assumption
    | with_reducible apply State.takeIntr_kept
    | fail_if_no_progress (with_reducible apply Kept.mk_of <;> try first | with_reducible rfl | exact id | exact Nat.le_refl _)
    | exact le_max_left _ _

theorem execIllegalInstruction_kept (h : Fin 64) (hs : Kept s₀ s) :
    KeptOut s₀ (execIllegalInstruction h s) := by
  unfold execIllegalInstruction
  refine .next ?_
  repeat' first
    | with_reducible assumption
    | with_reducible apply State.coreRun_kept
    | with_reducible apply State.illegal_kept
    | intro _

/-! ### Fused stages -/

theorem execMsetp_kept (t a : Fin 4) (mf : MemFaults) (hs : Kept s₀ s) :
    KeptOut s₀ (execMsetp t a mf s) := by
  unfold execMsetp
  refine .next ?_
  repeat' first
    | with_reducible assumption
    | with_reducible apply State.takeArr_kept
    | with_reducible apply State.readDesc_kept
    | with_reducible apply State.modArr_kept
    | with_reducible apply State.arrBoundary_kept
    | intro _

theorem execMsete_kept (t a : Fin 4) (mf : MemFaults) (hs : Kept s₀ s) :
    KeptOut s₀ (execMsete t a mf s) := by
  unfold execMsete
  refine .next ?_
  repeat' first
    | with_reducible assumption
    | with_reducible apply State.takeArr_kept
    | with_reducible apply State.readDesc_kept
    | with_reducible apply State.modArr_kept
    | with_reducible apply State.arrBoundary_kept
    | intro _

theorem execMepi_kept (t a : Fin 4) (mf : MemFaults) (hs : Kept s₀ s) :
    KeptOut s₀ (execMepi t a mf s) := by
  unfold execMepi
  refine .next ?_
  repeat' first
    | with_reducible assumption
    | with_reducible apply Kept.foldl
    | with_reducible apply State.takeArr_kept
    | with_reducible apply State.arrBoundary_kept
    | with_reducible apply State.readIf_kept
    | with_reducible apply State.failArr_kept
    | with_reducible apply State.epiRows_kept
    | with_reducible apply State.rowStateFail_kept
    | with_reducible apply State.arrFlags_kept
    | with_reducible apply State.writeLines_kept
    | with_reducible apply State.chargeLines_kept
    | with_reducible apply State.rowState_kept
    | with_reducible apply Kept.of_snd (by assumption)
    | with_reducible apply Kept.of_thd (by assumption)
    | extract_lets
    | split
    | intro _

theorem execMchn_kept (t a : Fin 4) (mf : MemFaults) (hs : Kept s₀ s) :
    KeptOut s₀ (execMchn t a mf s) := by
  unfold execMchn
  refine .next ?_
  repeat' first
    | with_reducible assumption
    | with_reducible apply State.takeArr_kept
    | with_reducible apply State.runRows_kept
    | with_reducible apply State.readIf_kept
    | with_reducible apply State.acmRead_kept
    | with_reducible apply State.acmWrite_kept
    | with_reducible apply State.arrFlags_kept
    | with_reducible apply Kept.of_snd (by assumption)
    | with_reducible apply KeptRow.ok
    | with_reducible apply KeptRow.error
    | split
    | intro _

/-! ### Husk snapshots -/

theorem execHuskTrigger_kept (p : Fin 8) (hs : Kept s₀ s) :
    KeptOut s₀ (execHuskTrigger p s) := by
  unfold execHuskTrigger
  refine .next ?_
  repeat' first
    | with_reducible assumption
    | with_reducible apply State.modHusk_kept
    | with_reducible apply State.huskFreeze_kept
    | with_reducible apply State.huskLog_kept
    | extract_lets
    | split

theorem execHuskFrozen_kept (p : Fin 8) (hs : Kept s₀ s) :
    KeptOut s₀ (execHuskFrozen p s) := by
  unfold execHuskFrozen
  refine .next ?_
  repeat' first
    | with_reducible assumption
    | with_reducible apply State.modHusk_kept
    | with_reducible apply State.releaseHeld_kept
    | with_reducible apply State.huskLog_kept
    | with_reducible apply State.respondWaiting_kept
    | with_reducible apply State.huskPut_kept
    | extract_lets
    | split

theorem execHuskCowCopy_kept (p : Fin 8) (addr : Nat) (data : List Byte) (mf : MemFaults) (hs : Kept s₀ s) :
    KeptOut s₀ (execHuskCowCopy p addr data mf s) := by
  unfold execHuskCowCopy
  refine .next ?_
  repeat' first
    | with_reducible assumption
    | with_reducible apply State.storeChecked_kept
    | split

theorem execHuskReserveFreed_kept (p : Fin 8) (hs : Kept s₀ s) :
    KeptOut s₀ (execHuskReserveFreed p s) := by
  unfold execHuskReserveFreed
  refine .next ?_
  repeat' first
    | with_reducible assumption
    | with_reducible apply State.releaseHeld_kept
    | split

theorem execHuskOverflow_kept (p : Fin 8) (hs : Kept s₀ s) :
    KeptOut s₀ (execHuskOverflow p s) := by
  unfold execHuskOverflow
  refine .next ?_
  repeat' first
    | with_reducible assumption
    | with_reducible apply State.huskAbandon_kept
    | split

theorem execHuskShardDrained_kept (p : Fin 8) (i : Nat) (mf : MemFaults) (hs : Kept s₀ s) :
    KeptOut s₀ (execHuskShardDrained p i mf s) := by
  unfold execHuskShardDrained
  refine .next ?_
  repeat' first
    | with_reducible assumption
    | with_reducible apply State.frozenBytes_kept
    | with_reducible apply State.modHusk_kept
    | with_reducible apply State.huskAbandon_kept
    | with_reducible apply State.huskPut_kept
    | extract_lets
    | split

theorem execHuskManifestSend_kept (p : Fin 8) (hs : Kept s₀ s) :
    KeptOut s₀ (execHuskManifestSend p s) := by
  unfold execHuskManifestSend
  refine .next ?_
  repeat' first
    | with_reducible assumption
    | with_reducible apply State.huskForget_kept
    | with_reducible apply State.manifest_kept
    | with_reducible apply State.modHusk_kept
    | with_reducible apply State.huskPut_kept
    | extract_lets
    | split

theorem execHuskComplete_kept (p : Fin 8) (hs : Kept s₀ s) :
    KeptOut s₀ (execHuskComplete p s) := by
  unfold execHuskComplete
  refine .next ?_
  repeat' first
    | with_reducible assumption
    | with_reducible apply State.huskForget_kept
    | with_reducible apply State.modHusk_kept
    | with_reducible apply State.releaseHeld_kept
    | with_reducible apply State.huskLog_kept
    | with_reducible apply State.setFlag_kept
    | with_reducible apply State.ctrAdd_kept
    | split

theorem execHuskRolledBack_kept (p : Fin 8) (hs : Kept s₀ s) :
    KeptOut s₀ (execHuskRolledBack p s) := by
  unfold execHuskRolledBack
  refine .next ?_
  repeat' first
    | with_reducible assumption
    | with_reducible apply Kept.foldl
    | with_reducible apply State.partBack_kept
    | with_reducible apply State.modHusk_kept
    | with_reducible apply State.huskLog_kept
    | with_reducible apply State.setFlag_kept
    | with_reducible apply State.respondWaiting_kept
    | with_reducible apply State.endTickets_kept
    | split
    | intro _

theorem execHuskManifestCheck_kept (p : Fin 8) (manifest : List Byte) (verified : Bool) (hs : Kept s₀ s) :
    KeptOut s₀ (execHuskManifestCheck p manifest verified s) := by
  unfold execHuskManifestCheck
  refine .next ?_
  repeat' first
    | with_reducible assumption
    | with_reducible apply State.huskLog_kept
    | with_reducible apply State.restoreEnd_kept
    | with_reducible apply State.modHusk_kept
    | split
    | dsimp +zetaDelta only

theorem execHuskShardRestore_kept (p : Fin 8) (i : Nat) (data : List Byte) (hs : Kept s₀ s) :
    KeptOut s₀ (execHuskShardRestore p i data s) := by
  unfold execHuskShardRestore
  refine .next ?_
  repeat' first
    | with_reducible assumption
    | with_reducible apply State.store_kept
    | with_reducible apply State.huskLog_kept
    | with_reducible apply State.scramble_kept
    | with_reducible apply State.modHusk_kept
    | split
    | dsimp +zetaDelta only
    | fail_if_no_progress (with_reducible apply Kept.mk_of <;> try first | with_reducible rfl | exact id | exact Nat.le_refl _)

theorem execHuskRestored_kept (p : Fin 8) (hs : Kept s₀ s) :
    KeptOut s₀ (execHuskRestored p s) := by
  unfold execHuskRestored
  refine .next ?_
  repeat' first
    | with_reducible assumption
    | with_reducible apply State.restoreEnd_kept
    | split

/-! ### LVX memory accesses -/

theorem execLvld_kept (h : Fin 64) (sz : Fin 4) (rm : Fin 8) (rd rs1 rs2 : Fin 32) (mf : MemFaults) (hs : Kept s₀ s) :
    KeptOut s₀ (execLvld h sz rm rd rs1 rs2 mf s) := by
  unfold execLvld
  refine .next ?_
  repeat' first
    | with_reducible assumption
    | with_reducible apply State.vecMem_kept
    | with_reducible apply State.coreFault_kept
    | with_reducible apply State.coreLoad_kept
    | extract_lets
    | split
    | intro _

theorem execLvst_kept (h : Fin 64) (sz : Fin 4) (rm : Fin 8) (rd rs1 rs2 : Fin 32) (mf : MemFaults) (hs : Kept s₀ s) :
    KeptOut s₀ (execLvst h sz rm rd rs1 rs2 mf s) := by
  unfold execLvst
  refine .next ?_
  repeat' first
    | with_reducible assumption
    | with_reducible apply State.vecMem_kept
    | with_reducible apply State.coreFault_kept
    | with_reducible apply State.coreStore_kept
    | extract_lets
    | split
    | intro _

theorem execLvldff_kept (h : Fin 64) (sz : Fin 4) (rm : Fin 8) (rd rs1 rs2 : Fin 32) (mf : MemFaults) (hs : Kept s₀ s) :
    KeptOut s₀ (execLvldff h sz rm rd rs1 rs2 mf s) := by
  unfold execLvldff
  refine .next ?_
  repeat' first
    | with_reducible assumption
    | with_reducible apply State.vecMem_kept
    | with_reducible apply State.coreFault_kept
    | with_reducible apply State.firstElems_kept
    | with_reducible apply State.finishFirst_kept
    | with_reducible apply State.modCore_kept
    | with_reducible apply State.newOp_kept
    | with_reducible apply State.sendPieces_kept
    | with_reducible apply Kept.of_thd (by assumption)
    | extract_lets
    | split
    | intro _

/-! ### Register accesses and buses -/

theorem execIcLineDataAccess_kept (m : Master) (write : Option W32) (hs : Kept s₀ s) :
    KeptOut s₀ (execIcLineDataAccess m write s) := by
  unfold execIcLineDataAccess
  refine .next ?_
  repeat' first
    | with_reducible assumption
    | with_reducible apply State.writeRow_kept
    | with_reducible apply State.readRow_kept
    | split

theorem execRegisterWrite_kept (m : Master) (addr : Nat) (v : W32) (hs : Kept s₀ s) :
    KeptOut s₀ (execRegisterWrite m addr v s) := by
  unfold execRegisterWrite
  refine .next ?_
  repeat' first
    | with_reducible assumption
    | with_reducible apply State.writeRow_kept
    | with_reducible apply State.emit_kept
    | with_reducible apply State.coreTrap_kept
    | split

theorem execI3cPrivateWrite_kept (off : Fin 65536) (data : List Byte) (hs : Kept s₀ s) :
    KeptOut s₀ (execI3cPrivateWrite off data s) := by
  unfold execI3cPrivateWrite
  refine .next ?_
  repeat' first
    | with_reducible assumption
    | with_reducible apply State.setFlag_kept
    | with_reducible apply State.modPower_kept
    | with_reducible apply State.forN_kept
    | with_reducible apply State.i3cPut_kept
    | split
    | intro _

theorem execI3cPrivateRead_kept (len : Nat) (hs : Kept s₀ s) :
    KeptOut s₀ (execI3cPrivateRead len s) := by
  unfold execI3cPrivateRead
  refine .next ?_
  repeat' first
    | with_reducible assumption
    | with_reducible apply State.i3cWords_kept
    | with_reducible apply State.emit_kept
    | split

theorem execMbacc_kept (off : Fin 512) (write : Option W64) (hs : Kept s₀ s) :
    KeptOut s₀ (execMbacc off write s) := by
  unfold execMbacc
  refine .next ?_
  repeat' first
    | with_reducible assumption
    | with_reducible apply State.readBlock_kept
    | with_reducible apply State.tapShift_kept
    | with_reducible apply State.mboxWrite_kept
    | split

/-! ### Deferred activities -/

theorem execMaintDeferredStart_kept (n : Nat) (o : Observed) (hs : Kept s₀ s) :
    KeptOut s₀ (execMaintDeferredStart n o s) := by
  unfold execMaintDeferredStart
  refine .next ?_
  repeat' first
    | with_reducible assumption
    | with_reducible apply State.startTicket_kept
    | with_reducible apply State.evacuate_kept
    | with_reducible apply State.performDeferred_kept
    | split

/-! ### SVX memory accesses -/

theorem execSvld_kept (h : Fin 64) (sz : Fin 4) (pg : Fin 8) (rd rs1 rs2 : Fin 32) (mf : MemFaults) (hs : Kept s₀ s) :
    KeptOut s₀ (execSvld h sz pg rd rs1 rs2 mf s) := by
  unfold execSvld
  refine .next ?_
  repeat' first
    | with_reducible assumption
    | with_reducible apply State.vecMem_kept
    | with_reducible apply State.modCore_kept
    | with_reducible apply State.coreFault_kept
    | with_reducible apply State.coreLoad_kept
    | extract_lets
    | split
    | intro _

theorem execSvst_kept (h : Fin 64) (sz : Fin 4) (pg : Fin 8) (rd rs1 rs2 : Fin 32) (mf : MemFaults) (hs : Kept s₀ s) :
    KeptOut s₀ (execSvst h sz pg rd rs1 rs2 mf s) := by
  unfold execSvst
  refine .next ?_
  repeat' first
    | with_reducible assumption
    | with_reducible apply State.vecMem_kept
    | with_reducible apply State.modCore_kept
    | with_reducible apply State.coreFault_kept
    | with_reducible apply State.coreStore_kept
    | extract_lets
    | split
    | intro _

/-! ### The vector engine -/

theorem execVcmp_kept (t : Fin 4) (mf : MemFaults) (hs : Kept s₀ s) :
    KeptOut s₀ (execVcmp t mf s) := by
  unfold execVcmp
  refine .next ?_
  repeat' first
    | with_reducible assumption
    | with_reducible apply State.takeVe_kept
    | with_reducible apply State.veElems_kept
    | intro _

theorem execVsel_kept (t : Fin 4) (mf : MemFaults) (hs : Kept s₀ s) :
    KeptOut s₀ (execVsel t mf s) := by
  unfold execVsel
  refine .next ?_
  repeat' first
    | with_reducible assumption
    | with_reducible apply State.takeVe_kept
    | with_reducible apply State.veElems_kept
    | intro _

theorem execVact_kept (t : Fin 4) (mf : MemFaults) (hs : Kept s₀ s) :
    KeptOut s₀ (execVact t mf s) := by
  unfold execVact
  refine .next ?_
  repeat' first
    | with_reducible assumption
    | with_reducible apply State.takeVe_kept
    | with_reducible apply State.veElems_kept
    | intro _

theorem execVpoly_kept (t : Fin 4) (mf : MemFaults) (hs : Kept s₀ s) :
    KeptOut s₀ (execVpoly t mf s) := by
  unfold execVpoly
  refine .next ?_
  repeat' first
    | with_reducible assumption
    | with_reducible apply State.takeVe_kept
    | with_reducible apply State.scan_kept
    | with_reducible apply State.failVe_kept
    | with_reducible apply State.veElems_kept
    | with_reducible apply Kept.of_snd (by assumption)
    | split
    | intro _

theorem execVcvt_kept (t : Fin 4) (mf : MemFaults) (hs : Kept s₀ s) :
    KeptOut s₀ (execVcvt t mf s) := by
  unfold execVcvt
  refine .next ?_
  repeat' first
    | with_reducible assumption
    | with_reducible apply State.takeVe_kept
    | with_reducible apply State.veElems_kept
    | intro _

theorem execVtopk_kept (t : Fin 4) (mf : MemFaults) (hs : Kept s₀ s) :
    KeptOut s₀ (execVtopk t mf s) := by
  unfold execVtopk
  refine .next ?_
  repeat' first
    | with_reducible assumption
    | with_reducible apply State.takeVe_kept
    | with_reducible apply State.scanAll_kept
    | with_reducible apply State.writeFail_kept
    | with_reducible apply State.putCodes_kept
    | with_reducible apply State.veFlags_kept
    | with_reducible apply State.failVe_kept
    | with_reducible apply Kept.of_snd (by assumption)
    | split
    | intro _
    | dsimp +zetaDelta only

theorem execVrng_kept (t : Fin 4) (mf : MemFaults) (hs : Kept s₀ s) :
    KeptOut s₀ (execVrng t mf s) := by
  unfold execVrng
  refine .next ?_
  repeat' first
    | with_reducible assumption
    | with_reducible apply State.takeVe_kept
    | with_reducible apply State.writeFail_kept
    | with_reducible apply State.putCodes_kept
    | with_reducible apply State.failVe_kept
    | with_reducible apply State.storeChecked_kept
    | with_reducible apply Kept.of_snd (by assumption)
    | extract_lets
    | split
    | intro _

theorem execVeInstrDone_kept (t : Fin 4) (hs : Kept s₀ s) :
    KeptOut s₀ (execVeInstrDone t s) := by
  unfold execVeInstrDone
  refine .next ?_
  repeat' first
    | with_reducible assumption
    | with_reducible apply State.modTile_kept
    | with_reducible apply State.completeFirst_kept
    | split

theorem execCslc_kept (t : Fin 4) (mf : MemFaults) (hs : Kept s₀ s) :
    KeptOut s₀ (execCslc t mf s) := by
  unfold execCslc
  refine .next ?_
  repeat' first
    | with_reducible assumption
    | with_reducible apply State.popHead_kept
    | with_reducible apply State.failEntry_kept
    | with_reducible apply State.activate_kept
    | with_reducible apply State.cutRows_kept
    | with_reducible apply State.scrambleAll_kept
    | with_reducible apply Kept.of_thd (by assumption)
    | with_reducible apply Kept.of_some_snd (by assumption)
    | extract_lets
    | split

/-! ### View accesses -/

theorem execViewRead_kept (t : Fin 4) (p : Fin 8) (v : Fin 256) (off len : Nat) (mf : MemFaults) (hs : Kept s₀ s) :
    KeptOut s₀ (execViewRead t p v off len mf s) := by
  unfold execViewRead
  refine .next ?_
  repeat' first
    | with_reducible assumption
    | with_reducible apply State.viewRefused_kept
    | with_reducible apply State.viewRead_kept
    | with_reducible apply State.emit_kept
    | split

theorem execViewWriteReplace_kept (t : Fin 4) (p : Fin 8) (v : Fin 256) (off : Nat) (data : List Byte) (mf : MemFaults) (hs : Kept s₀ s) :
    KeptOut s₀ (execViewWriteReplace t p v off data mf s) := by
  unfold execViewWriteReplace
  refine .next ?_
  repeat' first
    | with_reducible assumption
    | with_reducible apply State.viewWriteRow_kept
    | split

theorem execViewWriteAccumulate_kept (t : Fin 4) (p : Fin 8) (v : Fin 256) (off : Nat) (data : List Byte) (mf : MemFaults) (hs : Kept s₀ s) :
    KeptOut s₀ (execViewWriteAccumulate t p v off data mf s) := by
  unfold execViewWriteAccumulate
  refine .next ?_
  repeat' first
    | with_reducible assumption
    | with_reducible apply State.viewWriteRow_kept
    | split

end

/-- Every command but the rise of PWRGD_IN keeps what `Kept` names. -/
theorem exec_kept (c : Instr) (s : State) (notRise : ∀ f l, c ≠ .pwrgdRise f l) : KeptOut s (exec c s) := by
  have r := Kept.refl s
  cases c with
  | pwrgdRise f l => exact absurd rfl (notRise f l)
  | overcurrent => exact .next (State.modIsland_kept (hs := r) ..)
  | thermtrip => exact .next (State.thermTrip_kept (hs := r) ..)
  | vackWrite => exact .next (State.vackWrite_kept (hs := r) ..)
  | i3cAddressAssign | i3cEnec | trst => exact .next (State.modPower_kept (hs := r) ..)
  | extest | samplePreload => exact .next (State.boundaryScan_kept (hs := r) ..)
  | idcode => exact .next (State.tapShift_kept (hs := r) ..)
  | bypass => exact .next (State.tapBypass_kept (hs := r) ..)
  | sqwaitRelease => exact .next (State.releaseCondition_kept (hs := r) ..)
  | sqwaitTimeout => exact .next (State.timeoutCondition_kept (hs := r) ..)
  | copyDone | cslcDone => exact .next (State.completeFirst_kept (hs := r) ..)
  | rstore | rfstore => exact .next (State.issueStore_kept (hs := r) ..)
  | rput | rget => exact .next (State.issueXfer_kept (hs := r) ..)
  | counterAdditionSend => exact .next (State.sendAdd_kept (hs := r) ..)
  | connectionFailure => exact .next (State.connFail_kept (hs := r) ..)
  | windowInvalidation => exact .next (State.emit_kept _ (State.modConn_kept _ _ r))
  | vadd | vsub | vmul | vfma | vfms | vdiv | vsqrt | vmax | vmin | vabs | vneg | vand | vor | vxor => exact .next (State.veElem_kept (hs := r) ..)
  | vrsqrt | vexp | vexp2 | vlog | vlog2 | vsin | vcos | vtanh | verf => exact .next (State.veBounded_kept (hs := r) ..)
  | vshl | vsra | vsrl => exact .next (State.veShift_kept (hs := r) ..)
  | vrsum | vrdot | vrmax | vrmin => exact .next (State.veReduce_kept (hs := r) ..)
  | hbmEpoch => exact .next (State.modStack_kept (hs := r) ..)
  | badFrame => exact .next (State.modPort_kept (hs := r) ..)
  | detectTimeout | alignTimeout | exchangeTimeout => exact .next (State.stepTimeout_kept (hs := r) ..)
  | laserSourceFail => exact .next (State.setSources_kept (hs := r) ..)
  | coreCsrAccess => exact .next (State.csrAccess_kept (hs := r) ..)
  | svadd | svsub | svadds | svaddsu | svsubs | svsubsu | svmul | svmulhr | svsrar | svslls | svsll | svsrl | svsra | svmin | svmax | svminu
  | svmaxu | svand | svor | svxor | svavgr => exact .next (State.svInt_kept (hs := r) ..)
  | svcmpeq | svcmplt | svcmpltu => exact .next (State.svCmp_kept (hs := r) ..)
  | svsel | svmv | svpop | lvfmin | lvfmax | lvfsum | lvfcvt | lvins | lvext | lvsplat => exact .next (State.vecRun_kept (hs := r) ..)
  | svfadd | svfmul | svfma => exact .next (State.svFloat_kept (hs := r) ..)
  | lvfadd | lvfsub | lvfmul | lvfma | lvfnms | lvfdiv | lvfsqrt => exact .next (State.lvRound_kept (hs := r) ..)
  | lvadd | lvsub | lvand | lvor | lvxor => exact .next (State.lvInt_kept (hs := r) ..)
  | ctPortRead | ctPortAdd | ctPortSet | ctPortCas | ctPortArm | ctPortDisarm | dbTailWrite | dbCheadWrite | acCohDataWrite
  | maRepairDataWrite | hcScrubCfgWrite => exact .next (State.writeRow_kept (hs := r) ..)
  | ctPResLoRead | dbRpendRead | maRepairDataRead | hcLastUeLoRead | acMtimeLoRead | idSerialLoRead | flNewestLoRead | rkDataRead
  | sqRingDataRead | sqCtxDataRead | hcRegDataRead | hcRepairDataRead | wvDataRead | acCoreDataRead | dmSlotDataRead | xpConnDataRead
  | opLaneDataRead | lsDataRead | plTblDataRead | hkDataRead | stDataRead | flDataRead | ckDataRead | pwDataRead | maFlagsRead | veFlagsRead
  | sqFlagsRead | hcFlagsRead | wvFlagsRead | acFlagsRead | dmFlagsRead | ctFlagsRead | ctHitRead | xpFlagsRead | opFlagsRead | lsFlagsRead
  | plFlagsRead | rkFlagsRead | hkFlagsRead | stFlagsRead | mbFlagsRead | idFlagsRead | flFlagsRead | ckFlagsRead | pwFlagsRead
  | acCohDataRead => exact .next (State.readRow_kept (hs := r) ..)
  | pinnedAck | pinnedResend => exact .next (State.modCk_kept (hs := r) ..)
  | status => exact .next (State.serve_kept _ _ _ r fun _ _ h => State.runStatus_kept (hs := h) ..)
  | nodeReady => exact .next (State.serve_kept _ _ _ r fun _ _ h => State.runNodeReady_kept (hs := h) ..)
  | restart => exact .next (State.serve_kept _ _ _ r fun _ _ h => State.runRestart_kept (hs := h) ..)
  | coreStart => exact .next (State.serve_kept _ _ _ r fun _ _ h => State.runCoreStart_kept (hs := h) ..)
  | join => exact .next (State.serve_kept _ _ _ r fun _ _ h => State.runJoin_kept (hs := h) ..)
  | placeSet => exact .next (State.serve_kept _ _ _ r fun _ _ h => State.runPlaceSet_kept (hs := h) ..)
  | notifySet => exact .next (State.serve_kept _ _ _ r fun _ _ h => State.runNotifySet_kept (hs := h) ..)
  | partSet => exact .next (State.serve_kept _ _ _ r fun _ _ h => State.runPartSet_kept (hs := h) ..)
  | partStart => exact .next (State.serve_kept _ _ _ r fun _ _ h => State.runPartStart_kept (hs := h) ..)
  | partStop => exact .next (State.serve_kept _ _ _ r fun _ _ h => State.runPartStop_kept (hs := h) ..)
  | partReset => exact .next (State.serve_kept _ _ _ r fun _ _ h => State.runPartReset_kept (hs := h) ..)
  | keySet => exact .next (State.serve_kept _ _ _ r fun _ _ h => State.runKeySet_kept (hs := h) ..)
  | keyGet => exact .next (State.serve_kept _ _ _ r fun _ _ h => State.runKeyGet_kept (hs := h) ..)
  | memInterleave => exact .next (State.serve_kept _ _ _ r fun _ _ h => State.runMemInterleave_kept (hs := h) ..)
  | memRegulator => exact .next (State.serve_kept _ _ _ r fun _ _ h => State.runMemRegulator_kept (hs := h) ..)
  | memBlockMode => exact .next (State.serve_kept _ _ _ r fun _ _ h => State.runMemBlockMode_kept (hs := h) ..)
  | memUeLimit => exact .next (State.serve_kept _ _ _ r fun _ _ h => State.runMemUeLimit_kept (hs := h) ..)
  | memScrub => exact .next (State.serve_kept _ _ _ r fun _ _ h => State.runMemScrub_kept (hs := h) ..)
  | rowAck => exact .next (State.serve_kept _ _ _ r fun _ _ h => State.runRowAck_kept (hs := h) ..)
  | retireRead => exact .next (State.serve_kept _ _ _ r fun _ _ h => State.runRetireRead_kept (hs := h) ..)
  | portRoles => exact .next (State.serve_kept _ _ _ r fun _ _ h => State.runPortRoles_kept (hs := h) ..)
  | laneLimit => exact .next (State.serve_kept _ _ _ r fun _ _ h => State.runLaneLimit_kept (hs := h) ..)
  | portRetrain => exact .next (State.serve_kept _ _ _ r fun _ _ h => State.runPortRetrain_kept (hs := h) ..)
  | laserEvacuate => exact .next (State.serve_kept _ _ _ r fun _ _ h => State.runLaserEvacuate_kept (hs := h) ..)
  | tableSet => exact .next (State.serve_kept _ _ _ r fun _ _ h => State.runTableSet_kept (hs := h) ..)
  | exportSet => exact .next (State.serve_kept _ _ _ r fun _ _ h => State.runExportSet_kept (hs := h) ..)
  | replicaSet => exact .next (State.serve_kept _ _ _ r fun _ _ h => State.runReplicaSet_kept (hs := h) ..)
  | domainTimeout => exact .next (State.serve_kept _ _ _ r fun _ _ h => State.runDomainTimeout_kept (hs := h) ..)
  | windowSet => exact .next (State.serve_kept _ _ _ r fun _ _ h => State.runWindowSet_kept (hs := h) ..)
  | connOpen => exact .next (State.serve_kept _ _ _ r fun _ _ h => State.runConnOpen_kept (hs := h) ..)
  | connClose => exact .next (State.serve_kept _ _ _ r fun _ _ h => State.runConnClose_kept (hs := h) ..)
  | connTimeout => exact .next (State.serve_kept _ _ _ r fun _ _ h => State.runConnTimeout_kept (hs := h) ..)
  | viewSet => exact .next (State.serve_kept _ _ _ r fun _ _ h => State.runViewSet_kept (hs := h) ..)
  | viewCounts => exact .next (State.serve_kept _ _ _ r fun _ _ h => State.runViewCounts_kept (hs := h) ..)
  | huskConfig => exact .next (State.serve_kept _ _ _ r fun _ _ h => State.runHuskConfig_kept (hs := h) ..)
  | huskFreeze => exact .next (State.serve_kept _ _ _ r fun _ _ h => State.runHuskFreeze_kept (hs := h) ..)
  | huskAbandon => exact .next (State.serve_kept _ _ _ r fun _ _ h => State.runHuskAbandon_kept (hs := h) ..)
  | huskCommit => exact .next (State.serve_kept _ _ _ r fun _ _ h => State.runHuskCommit_kept (hs := h) ..)
  | huskRollback => exact .next (State.serve_kept _ _ _ r fun _ _ h => State.runHuskRollback_kept (hs := h) ..)
  | huskRestore => exact .next (State.serve_kept _ _ _ r fun _ _ h => State.runHuskRestore_kept (hs := h) ..)
  | ringSet => exact .next (State.serve_kept _ _ _ r fun _ _ h => State.runRingSet_kept (hs := h) ..)
  | groupSet => exact .next (State.serve_kept _ _ _ r fun _ _ h => State.runGroupSet_kept (hs := h) ..)
  | groupReset => exact .next (State.serve_kept _ _ _ r fun _ _ h => State.runGroupReset_kept (hs := h) ..)
  | sensors => exact .next (State.serve_kept _ _ _ r fun _ _ h => State.runSensors_kept (hs := h) ..)
  | tillerCap => exact .next (State.serve_kept _ _ _ r fun _ _ h => State.runTillerCap_kept (hs := h) ..)
  | tillerState => exact .next (State.serve_kept _ _ _ r fun _ _ h => State.runTillerState_kept (hs := h) ..)
  | fwInfo => exact .next (State.serve_kept _ _ _ r fun _ _ h => State.runFwInfo_kept (hs := h) ..)
  | fwWrite => exact .next (State.serve_kept _ _ _ r fun _ _ h => State.runFwWrite_kept (hs := h) ..)
  | fwVerify => exact .next (State.serve_kept _ _ _ r fun _ _ h => State.runFwVerify_kept (hs := h) ..)
  | fwActivate => exact .next (State.serve_kept _ _ _ r fun _ _ h => State.runFwActivate_kept (hs := h) ..)
  | fwCommit => exact .next (State.serve_kept _ _ _ r fun _ _ h => State.runFwCommit_kept (hs := h) ..)
  | ucodeApply => exact .next (State.serve_kept _ _ _ r fun _ _ h => State.runUcodeApply_kept (hs := h) ..)
  | logInfo => exact .next (State.serve_kept _ _ _ r fun _ _ h => State.runLogInfo_kept (hs := h) ..)
  | logRead => exact .next (State.serve_kept _ _ _ r fun _ _ h => State.runLogRead_kept (hs := h) ..)
  | hbm1500 => exact .next (State.serve_kept _ _ _ r fun _ _ h => State.runHbm1500_kept (hs := h) ..)
  | hbmBist => exact .next (State.serve_kept _ _ _ r fun _ _ h => State.runHbmBist_kept (hs := h) ..)
  | hbmModereg => exact .next (State.serve_kept _ _ _ r fun _ _ h => State.runHbmModereg_kept (hs := h) ..)
  | hbmRepair => exact .next (State.serve_kept _ _ _ r fun _ _ h => State.runHbmRepair_kept (hs := h) ..)
  | arrayMap => exact .next (State.serve_kept _ _ _ r fun _ _ h => State.runArrayMap_kept (hs := h) ..)
  | maintStatus => exact .next (State.serve_kept _ _ _ r fun _ _ h => State.runMaintStatus_kept (hs := h) ..)
  | maintCancel => exact .next (State.serve_kept _ _ _ r fun _ _ h => State.runMaintCancel_kept (hs := h) ..)
  | pwrgdFall => exact execPwrgdFall_kept r
  | resetAssert => exact execResetAssert_kept r
  | resetRelease => exact execResetRelease_kept r
  | refclkLoss => exact execRefclkLoss_kept r
  | refclkReturn => exact execRefclkReturn_kept r
  | latchOpen => exact execLatchOpen_kept r
  | latchClose => exact execLatchClose_kept r
  | buttonPress => exact execButtonPress_kept r
  | serviceButton => exact execServiceButton_kept _ r
  | buttonStuck => exact execButtonStuck_kept r
  | railSample => exact execRailSample_kept _ _ r
  | thermalSample => exact execThermalSample_kept _ r
  | thermtripRelease => exact execThermtripRelease_kept r
  | vsetTimeout => exact execVsetTimeout_kept _ r
  | islandSample => exact execIslandSample_kept _ _ r
  | i3cPrivateWrite => exact execI3cPrivateWrite_kept _ _ r
  | i3cPrivateRead => exact execI3cPrivateRead_kept _ r
  | mbacc => exact execMbacc_kept _ _ r
  | stage1ImageVerify => exact execStage1ImageVerify_kept _ _ _ _ _ r
  | stage2Hbm => exact execStage2Hbm_kept _ r
  | stage3Boot => exact execStage3Boot_kept _ r
  | stage4TillerBringup => exact execStage4TillerBringup_kept _ _ _ r
  | stage4Complete => exact execStage4Complete_kept r
  | domainJoin => exact execDomainJoin_kept r
  | stageBudgetExpiry => exact execStageBudgetExpiry_kept r
  | scarabLockstep => exact execScarabLockstep_kept r
  | scarabRestartDone => exact execScarabRestartDone_kept r
  | fwReverted => exact execFwReverted_kept r
  | maintDeferredStart => exact execMaintDeferredStart_kept _ _ r
  | logProgram => exact execLogProgram_kept _ _ _ r
  | pinnedWrite => exact execPinnedWrite_kept _ _ r
  | entryStart => exact execEntryStart_kept _ _ r
  | collSlotRelease => exact execCollSlotRelease_kept _ _ r
  | timeSlice => exact execTimeSlice_kept _ _ r
  | contextWake => exact execContextWake_kept _ _ r
  | queueSpaceFreed => exact execQueueSpaceFreed_kept _ _ r
  | queueEntry => exact execQueueEntry_kept _ _ _ r
  | entryTimeout => exact execEntryTimeout_kept _ _ r
  | entryComplete => exact execEntryComplete_kept _ _ r
  | nop => exact execNop_kept _ _ _ r
  | endEntry => exact execEnd_kept _ _ _ r
  | endAbort => exact execEndAbort_kept _ _ _ r
  | li => exact execLi_kept _ _ _ r
  | alu => exact execAlu_kept _ _ _ r
  | alui => exact execAlui_kept _ _ _ r
  | ld => exact execLd_kept _ _ _ r
  | st => exact execSt_kept _ _ _ r
  | br => exact execBr_kept _ _ _ r
  | jal => exact execJal_kept _ _ _ r
  | jalr => exact execJalr_kept _ _ _ r
  | yield => exact execYield_kept _ _ _ r
  | csrr => exact execCsrr_kept _ _ _ r
  | sfenceQueue => exact execSfenceQueue_kept _ _ _ r
  | sfenceAll => exact execSfenceAll_kept _ _ _ r
  | sqwait => exact execSqwait_kept _ _ _ r
  | tadd => exact execTadd_kept _ _ _ r
  | tset => exact execTset_kept _ _ _ r
  | tcas => exact execTcas_kept _ _ _ r
  | tread => exact execTread_kept _ _ _ r
  | twait => exact execTwait_kept _ _ _ r
  | twaitTimeout => exact execTwaitTimeout_kept _ _ r
  | ccopy => exact execCcopy_kept _ _ _ r
  | cfill => exact execCfill_kept _ _ _ r
  | cgather => exact execCgather_kept _ _ _ r
  | rload => exact execRload_kept _ _ _ r
  | ratom => exact execRatom_kept _ _ _ r
  | rtadd t q mf => exact execRtadd_kept t q mf r
  | remoteOpDone => exact execRemoteOpDone_kept _ r
  | flaggedStoreRelease => exact execFlaggedStoreRelease_kept _ _ r
  | planeHoldRelease => exact execPlaneHoldRelease_kept _ _ r
  | domainStorePiece => exact execDomainStorePiece_kept _ _ _ _ _ _ r
  | domainLoadRequest => exact execDomainLoadRequest_kept _ _ _ _ _ _ r
  | domainAtomicPiece => exact execDomainAtomicPiece_kept _ _ _ _ _ _ _ _ _ r
  | domainCounterAddition => exact execDomainCounterAddition_kept _ _ _ _ _ r
  | domainAck => exact execDomainAck_kept _ _ r
  | domainLoadData => exact execDomainLoadData_kept _ _ _ _ r
  | domainAtomicResult => exact execDomainAtomicResult_kept _ _ _ r
  | domainRefusal => exact execDomainRefusal_kept _ _ _ r
  | domainAccessTimeout => exact execDomainAccessTimeout_kept _ _ r
  | putPiece => exact execPutPiece_kept _ _ _ _ _ _ _ r
  | getRequest => exact execGetRequest_kept _ _ _ _ _ _ _ r
  | getResponse => exact execGetResponse_kept _ _ _ _ r
  | transportCounterAddition => exact execTransportCounterAddition_kept _ _ _ _ _ r
  | transportAck => exact execTransportAck_kept _ _ _ r
  | transportNak => exact execTransportNak_kept _ r
  | transportRefusal => exact execTransportRefusal_kept _ _ _ r
  | retransmissionTimeout => exact execRetransmissionTimeout_kept _ r
  | windowFetch => exact execWindowFetch_kept _ _ r
  | windowDescriptor => exact execWindowDescriptor_kept _ _ _ _ _ _ _ _ _ _ r
  | mldb => exact execMldb_kept _ _ _ r
  | mmul => exact execMmul_kept _ _ _ _ r
  | macm => exact execMacm_kept _ _ _ r
  | mfld => exact execMfld_kept _ _ _ r
  | mcmb => exact execMcmb_kept _ _ _ r
  | msetp => exact execMsetp_kept _ _ _ r
  | msete => exact execMsete_kept _ _ _ r
  | mepi => exact execMepi_kept _ _ _ r
  | mchn => exact execMchn_kept _ _ _ r
  | mwait => exact execMwait_kept _ _ r
  | mwaitRelease => exact execMwaitRelease_kept _ _ r
  | mwaitTimeout => exact execMwaitTimeout_kept _ _ r
  | arrayOpDone => exact execArrayOpDone_kept _ _ r
  | arrayAbist => exact execArrayAbist_kept _ _ _ _ _ r
  | vcmp => exact execVcmp_kept _ _ r
  | vsel => exact execVsel_kept _ _ r
  | vact => exact execVact_kept _ _ r
  | vpoly => exact execVpoly_kept _ _ r
  | vtopk => exact execVtopk_kept _ _ r
  | vrng => exact execVrng_kept _ _ r
  | vcvt => exact execVcvt_kept _ _ r
  | veInstrDone => exact execVeInstrDone_kept _ r
  | cslc => exact execCslc_kept _ _ r
  | spmBankCopy => exact execSpmBankCopy_kept _ r
  | hbmRequestGrant => exact execHbmRequestGrant_kept _ r
  | hbmPatrolScrub => exact execHbmPatrolScrub_kept _ _ _ r
  | hbmRefresh => exact .next r
  | hbmTempRead => exact execHbmTempRead_kept _ _ r
  | hbmSoftRepair => exact execHbmSoftRepair_kept _ _ r
  | hbmRowFence => exact execHbmRowFence_kept _ _ r
  | viewRead => exact execViewRead_kept _ _ _ _ _ _ r
  | viewWriteReplace => exact execViewWriteReplace_kept _ _ _ _ _ _ r
  | viewWriteAccumulate => exact execViewWriteAccumulate_kept _ _ _ _ _ _ r
  | huskTrigger => exact execHuskTrigger_kept _ r
  | huskFrozen => exact execHuskFrozen_kept _ r
  | huskCowCopy => exact execHuskCowCopy_kept _ _ _ _ r
  | huskReserveFreed => exact execHuskReserveFreed_kept _ r
  | huskOverflow => exact execHuskOverflow_kept _ r
  | huskShardDrained => exact execHuskShardDrained_kept _ _ _ r
  | huskManifestSend => exact execHuskManifestSend_kept _ r
  | huskComplete => exact execHuskComplete_kept _ r
  | huskRolledBack => exact execHuskRolledBack_kept _ r
  | huskManifestCheck => exact execHuskManifestCheck_kept _ _ _ r
  | huskShardRestore => exact execHuskShardRestore_kept _ _ _ r
  | huskRestored => exact execHuskRestored_kept _ r
  | dataFrame => exact execDataFrame_kept _ _ r
  | idleFrame => exact execIdleFrame_kept _ _ r
  | nakFrame => exact execNakFrame_kept _ _ r
  | lanemapFrame => exact execLanemapFrame_kept _ _ r
  | trainFrame => exact execTrainFrame_kept _ _ r
  | replayTimeout => exact execReplayTimeout_kept _ r
  | linkDownTimeout => exact execLinkDownTimeout_kept _ r
  | detectSuccess => exact execDetectSuccess_kept _ r
  | alignSuccess => exact execAlignSuccess_kept _ _ _ r
  | backoffExpiry => exact execBackoffExpiry_kept _ r
  | darkProbe => exact execDarkProbe_kept _ r
  | fibreOut => exact execFibreOut_kept _ r
  | fibreIn => exact execFibreIn_kept _ r
  | lightLoss => exact execLightLoss_kept _ r
  | laneFailing => exact execLaneFailing_kept _ _ r
  | sparingTimeout => exact execSparingTimeout_kept _ r
  | laneFailed => exact execLaneFailed_kept _ _ r
  | laserPoll => exact execLaserPoll_kept _ _ _ _ _ r
  | laserModulePull => exact execLaserModulePull_kept _ r
  | laserModuleInsert => exact execLaserModuleInsert_kept _ _ _ r
  | laserSetpointReached => exact execLaserSetpointReached_kept _ r
  | feedOut => exact execFeedOut_kept _ r
  | feedIn => exact execFeedIn_kept _ _ _ r
  | cacheCe => exact .next r
  | cacheUe => exact execCacheUe_kept _ _ r
  | coreLoad => exact execCoreLoad_kept _ _ _ _ _ _ _ _ _ r
  | coreStore => exact execCoreStore_kept _ _ _ _ _ _ _ _ r
  | coreAmo h op w64 aq rl rd rs1 rs2 mf => exact execCoreAmo_kept h op w64 aq rl rd rs1 rs2 mf r
  | coreLrSc => exact execCoreLrSc_kept _ _ _ _ _ _ _ r
  | coreFence h pred succ => exact execCoreFence_kept h pred succ r
  | svld h sz pg rd rs1 rs2 mf => exact execSvld_kept h sz pg rd rs1 rs2 mf r
  | svst h sz pg rd rs1 rs2 mf => exact execSvst_kept h sz pg rd rs1 rs2 mf r
  | lvld h sz rm rd rs1 rs2 mf => exact execLvld_kept h sz rm rd rs1 rs2 mf r
  | lvldff => exact execLvldff_kept _ _ _ _ _ _ _ r
  | lvst h sz rm rd rs1 rs2 mf => exact execLvst_kept h sz rm rd rs1 rs2 mf r
  | icLineDataAccess => exact execIcLineDataAccess_kept _ _ r
  | registerWrite => exact execRegisterWrite_kept _ _ _ r
  | beacon => exact execBeacon_kept _ _ _ _ r
  | beaconMiss => exact execBeaconMiss_kept r
  | memberSlot => exact execMemberSlot_kept r
  | joinSlot => exact execJoinSlot_kept r
  | joinRetry => exact execJoinRetry_kept r
  | assign => exact execAssign_kept _ _ _ _ r
  | place => exact execPlace_kept _ _ r
  | mailbox => exact execMailbox_kept _ _ _ _ r
  | pinnedReturn => exact execPinnedReturn_kept _ _ _ r
  | offset => exact execOffset_kept _ r
  | release => exact execRelease_kept r
  | muteTimeout => exact execMuteTimeout_kept r
  | cricketFibreOut => exact execCricketFibreOut_kept r
  | cricketFibreIn => exact execCricketFibreIn_kept r
  | cricketBurst => exact execCricketBurst_kept _ _ r
  | powerOn => exact execPowerOn_kept _ _ _ _ r
  | machineTimerInterrupt => exact execMachineTimerInterrupt_kept _ r
  | liveHandOver => exact execLiveHandOver_kept r
  | undefinedOpcode => exact execUndefinedOpcode_kept _ _ _ r
  | illegalInstruction => exact execIllegalInstruction_kept _ r

/-! ### What follows from it -/

theorem Kept.with_start {s t : State} (x : Start) (h : Kept s t) : Kept { s with start := x } { t with start := x } :=
  ⟨h.pending, h.mem, h.time, h.free, h.fuse, rfl⟩

/-- The rise of PWRGD_IN loads the identity, and from then on keeps what every other command keeps. -/
theorem execPwrgdRise_keptFrom (f : Fuses) (l : Bool) (s : State) :
    ∃ x : Start, KeptOut { s with start := x } (execPwrgdRise f l s) := by
  unfold execPwrgdRise
  split
  · exact ⟨s.start, .next (.refl s)⟩
  · extract_lets s1 s2 s3 s4
    have k2 : Kept s s2 := by
      unfold s2
      split
      · exact State.modPower_kept _ (.refl s)
      · exact State.setFlag_kept _ _ (State.modPower_kept _ (State.modPower_kept _ (.refl s)))
    have k3 : Kept s s3 := State.clearService_kept _ _ (State.modLog_kept _ k2)
    exact ⟨s4.start, .next <| State.stageDone_kept _ <| State.askPinned_kept <|
      State.modSunas_kept _ (k3.with_start _) fun _ => le_max_left _ _⟩

/-- Every command keeps what `Kept` names, the identity apart. -/
theorem exec_keptFrom (c : Instr) (s : State) : ∃ x : Start, KeptOut { s with start := x } (exec c s) := by
  by_cases h : ∃ f l, c = .pwrgdRise f l
  · obtain ⟨f, l, rfl⟩ := h
    exact execPwrgdRise_keptFrom f l s
  · exact ⟨s.start, exec_kept c s fun f l e => h ⟨f, l, e⟩⟩

/-- What a step can do: let time pass, or perform the command at the front of the queue. -/
theorem step_cases {s t : State} (h : step s = .next t) :
    t = idleTick s ∨ ∃ c rest, s.pending = c :: rest ∧ exec c { s with pending := rest } = .next t := by
  unfold step at h
  split at h
  next => cases h; exact .inl rfl
  next c rest hq => exact .inr ⟨c, rest, hq, h⟩

end Sys2Proof.Machine

open Sys2Proof Sys2Proof.Machine

/-- Settles O2: what `Kept` says of the queue. -/
theorem commandsLeaveTheQueue : Obligations.CommandsLeaveTheQueue := by
  intro c s t h
  obtain ⟨x, k⟩ := exec_keptFrom c s
  exact (k t h).pending

/-- Settles O3: what `Kept` says of memory, for the command that the step performs. -/
theorem memoryStaysCanonical : Obligations.MemoryStaysCanonical := by
  intro s t wf h
  obtain rfl | ⟨c, rest, -, h⟩ := step_cases h
  · exact wf
  · obtain ⟨x, k⟩ := exec_keptFrom c { s with pending := rest }
    exact (k t h).mem wf

/-- Settles O4: what `Kept` says of package time; an idle step adds 1 ns. -/
theorem packageTimeNeverGoesBack : Obligations.PackageTimeNeverGoesBack := by
  have commands (c : Instr) (s t : State) (h : exec c s = .next t) : s.timeNs ≤ t.timeNs := by
    obtain ⟨x, k⟩ := exec_keptFrom c s
    exact (k t h).time
  refine ⟨commands, fun s t h => ?_⟩
  obtain rfl | ⟨c, rest, -, h⟩ := step_cases h
  · exact Nat.le_succ _
  · exact commands c { s with pending := rest } t h

/-- Settles O5: what `Kept` says of the identity. -/
theorem identityNeverChanges : Obligations.IdentityNeverChanges := by
  intro c s t notRise h
  have same := (exec_kept c s notRise t h).ident
  simp only [Start.ident, Prod.mk.injEq] at same
  obtain ⟨grade, stepping, mhz, serial⟩ := same
  exact ⟨grade, stepping, mhz, serial⟩

/-- Settles O6: what `Kept` says of the version in the fuses. -/
theorem rollbackVersionOnlyRises : Obligations.RollbackVersionOnlyRises := by
  intro c s t h
  obtain ⟨x, k⟩ := exec_keptFrom c s
  exact (k t h).fuse

end

section
/-! The step, and the state after reset. -/

open Sys2Proof Sys2Proof.Machine

/-- Settles O1: both clauses are the branches of `step`. -/
theorem stepTakesTheFrontCommand : Obligations.StepTakesTheFrontCommand := by
  constructor
  · intro c rest s front
    simp only [step, front]
  · intro s empty
    simp only [step, empty, idleTick]

/-- Settles O7: reset lists nothing, so each table reads as its default. -/
theorem resetState : Obligations.ResetState := by
  refine ⟨rfl, rfl, fun _ => rfl, rfl, fun _ => rfl, fun _ => rfl, fun _ => rfl, fun _ _ => rfl, fun _ => rfl, fun _ => rfl, rfl⟩

end

section
/-! The sequencer: what an instruction does in a context that issues it (R345 to R392). -/

namespace Sys2Proof.Machine

open Sys2Proof

/-! ### The state's contexts -/

theorem Tbl.upd_congr {α : Type} {d : α} {t : Tbl α} {k : Nat} {f g : α → α} (e : f (Tbl.get d t k) = g (Tbl.get d t k)) :
    Tbl.upd d t k f = Tbl.upd d t k g := by
  unfold Tbl.upd
  rw [e]

theorem State.modTile_congr {s : State} {t : Nat} {f g : Tile → Tile} (e : f (s.tile t) = g (s.tile t)) :
    s.modTile t f = s.modTile t g :=
  congrArg (fun l => { s with tiles := l }) (Tbl.upd_congr e)

/-- An update of a context depends on what it makes of that context alone. -/
theorem State.modCtx_congr {s : State} {t c : Nat} {f g : Ctx → Ctx} (e : f (s.ctx t c) = g (s.ctx t c)) :
    s.modCtx t c f = s.modCtx t c g :=
  State.modTile_congr (congrArg (fun l => { s.tile t with ctxs := l }) (Tbl.upd_congr e))

@[simp] theorem gset_zero (g : Tbl W64) (v : W64) : gset g 0 v = g := rfl

section
variable {s s' : State} {mf : MemFaults} {t : Fin 4} {c : Fin 128} {w : W128}

/-- The program counter of the context that goes on, read before it does (R388). -/
theorem State.next_eq (s : State) (t c rd : Nat) (v : W64) :
    s.next t c rd v =
      s.modCtx t c fun x => { x with g := gset x.g rd v, pc := (s.ctx t c).pc + 16, issued := x.issued + 1 } :=
  State.modCtx_congr rfl

theorem State.jump_of_legal {t c : Nat} {target : W64} (rd : Nat)
    (legal : s.inProgRange t (s.ctx t c).partition target.toNat 16 = true ∧ target.toNat % 16 = 0) :
    s.jump t c target rd =
      s.modCtx t c fun x => { x with g := gset x.g rd ((s.ctx t c).pc + 16), pc := target, issued := x.issued + 1 } := by
  obtain ⟨inside, aligned⟩ := legal
  simp only [State.jump, inside, aligned, Bool.not_true, Bool.false_eq_true, ne_eq, not_true_eq_false, if_false]
  exact State.modCtx_congr rfl

/-- The offset at which a program ends, read before the update of its context. -/
theorem State.endProgram_eq (s : State) (t c : Nat) (a : Option Nat) :
    s.endProgram t c a =
      (s.modCtx t c fun x =>
        { x with ended := some (((s.ctx t c).pc.toNat + 2 ^ 64 - (s.ctx t c).prog) % 2 ^ 32), abort := a }).leave t c .ending .idle :=
  congrArg (State.leave · t c .ending .idle) (State.modCtx_congr rfl)

/-- An instruction of the kind that its word is performs its work on the state that the fetch leaves (R390). -/
theorem runInstr_of_issues (h : Issues s mf t c w s') {is : W128 → Bool} (kind : is w = true) (body : W128 → Ctx → State → State) :
    s.runInstr t c mf is body = body w (s'.ctx t c) s' := by
  obtain ⟨can, fetched⟩ := h
  simp only [State.runInstr, can, fetched, kind, if_true]

theorem isOp_of_opc {o : Nat} (h : opc w = o) : isOp o w = true := by simp [isOp, h]

end

end Sys2Proof.Machine

open Sys2Proof Sys2Proof.Machine

/-- Settles O8: each instruction passes its checks and is `next` or a legal `jump`. -/
theorem controlInstructions : Obligations.ControlInstructions := by
  intro s s' mf t c w issues f g pc goes legal
  have next (rd : Nat) (v : W64) : s'.next t c rd v = goes rd v (pc + 16) := s'.next_eq t c rd v
  have jump (rd : Nat) (a : W64) (h : legal a) : s'.jump t c a rd = goes rd (pc + 16) a := State.jump_of_legal rd h
  have run {o : Nat} (op : opc w = o) (body : W128 → Ctx → State → State) :
      s.runInstr t c mf (isOp o) body = body w (s'.ctx t c) s' := runInstr_of_issues issues (isOp_of_opc op) body
  refine ⟨fun op rsvd => ?nop, fun op rsvd fn rs1 rs2 => ?li, fun v op val rsvd imm => ?alu, fun v op val rsvd rs2 => ?alui,
    fun taken op val rsvd rd target => ?br, fun op rsvd fn rs1 rs2 target => ?jal, fun op rsvd fn rs2 target => ?jalr,
    fun op rsvd => ?yield⟩ <;> refine congrArg Host.Outcome.next ((run op _).trans ?_)
  case nop => simp [rsvd, next]
  case li => simp [f, rsvd, fn, rs1, rs2, next]
  case alu => simp [f, g, val, rsvd, imm, next]
  case alui => simp [f, g, val, rsvd, rs2, next]
  case br =>
    cases taken with
    | false => simp [f, g, val, rsvd, rd, next, goes]
    | true => simpa [f, g, pc, val, rsvd, rd, goes] using jump 0 _ (target rfl)
  case jal => simpa [f, pc, rsvd, fn, rs1, rs2] using jump f.rd _ target
  case jalr => simp [f, g, rsvd, fn, rs2, jump _ _ target]
  case yield => simp [rsvd, next]

/-- Settles O9: each passes its check and is `endProgram`. -/
theorem endInstructions : Obligations.EndInstructions := by
  intro s s' mf t c w issues
  dsimp only
  intro op rsvd imm rd rs2
  have ends (a : Option Nat) := s'.endProgram_eq t c a
  refine ⟨fun fn rs1 => ?_, fun fn => ?_⟩
  · have kind : (isOp 0x01 w && (fmtC w).fn % 2 == 0) = true := by simp [isOp, op, fn]
    refine congrArg Host.Outcome.next ((runInstr_of_issues issues kind _).trans ?_)
    simp [endRsvd, rsvd, imm, rd, rs2, fn, rs1, ends]
  · have kind : (isOp 0x01 w && (fmtC w).fn % 2 == 1) = true := by simp [isOp, op, fn]
    refine congrArg Host.Outcome.next ((runInstr_of_issues issues kind _).trans ?_)
    simp [endRsvd, rsvd, imm, rd, rs2, fn, ends, gaddr]

namespace Sys2Proof.Machine

open Sys2Proof

theorem spmBase_ge (t : Nat) : 0x8000000000 ≤ spmBase t := by unfold spmBase; omega

theorem State.store_above {s : State} {a : Nat} {bs : List Byte} (h : 0x8000000000 ≤ a) : s.store a bs = s.poke a bs :=
  if_neg (Nat.not_lt.mpr h)

/-- A store to the scratchpads with no granule uncorrectable is made. -/
theorem State.storeChecked_clean {s : State} {a : Nat} {bs : List Byte} (clean : s.bad = []) (h : 0x8000000000 ≤ a) :
    s.storeChecked MemFaults.none a bs = (none, s.poke a bs) := by
  simp only [State.storeChecked, State.mergeErr, State.writeErr_clean clean h, State.store_above h]

end Sys2Proof.Machine

open Sys2Proof Sys2Proof.Machine

/-- Settles O10: the access passes its checks, and memory above HBM with no granule uncorrectable reads and writes. -/
theorem scratchpadAccess : Obligations.ScratchpadAccess := by
  intro s s' t c w issues
  dsimp only
  intro rsvd fn aligned inside clean
  have above : 0x8000000000 ≤ spmBase t + (greg (s'.ctx t c).g (fmtC w).rs1 + (fmtC w).imm).toNat :=
    (spmBase_ge t).trans (Nat.le_add_right ..)
  have run {o : Nat} (op : opc w = o) (body : W128 → Ctx → State → State) := runInstr_of_issues issues (isOp_of_opc op) body
  refine ⟨fun op rs2 => congrArg Host.Outcome.next ((run op _).trans ?load), fun op rd => ?store⟩
  case load =>
    simp only [rsvd, rs2, aligned, Nat.not_lt.mpr fn, Nat.not_lt.mpr inside, State.load_clean clean above, ne_eq, not_true_eq_false,
      or_self, if_false]
    rfl
  case store =>
    refine ⟨_, congrArg Host.Outcome.next (run op _), ?_⟩
    simp only [rsvd, rd, aligned, Nat.not_lt.mpr fn, Nat.not_lt.mpr inside, State.storeChecked_clean clean above, ne_eq,
      not_true_eq_false, or_self, if_false]
    exact ⟨rfl, rfl, fun wf a outside => Memory.read_writeBytes_other _ wf (by rwa [leBytes_length])⟩

/-- Settles O11: FN selects the arm that reads its value. -/
theorem csrrReads : Obligations.CsrrReads := by
  intro s s' mf t c w issues
  dsimp only
  intro op rsvd imm rs2 rs1
  have run := runInstr_of_issues issues (isOp_of_opc op)
  refine ⟨fun fn => ⟨(s'.fresh 64).1, ?_⟩, fun fn => ?_, fun fn => ?_, fun fn => ?_, fun fn => ?_, fun fn => ?_, fun fn => ?_,
    fun fn => ?_⟩ <;> refine congrArg Host.Outcome.next ((run _).trans ?_)
  all_goals simp_all [State.fresh, gaddr]

/-- Settles O12: the check passes where the island runs, and answers F_ISLAND where it has stopped. -/
theorem counterInstructions : Obligations.CounterInstructions := by
  intro s s' mf t c w issues
  dsimp only
  intro rsvd fn queue tout owns
  have run {o : Nat} (op : opc w = o) (body : W128 → Ctx → State → State) := runInstr_of_issues issues (isOp_of_opc op) body
  refine ⟨fun up => ?_, fun stopped => ?_⟩
  · have passes : s'.ctrCheck (s'.ctx t c) (fmtS w) false = none := by
      simp [State.ctrCheck, rsvd, fn, queue, gaddr, owns, up]
    refine ⟨fun op rs3 => ?_, fun op rs3 => ?_, fun op => ?_, fun op rs3 rs2 => ?_⟩ <;>
      refine congrArg Host.Outcome.next ((run op _).trans ?_)
    · simp [tout, rs3, passes, gaddr]
    · simp [tout, rs3, passes, gaddr]
    · simp only [tout, bne_self_eq_false, passes, gaddr]
      rfl
    · simp [tout, rs3, rs2, passes, gaddr]
  · have stops : s'.ctrCheck (s'.ctx t c) (fmtS w) false =
        some (F_ISLAND, (fmtS w).ctr + (greg (s'.ctx t c).g (fmtS w).rs1).toNat) := by
      simp [State.ctrCheck, rsvd, fn, queue, gaddr, owns, stopped]
    refine ⟨fun op rs3 => ?_, fun op rs3 => ?_, fun op => ?_, fun op rs3 rs2 => ?_⟩ <;>
      refine congrArg Host.Outcome.next ((run op _).trans ?_)
    · simp [tout, rs3, stops]
    · simp [tout, rs3, stops]
    · simp [tout, stops]
    · simp [tout, rs3, rs2, stops]

/-- Settles O13: the check of a wait passes, and the comparison, or the list of covered entries, selects the arm. -/
theorem waitsAndFences : Obligations.WaitsAndFences := by
  intro s s' mf t c w issues
  dsimp only
  intro rsvd
  refine ⟨fun op fn queue rs3 owns up => ?_, fun op fn q6 q7 tout ctr rs1 rs2 rs3 rd => ?_, fun op fn queue tout ctr rs1 rs2 rs3 rd => ?_⟩
  · refine congrArg Host.Outcome.next ((runInstr_of_issues issues (isOp_of_opc op) _).trans ?_)
    have passes : s'.ctrCheck (s'.ctx t c) (fmtS w) ((fmtS w).rs3 != 0) = none := by
      simp [State.ctrCheck, rs3, rsvd, fn, queue, gaddr, owns, up]
    simp only [passes, gaddr]
    rfl
  · have kind : (isOp 0x10 w && (fmtS w).fn != 1) = true := by simp [isOp, op, fn]
    refine congrArg Host.Outcome.next ((runInstr_of_issues issues kind _).trans ?_)
    simp [fenceRsvd, rsvd, fn, q6, q7, tout, ctr, rs1, rs2, rs3, rd, State.fenceOn]
  · have kind : (isOp 0x10 w && (fmtS w).fn == 1) = true := by simp [isOp, op, fn]
    refine congrArg Host.Outcome.next ((runInstr_of_issues issues kind _).trans ?_)
    simp [fenceRsvd, rsvd, queue, tout, ctr, rs1, rs2, rs3, rd, State.fenceOn]

/-- Settles O14: `enqueue`, which both call, tests the room of the queue. -/
theorem engineEntriesAreQueued : Obligations.EngineEntriesAreQueued := by
  intro s s' mf t c w issues
  dsimp only
  refine ⟨fun q isEngine => ?_, fun op rsvd fn rs3 rd q6 q7 owns => ?_⟩
  · have kind : (queueOf w).isSome = true := by simp [isEngine]
    refine congrArg Host.Outcome.next ((runInstr_of_issues issues kind _).trans ?_)
    simp only [isEngine, State.enqueue]
  · refine congrArg Host.Outcome.next ((runInstr_of_issues issues (isOp_of_opc op) _).trans ?_)
    simp [rsvd, fn, rs3, rd, q6, q7, gaddr, owns, State.enqueue]

end

section
/-! Ring entries, and the local copies (R364 to R375, R396 to R402). -/

namespace Sys2Proof.Machine

open Sys2Proof Sys2Proof.Laws

/-- A check that passes can be left out. -/
@[simp] theorem firstCheck_none_cons (cs : List Check) : firstCheck (none :: cs) = firstCheck cs := rfl

@[simp] theorem failIf_false (code info : Nat) : failIf false code info = none := rfl

/-- A local copy whose checks pass and whose rows are all copied leaves its entry in progress (R396). -/
theorem State.localCopy_done {s s1 sa sb : State} {t q : Nat} {mf : MemFaults} {op : Nat} {e : QEntry}
    {rowsOf : State → QEntry → FmtK → List CopyRow × List Check × State} {rsvd : FmtK → Bool} {rows : List CopyRow}
    {extra : List Check} (free : (s.queue t (8 + q)).active = []) (takes : Takes s t (8 + q) op e s1)
    (clean : (fmtK e.word).rsvd = 0) (own : rsvd (fmtK e.word) = false) (rowsEq : rowsOf s1 e (fmtK e.word) = (rows, extra, sa))
    (passes : Passes (extra ++ sa.copyChecks t (s1.partOf t e) rows (fmtK e.word).len ++
      [sa.incCheck (s1.partOf t e) (fmtK e.word).ctr (fmtK e.word).ri]))
    (copied : sa.copyRows mf t (s1.partOf t e) (fmtK e.word).len
      (fillBytes (if op = 0x21 then greg e.g (fmtK e.word).rc else 0) (fmtK e.word).len) rows 0 = (none, sb)) :
    s.localCopy t q mf op rowsOf rsvd = sb.activate t (8 + q) e := by
  have head : s.popHead t (8 + q) (· == op) = some (e, s1) := takes
  have first := Passes.eq_1 _ ▸ passes
  simp only [State.localCopy, free, head, rowsEq, clean, own, ne_eq, not_true_eq_false, if_false, bne_self_eq_false,
    Bool.or_self, failIf_false, List.cons_append, List.nil_append, firstCheck_none_cons, first, copied]

/-- Where every index is read, the rows of a gather are those that the indices name (R398). -/
theorem gatherRows_eq (f : Nat → Nat → CopyRow) (ix : List Nat) (n : Nat) :
    (((ix.map (Except.ok (ε := Nat))).zipIdx n).filterMap fun x => match x.1 with
      | .ok v => some (f v x.2)
      | .error _ => none) = (ix.zipIdx n).map fun x => f x.1 x.2 := by
  induction ix generalizing n with
  | nil => rfl
  | cons v ix ih => simp [ih]

/-- The oldest entry in progress completes where it is of the kind. -/
theorem State.completeFirst_head {s : State} {t code : Nat} {is : Nat → Bool} {e : QEntry} {rest : List QEntry}
    (active : (s.queue t code).active = e :: rest) (kind : is (opc e.word) = true) :
    s.completeFirst t code is = (s.modQueue t code fun x => { x with active := x.active.filter fun y => y.id != e.id }).addInc e := by
  simp only [State.completeFirst, active, List.find?_cons, kind, State.retire]

end Sys2Proof.Machine

open Sys2Proof Sys2Proof.Machine

/-- Settles O17: the arms of `execEntryStart` and `execEntryComplete`. -/
theorem entriesStartAndEnd : Obligations.EntriesStartAndEnd := by
  intro s t c mf
  dsimp only
  refine ⟨fun r u picked kind => ?_, fun r u picked kind => ?_, fun ending none_out off ended => ⟨fun cancelled => ?_,
    fun f live fault => ?_, fun i live noFault abort => ?_, fun live noFault noAbort => ?_⟩⟩
  · simp only [Runs, exec, execEntryStart, picked, kind]
  · simp only [Runs, exec, execEntryStart, picked, kind]
  · simp [Runs, exec, execEntryComplete, ending, none_out, ended, cancelled]
  · simp [Runs, exec, execEntryComplete, ending, none_out, ended, live, fault]
  · simp [Runs, exec, execEntryComplete, ending, none_out, ended, live, noFault, abort]
  · simp [Runs, exec, execEntryComplete, ending, none_out, ended, live, noFault, noAbort]

/-- Settles O18: each copy is `localCopy` of the rows that its operands name. -/
theorem localCopies : Obligations.LocalCopies := by
  refine ⟨?_, fun s t q e rest active kind => congrArg Host.Outcome.next (State.completeFirst_head active (by simp [kind]))⟩
  intro s s1 s2 s3 t q mf e
  dsimp only
  intro free rsvd
  refine ⟨fun takes re passes copied => ?_, fun takes re ra passes copied => ?_, fun ix takes len inside read passes copied => ?_⟩ <;>
    refine congrArg Host.Outcome.next (State.localCopy_done free takes rsvd ?_ ?_ passes copied)
  case refine_1.refine_1 => simp [re]
  case refine_1.refine_2 => rfl
  case refine_2.refine_1 => simp [re, ra]
  case refine_2.refine_2 => rfl
  case refine_3.refine_1 => rfl
  case refine_3.refine_2 =>
    simp only [len, inside, read, if_false, Bool.not_true, Bool.false_eq_true, List.map_map, Function.comp_def]
    exact congrArg (Prod.mk · (_, s3)) (gatherRows_eq (fun v r => ⟨if v = 0xFFFFFFFF then none
      else some (rowAddr (gaddr e.g (fmtK e.word).ra) (gstride e.g (fmtK e.word).rc) v),
      rowAddr (gaddr e.g (fmtK e.word).rb) (gstride e.g (fmtK e.word).rd) r⟩) ix 0)

end

section
/-! Remote operations: their issue, their life and their target (R400 to R402, R597 to R690). -/

namespace Sys2Proof.Machine

open Sys2Proof Sys2Proof.Laws

theorem passes_append (a b : List Check) : Passes (a ++ b) ↔ Passes a ∧ Passes b := by
  simp only [Passes, firstCheck_eq_none, List.mem_append, or_imp, forall_and]

@[simp] theorem passes_cons (c : Check) (cs : List Check) : Passes (c :: cs) ↔ c = none ∧ Passes cs := by
  simp only [Passes, firstCheck_eq_none, List.mem_cons, forall_eq_or_imp]

@[simp] theorem passes_nil : Passes [] := rfl

/-- RSTORE and RFSTORE with every check passed (R400): `after` names what a flagged store waits for. -/
theorem State.issueStore_passes {s s1 s2 : State} {t q op : Nat} {mf : MemFaults} {e : QEntry} {bs : List Byte}
    (takes : TakesRemote s t q op e s1)
    (rsvd : (fmtR e.word).rsvd = 0 ∧ (fmtR e.word).w64 = 0 ∧ (fmtR e.word).atop = 0 ∧ (fmtR e.word).rc = 0 ∧ (fmtR e.word).rd = 0)
    (passes : Passes ([s1.localCheck t (s1.partOf t e) false (gaddr e.g (fmtR e.word).ra) (fmtR e.word).len,
      apertureCheck (gaddr e.g (fmtR e.word).rb) (fmtR e.word).len, s1.incCheck (s1.partOf t e) (fmtR e.word).ctr (fmtR e.word).ri] ++
      s1.domainChecks (s1.partOf t e) rightW (gaddr e.g (fmtR e.word).rb) (fmtR e.word).len (((fmtR e.word).add e).map (·.1))))
    (read : s1.localRead mf t (s1.partOf t e) (gaddr e.g (fmtR e.word).ra) (fmtR e.word).len = (none, bs, s2)) :
    s.issueStore t q mf op =
      let f := fmtR e.word
      let a := gaddr e.g f.rb
      let after := if op = 0x31 then s2.holdFor t q (apSlot a) fun k => k == .store || k == .flagged || k == .atomic || k == .tadd else []
      let o := { s2.mkOp t q e (if op = 0x31 then RKind.flagged else .store) a (f.add e) with
                 len := f.len, data := bs, pieces := heldPieces a f.len, after := after }
      let u := (s2.activate t (8 + q) e).newOp o
      if after = [] then u.sendPieces mf o.id else u := by
  obtain ⟨r1, r2, r3, r4, r5⟩ := rsvd
  have head : s.popRemote t q (· == op) = some (e, s1) := takes
  have first := Passes.eq_1 _ ▸ passes
  simp only [State.issueStore, head, r1, r2, r3, r4, r5, bne_self_eq_false, Bool.or_self, failIf_false, List.cons_append,
    firstCheck_none_cons, List.nil_append] at first ⊢
  simp only [first, read]

end Sys2Proof.Machine

open Sys2Proof Sys2Proof.Machine

/-- Settles O20: with its checks passed each operation is issued; the two stores share `issueStore`. -/
theorem domainOperationsIssue : Obligations.DomainOperationsIssue := by
  intro s s1 s2 t q mf e bs
  dsimp only
  refine ⟨fun takes rsvd passes read => ?_, fun takes rsvd passes read => ?_, fun takes rsvd rri replicas passes => ?_,
    fun takes rsvd rri len atop la aa passes => ?_⟩
  · exact congrArg Host.Outcome.next (State.issueStore_passes takes rsvd passes read)
  · exact congrArg Host.Outcome.next (State.issueStore_passes takes rsvd passes read)
  · obtain ⟨r1, r2, r3, r4, r5⟩ := rsvd
    have head : s.popRemote t q (· == 0x32) = some (e, s1) := takes
    have first := Passes.eq_1 _ ▸ passes
    simp only [List.cons_append, List.nil_append] at first
    have none_after (o : RemOp) : ((s1.activate t (8 + q) e).newOp o).replicasAt (s1.partOf t e) (gaddr e.g (fmtR e.word).rb)
        (fmtR e.word).len = [] := replicas
    simp only [Runs, exec, execRload, head, r1, r2, r3, r4, r5, rri, bne_self_eq_false, Bool.or_self, failIf_false, List.cons_append,
      List.nil_append, firstCheck_none_cons, first, none_after, List.head?_nil]
  · have head : s.popRemote t q (· == 0x33) = some (e, s1) := takes
    have first := Passes.eq_1 _ ▸ passes
    simp only [List.cons_append, List.nil_append] at first
    simp only [Runs, exec, execRatom, head, rsvd, rri, len, la, aa, Nat.not_le.mpr atop, bne_self_eq_false, Bool.or_self, decide_false,
      ne_eq, not_true_eq_false, failIf_false, List.cons_append, List.nil_append, firstCheck_none_cons, first]

namespace Sys2Proof.Machine

open Sys2Proof Sys2Proof.Laws

section
variable {s s1 : State} {t q op c : Nat} {mf : MemFaults} {e : QEntry}

/-- What holds of RPUT and RGET before their window is looked up (R668). -/
structure XferReady (s s1 : State) (t q op c : Nat) (e : QEntry) : Prop where
  takes : TakesRemote s t q op e s1
  connected : s.connTo (s.partOf t e) (placeOf (gaddr e.g (fmtR e.word).rb)) = some c
  version : s.connVersion (placeOf (gaddr e.g (fmtR e.word).rb)) = 2
  rsvd : (fmtR e.word).rsvd = 0 ∧ (fmtR e.word).w64 = 0 ∧ (fmtR e.word).atop = 0 ∧ (fmtR e.word).rd = 0 ∧
    placeRsvd (gaddr e.g (fmtR e.word).rb) = false
  get : op ≠ 0x34 → (fmtR e.word).rri = 0
  passes : Passes [s.localCheck t (s.partOf t e) (!(op == 0x34)) (gaddr e.g (fmtR e.word).ra) (fmtR e.word).len,
    s.incCheck (s.partOf t e) (fmtR e.word).ctr (fmtR e.word).ri]

theorem XferReady.early (h : XferReady s s1 t q op c e) :
    firstCheck [failIf ((fmtR e.word).rsvd != 0 || (fmtR e.word).w64 != 0 || (fmtR e.word).atop != 0 || (fmtR e.word).rd != 0 ||
        (!(op == 0x34) && (fmtR e.word).rri != 0) || placeRsvd (gaddr e.g (fmtR e.word).rb)) F_RSVD (gaddr e.g (fmtR e.word).rb),
      s.localCheck t (s.partOf t e) (!(op == 0x34)) (gaddr e.g (fmtR e.word).ra) (fmtR e.word).len,
      s.incCheck (s.partOf t e) (fmtR e.word).ctr (fmtR e.word).ri,
      failIf (s.connTo (s.partOf t e) (placeOf (gaddr e.g (fmtR e.word).rb))).isNone F_NO_ROUTE (gaddr e.g (fmtR e.word).rb)] = none := by
  obtain ⟨r1, r2, r3, r4, r5⟩ := h.rsvd
  have passes := h.passes
  simp only [passes_cons, passes_nil, and_true] at passes
  obtain ⟨local_, inc⟩ := passes
  have rri : (!(op == 0x34) && (fmtR e.word).rri != 0) = false := by
    by_cases put : op = 0x34
    · simp [put]
    · simp [h.get put]
  simp [r1, r2, r3, r4, r5, rri, local_, inc, h.connected]

/-- Without the descriptor the entry stays and the descriptor is asked for (R669). -/
theorem State.issueXfer_uncached (h : XferReady s s1 t q op c e)
    (uncached : s.cachedWindow c (placeOf (gaddr e.g (fmtR e.word).rb)) (windowOf (gaddr e.g (fmtR e.word).rb)) = none) :
    s.issueXfer t q mf op = s.emit (.xpWindow c (windowOf (gaddr e.g (fmtR e.word).rb))) := by
  have head : s.popRemote t q (· == op) = some (e, s1) := h.takes
  simp only [State.issueXfer, head, h.early]
  simp [h.connected, h.version, uncached]

/-- What a put reads before it enters its connection; a get reads nothing (R671). -/
def State.xferRead (s : State) (mf : MemFaults) (t op p l n : Nat) : Option Nat × List Byte × State :=
  if op = 0x34 then s.localRead mf t p l n else (none, [], s)

/-- With the descriptor cached, the window open to the operation and the counter to its addition, the pieces enter the
connection (R668 to R671). -/
theorem State.issueXfer_cached {s2 : State} {w : Window} {bs : List Byte} (h : XferReady s s1 t q op c e)
    (cached : s.cachedWindow c (placeOf (gaddr e.g (fmtR e.word).rb)) (windowOf (gaddr e.g (fmtR e.word).rb)) = some w)
    (inside : w.check (s.jobOf (s.partOf t e)) none (if op = 0x34 then rightP else rightG) (gaddr e.g (fmtR e.word).rc) (fmtR e.word).len = none)
    (add : Option (Nat × Nat)) (addEq : (if op = 0x34 then (fmtR e.word).add e else none) = add)
    (opens : ∀ x ∈ add, w.opens x.1 = true)
    (read : s1.xferRead mf t op (s.partOf t e) (gaddr e.g (fmtR e.word).ra) (fmtR e.word).len = (none, bs, s2)) :
    s.issueXfer t q mf op =
      let f := fmtR e.word
      let pw := gaddr e.g f.rb
      let off := gaddr e.g f.rc
      let o := { s2.mkOp t q e (if op = 0x34 then RKind.put else .get) off add with
                 target := placeOf pw, conn := c, window := windowOf pw, len := f.len, local_ := gaddr e.g f.ra, data := bs,
                 pieces := heldPieces off f.len }
      (((s2.modConn c fun x => x.touch (windowOf pw)).activate t (8 + q) e).newOp o).enterNext mf o.id := by
  have head : s.popRemote t q (· == op) = some (e, s1) := h.takes
  have version : ¬ (2 = 1 ∧ 1024 ≤ windowOf (gaddr e.g (fmtR e.word).rb)) := fun ⟨h, _⟩ => absurd h (by decide)
  simp only [State.issueXfer, head, h.early]
  simp only [h.connected, Option.getD_some, h.version, version, if_false, cached, beq_iff_eq, inside, addEq]
  unfold State.xferRead at read
  cases add with
  | none => simp only [Bool.false_eq_true, if_false, read]
  | some a => simp only [opens a rfl, Bool.not_true, Bool.false_eq_true, if_false, read]

end

end Sys2Proof.Machine

open Sys2Proof Sys2Proof.Machine

/-- Settles O21: `issueXfer` of an operation that is ready, with and without the descriptor; RTADD beyond the domain. -/
theorem transportOperationsIssue : Obligations.TransportOperationsIssue := by
  intro s s1 s2 t q mf e bs c w
  dsimp only
  intro connected version rsvd
  refine ⟨fun takes passes => ?put, fun takes passes rri => ?get, fun takes ra rc len window away connected passes => ?add⟩
  case put =>
    have ready : XferReady s s1 t q 0x34 c e := ⟨takes, connected, version, rsvd, fun h => absurd rfl h, passes⟩
    exact ⟨fun uncached => congrArg Host.Outcome.next (State.issueXfer_uncached ready uncached),
      fun cached inside opens read => congrArg Host.Outcome.next (State.issueXfer_cached ready cached inside _ rfl opens read)⟩
  case get =>
    have ready : XferReady s s1 t q 0x35 c e := ⟨takes, connected, version, rsvd, fun _ => rri, passes⟩
    exact ⟨fun uncached => congrArg Host.Outcome.next (State.issueXfer_uncached ready uncached),
      fun cached inside => congrArg Host.Outcome.next (State.issueXfer_cached ready cached inside none rfl (by simp) rfl)⟩
  case add =>
    obtain ⟨r1, r2, r3, r4, r5⟩ := rsvd
    have head : s.popRemote t q (· == 0x36) = some (e, s1) := takes
    simp only [passes_cons, passes_nil, and_true] at passes
    simp only [Runs, exec, execRtadd, head, r1, r2, r3, r4, r5, ra, rc, len, window, away, connected, passes, bne_self_eq_false,
      Bool.or_self, Bool.false_and, Bool.false_eq_true, if_false, Option.isNone_some, failIf_false, firstCheck_none_cons,
      Option.getD_some]
    cases (fmtR e.word).add e <;> rfl

end

section
/-! The life of a domain operation, the target of domain traffic and the transmitter (R597 to R683). -/

namespace Sys2Proof.Machine

open Sys2Proof Sys2Proof.Laws

/-- Sectors with no error and no fence are read and written. -/
theorem State.readErr_of_readable {s : State} {a n : Nat} (bad : s.badIn a n = []) (fenced : s.fencedIn a n = []) :
    s.readErr MemFaults.none a n = (none, s) := by
  simp [State.readErr, bad, fenced, MemFaults.none, leastOf]

theorem State.load_of_readable {s : State} {a n : Nat} (bad : s.badIn a n = []) (fenced : s.fencedIn a n = []) :
    s.load MemFaults.none a n = (.ok (s.peek a n), s) := by
  simp only [State.load, State.readErr_of_readable bad fenced]

theorem State.storeChecked_of_writeErr {s : State} {mf : MemFaults} {a : Nat} {bs : List Byte} (h : s.writeErr mf a bs.length = none) :
    s.storeChecked mf a bs = (none, s.store a bs) := by
  simp only [State.storeChecked, State.mergeErr, h]

theorem State.writeErr_of_readable {s : State} {a n : Nat} (bad : s.badIn a n = []) (fenced : s.fencedIn a n = []) :
    s.writeErr MemFaults.none a n = none := by
  simp [State.writeErr, bad, fenced, MemFaults.none, leastOf]

end Sys2Proof.Machine

open Sys2Proof Sys2Proof.Machine

/-- Settles O22: each command finds the operation in the table and takes the arm of its state. -/
theorem domainOperationEvents : Obligations.DomainOperationEvents := by
  intro s id o found
  refine ⟨fun t q entry e good src active => ?_, fun mf kind after whole => ?_, fun mf kind after broken => ?_,
    fun mf domain after whole => ?_, fun c x h k held after done add away plane port => ?_, fun i domain sent => ?_,
    fun prior mf domain kind sent => ?_⟩
  · have active' : ((s.forgetOp id false).queue t (8 + q)).active.find? (fun x => x.id == entry) = some e := active
    simp only [Runs, exec, execRemoteOpDone, found, good, src, active', Bool.not_true, Bool.false_eq_true, if_false]
  · simp [Runs, exec, execFlaggedStoreRelease, found, kind, after, whole]
  · simp [Runs, exec, execFlaggedStoreRelease, found, kind, after, broken]
  · simp [Runs, exec, execPlaneHoldRelease, found, domain, after, whole]
  · have done' : (o.pieces.all fun p => p.st == .done) = true := by simpa using done
    have port' (f : RemOp → RemOp) : ((s.modOp id f).emit (.domAdd id)).portOfPlane h = some k := port
    simp [Runs, exec, execCounterAdditionSend, State.sendAdd, found, held, done', after, add, away, plane, port']
  · refine ⟨fun last => ?_, fun inside => ?_, fun data mf load => ?_, fun code inside => ?_, fun code last => ?_, fun inside => ?_⟩
    · simp [Runs, exec, execDomainAck, found, domain, sent, ← last]
    · simp [Runs, exec, execDomainAck, found, domain, sent, inside, MemFaults.none]
    · simp [Runs, exec, execDomainLoadData, found, domain, sent, load]
    · simp [Runs, exec, execDomainRefusal, found, domain, sent, inside]
    · simp [Runs, exec, execDomainRefusal, found, domain, sent, ← last]
    · simp [Runs, exec, execDomainAccessTimeout, found, domain, sent, inside]
  · simp [Runs, exec, execDomainAtomicResult, found, domain, kind, sent]

/-- Settles O23: what the grant, the range and the island select in each of the four operations of the target. -/
theorem domainTarget : Obligations.DomainTarget := by
  intro s slot piece job a n data atop w64 x cmp ctr v
  dsimp only
  refine ⟨fun e grant inHbm clean => ?_, fun e grant inHbm bad fenced => ?_, fun e grant inHbm bad fenced => ?_,
    fun isOpen => ⟨fun up => ?_, fun stopped => ?_⟩, fun mf grant => ?_, fun mf grant => ?_, fun mf grant => ?_, fun closed => ?_,
    fun e mf grant outside => ?_⟩
  · simp [Runs, exec, execDomainStorePiece, State.targetStore, grant, inHbm, State.storeChecked_of_writeErr clean]
  · simp [Runs, exec, execDomainLoadRequest, State.targetLoad, grant, inHbm, State.load_of_readable bad fenced]
  · have clean := State.writeErr_of_readable bad fenced
    simp [Runs, exec, execDomainAtomicPiece, State.targetAtomic, grant, inHbm, State.load_of_readable bad fenced,
      State.storeChecked_of_writeErr, clean]
  · simp [Runs, exec, execDomainCounterAddition, State.targetAdd, isOpen, up]
  · simp [Runs, exec, execDomainCounterAddition, State.targetAdd, isOpen, stopped]
  · simp [Runs, exec, execDomainStorePiece, State.targetStore, grant]
  · simp [Runs, exec, execDomainLoadRequest, State.targetLoad, grant]
  · simp [Runs, exec, execDomainAtomicPiece, State.targetAtomic, grant]
  · simp [Runs, exec, execDomainCounterAddition, State.targetAdd, closed]
  · simp [Runs, exec, execDomainStorePiece, State.targetStore, grant, outside]

namespace Sys2Proof.Machine

open Sys2Proof

/-- No command waits at any mailbox for the state's connections or answers. -/
def State.NoneWaits (s : State) : Prop := ∀ m ∈ s.sunas.mboxes, m.2.wait = .none

theorem State.NoneWaits.respondWaiting {s : State} (h : s.NoneWaits) {w : CmdWait} (hw : w ≠ .none) (status detail : Nat) (p : List Byte) :
    s.respondWaiting w status detail p = s := by
  unfold State.respondWaiting
  rw [List.filter_eq_nil_iff.mpr fun m hm => by simp [h m hm, Ne.symm hw], List.foldl_nil]

theorem State.NoneWaits.revokeGoes {s : State} (h : s.NoneWaits) (c : Nat) (f : Nat → Bool) : s.revokeGoes c f = s := by
  unfold State.revokeGoes
  rw [List.filter_eq_nil_iff.mpr fun m hm => by simp [h m hm], List.foldl_nil]

/-- A connection that fails with no operation outstanding and no command waiting (R683). -/
theorem State.connFail_idle {s : State} {c : Nat} (isOpen : (s.conn c).st = 1) (staying : (s.conn c).closing = false)
    (idle : ∀ o ∈ s.net.ops, o.conn ≠ c) (quiet : s.NoneWaits) :
    s.connFail c = (((s.modConn c fun x => { x with st := 2, cache := [], unacked := [], peerCaches := [] }).modNet fun n =>
      { n with connFailed := sat32 (n.connFailed + 1) }).setFlag lnXp fXpConn) := by
  have none_out : ((((s.modConn c fun x => { x with st := 2, cache := [], unacked := [], peerCaches := [] }).modNet fun n =>
      { n with connFailed := sat32 (n.connFailed + 1) }).setFlag lnXp fXpConn).net.ops.filter fun o => o.conn == c && !o.final) = [] := by
    rw [List.filter_eq_nil_iff]
    intro o ho
    simp [idle o ho]
  simp only [State.connFail, isOpen, staying, none_out, ne_eq, not_true_eq_false, if_false, List.map_nil, List.foldl_nil, Bool.false_eq_true]
  rw [State.NoneWaits.respondWaiting (by exact quiet) (by simp), State.NoneWaits.revokeGoes (by exact quiet)]

end Sys2Proof.Machine

open Sys2Proof Sys2Proof.Machine

/-- Settles O25: the arm of each event, and `connFail` of an idle connection. -/
theorem transportTransmitter : Obligations.TransportTransmitter := by
  intro s c psn
  refine ⟨fun id o i data mf found away get sent => ?_, fun i srtt first => ?_, fun isOpen => ?_, fun isOpen unacked => ?_,
    fun k code found small code_ne => ?_, fun isOpen staying idle quiet => ?_⟩
  · simp [Runs, exec, execGetResponse, found, away, get, sent]
  · simp [Runs, exec, execTransportAck, first]
  · simp [Runs, exec, execTransportNak, isOpen]
  · simp [Runs, exec, execRetransmissionTimeout, isOpen, unacked]
  · have part : ¬ 4294967296 ≤ k.part := by omega
    simp [Runs, exec, execTransportRefusal, found, part, code_ne, State.setFlagIf]
  · exact congrArg Host.Outcome.next (State.connFail_idle isOpen staying idle quiet)

end

section
/-! The matrix arrays: operations that pass their checks (R108 to R278). -/

namespace Sys2Proof.Machine

open Sys2Proof Sys2Proof.Laws

/-- An array operation whose preparation leaves the partitions as they are, and whose own checks pass, does its work with
its entry in progress. -/
theorem State.takeArr_of_starts {α : Type} {s s1 : State} {t a : Fin 4} {o : Nat} {rsvd : FmtM → Bool} {e : QEntry}
    (h : StartsArray s t a o rsvd e s1) {prep : State → QEntry → FmtM → Nat → List Check × α × State}
    {run : State → QEntry → FmtM → Nat → α → State} (cs : List Check) (x : α) (s2 : State)
    (prepared : prep s1 e (fmtM e.word) (s1.partOf t e) = (cs, x, s2)) (parts : s2.parts = s1.parts) (passes : Passes cs) :
    s.takeArr t a o rsvd prep run = run (s2.activate t a e) e (fmtM e.word) (s1.partOf t e) x := by
  obtain ⟨_, _, _, _, _, arrays, inc⟩ := id h
  have same (p : Nat) : s2.part p = s1.part p := congrArg (Tbl.get Part.reset · p) parts
  refine State.takeArr_starts h prep run cs x s2 prepared ?_ ?_ passes
  · simpa only [State.incCheck, State.ownsCtr, same] using inc
  · simpa only [same] using arrays

end Sys2Proof.Machine

open Sys2Proof Sys2Proof.Machine

/-- Settles O26: the counts pass, and MODE selects rows or columns of the operand. -/
theorem tileLoads : Obligations.TileLoads := by
  intro s s1 s2 s3 t a mf e rows ic cols starts m p f o get loads m_pos m_le nc_pos nc_le
  have some_ : ¬ (m.m = 0 ∨ m.nc = 0) := by omega
  have inside : ¬ (f.kPass.getD 512 < m.m ∨ 512 < m.nc) := by omega
  let counts : List Check := [failIf (decide (f.kPass.getD 512 < m.m)) F_BOUNDS m.m, failIf (decide (512 < m.nc)) F_BOUNDS m.nc]
  have counts_pass : Passes counts := by simp [counts, Nat.not_lt.mpr m_le, Nat.not_lt.mpr nc_le]
  refine ⟨fun mode read parts passes fetched => ?_, fun mode same none_read passes fetched => ?_⟩
  · refine congrArg Host.Outcome.next ((State.takeArr_of_starts starts
      (counts ++ [o.alignCheck, s2.viewFmtCheck o] ++ ic ++ s2.rowChecks t p o m.m rows) (o, rows) s2 ?_ parts ?_).trans ?_)
    · rw [if_neg some_, if_neg inside, if_neg mode, read]
    · simpa [passes_append, counts_pass] using passes
    · dsimp only
      rw [fetched]
      exact if_neg some_
  · subst same none_read
    refine congrArg Host.Outcome.next ((State.takeArr_of_starts starts
      (counts ++ [o.alignCheck, s2.viewFmtCheck o] ++ s2.transChecks t p o m.m m.nc) (o, []) s2 ?_ rfl ?_).trans ?_)
    · rw [if_neg some_, if_neg inside, if_pos mode]
    · simpa [passes_append, counts_pass] using passes
    · dsimp only
      rw [fetched]
      exact if_neg some_

namespace Sys2Proof.Machine

open Sys2Proof Sys2Proof.Laws

/-- Pass i of a multiply, from v to v', with every word that it reads readable (R130 to R135). -/
def MmulPass (t a : Nat) (mf : MemFaults) (r : MmulRun) (i : Nat) (v v' : State) : Prop :=
  let m := fmtM r.e.word
  ∃ A prior v1 v2, let b := (v.arr t a).active
    v.fetchA mf t r b.kTile i = (.ok A, v1) ∧
    (if m.acc = 1 then v1.acmRead mf (acmWord t a m.bank (m.rowb + i) 0) 4 b.nc else (some (List.replicate b.nc 0), v1)) = (some prior, v2) ∧
    let res := prior.zipIdx.map fun x => passColumn b r.o.f A.1 (rowVals r.o.f A) x.1 x.2
    v' = (v2.acmWrite (acmWord t a m.bank (m.rowb + i) 0) 4 (res.map (·.1))).arrFlags t a (orFlags res)

/-- Passes without a mismatch reach the boundary in the state after the last. -/
theorem State.runPasses_clean {t a : Nat} {mf : MemFaults} {r : MmulRun} {u : Nat → State} (n i : Nat) (post : Bool)
    (pass : ∀ j < n, MmulPass t a mf r (i + j) (u (i + j)) (u (i + j + 1))) :
    State.runPasses t a mf [] r n i post (u i) = (u (i + n)).arrBoundary t a := by
  induction n generalizing i post with
  | zero => rfl
  | succ n ih =>
    obtain ⟨A, prior, v1, v2, fetched, priors, written⟩ := pass 0 (Nat.succ_pos n)
    rw [Nat.add_zero] at fetched priors written
    have rest := ih (i + 1) false fun j hj => by
      have := pass (j + 1) (by omega)
      rwa [show i + (j + 1) = i + 1 + j by omega] at this
    unfold State.runPasses
    simp only [fetched, priors, List.filter_nil, List.length_nil, if_true]
    rw [← written, rest, show i + 1 + n = i + (n + 1) by omega]

end Sys2Proof.Machine

open Sys2Proof Sys2Proof.Machine

/-- Settles O27: the counts pass, MODE selects how A is read, and the passes run as `runPasses_clean` says. -/
theorem matrixMultiply : Obligations.MatrixMultiply := by
  intro s s1 s2 t a mf e rows ic u starts m p f o b run passes m_pos m_le rows_le
  have some_ : ¬ m.m = 0 := by omega
  have inside : ¬ 1024 < m.m := by omega
  let counts : List Check := [failIf (decide (1024 < m.m)) F_BOUNDS m.m, failIf (decide (1024 < m.rowb + m.m)) F_BOUNDS (m.rowb + m.m)]
  have counts_pass : Passes counts := by simp [counts, Nat.not_lt.mpr m_le, Nat.not_lt.mpr rows_le]
  have runs (start : u 0 = (if m.swap = 1 then (s2.activate t a e).modArr t a fun x => { x with active := x.standby, standby := x.active }
      else s2.activate t a e)) (accepts : mmulStart ((u 0).arr t a).active f = none) (pass : Rows m.m u (MmulPass t a mf run)) :
      State.runPasses t a mf [] run m.m 0 false (u 0) = (u m.m).arrBoundary t a := by
    have := State.runPasses_clean (t := t.val) (a := a.val) (mf := mf) (r := run) (u := u) m.m 0 false fun j hj => by
      rw [Nat.zero_add]; exact pass j hj
    rwa [Nat.zero_add] at this
  refine ⟨fun mode read parts checks start accepts pass => ?_, fun mode same none_read checks start accepts pass => ?_⟩
  · refine congrArg Host.Outcome.next ((State.takeArr_of_starts starts
      (counts ++ [o.alignCheck, s2.viewFmtCheck o] ++ ic ++ (if b.kTile = 0 then [] else s2.rowChecks t p o b.kTile rows)) run s2 ?_
      parts ?_).trans ?_)
    · rw [if_neg some_, if_neg inside, if_neg mode, read]
    · simpa [passes_append, counts_pass] using checks
    · dsimp only
      rw [← start]
      simp only [run, o, sourceOf, accepts]
      exact runs start accepts pass
  · subst same none_read
    refine congrArg Host.Outcome.next ((State.takeArr_of_starts starts
      (counts ++ [o.alignCheck, s2.viewFmtCheck o] ++ s2.transChecks t p o b.kTile m.m) run s2 ?_ rfl ?_).trans ?_)
    · rw [if_neg some_, if_neg inside, if_pos mode]
    · simpa [passes_append, counts_pass] using checks
    · dsimp only
      rw [← start]
      simp only [run, o, sourceOf, accepts]
      exact runs start accepts pass

end

section
/-! Row operations and fused stages of the arrays (R166 to R268). -/

namespace Sys2Proof.Machine

open Sys2Proof Sys2Proof.Laws

/-- Rows that all complete reach the boundary in the state after the last. -/
theorem State.runRows_of_rows {t a : Nat} {e : QEntry} {base n : Nat} {row : State → Nat → Except Nat State × State} {u : Nat → State}
    (rows : Rows n u fun i v v' => ∃ x, row v i = (.ok v', x)) :
    State.runRows t a e base row n 0 (u 0) = (u n).arrBoundary t a := by
  have := State.runRows_rows (t := t) (a := a) (e := e) (base := base) (row := row) (u := u) n 0 fun j hj => by
    simpa only [Nat.zero_add] using rows j hj
  rwa [Nat.zero_add] at this

/-- An array operation that prepares nothing and runs its rows. -/
theorem State.takeArr_rows {s s1 : State} {t a : Fin 4} {o base k n : Nat} {rsvd : FmtM → Bool} {e : QEntry} {u : Nat → State}
    (starts : StartsArray s t a o rsvd e s1) (first : u 0 = s1.activate t a e)
    {prep : State → QEntry → FmtM → Nat → List Check × Unit × State} {run : State → QEntry → FmtM → Nat → Unit → State}
    {row : State → Nat → Except Nat State × State} (cs : List Check)
    (prepared : prep s1 e (fmtM e.word) (s1.partOf t e) = (cs, (), s1)) (passes : Passes cs)
    (runs : run (u 0) e (fmtM e.word) (s1.partOf t e) () = State.runRows t a e base row k 0 (u 0)) (count : k = n)
    (rows : Rows n u fun i v v' => ∃ x, row v i = (.ok v', x)) :
    s.takeArr t a o rsvd prep run = (u n).arrBoundary t a := by
  rw [State.takeArr_of_starts starts cs () s1 prepared rfl passes, ← first, runs, count, State.runRows_of_rows rows]

end Sys2Proof.Machine

open Sys2Proof Sys2Proof.Machine

/-- Settles O28: each operation passes its counts and runs its rows. -/
theorem rowOperations : Obligations.RowOperations := by
  intro s s1 t a mf e u
  dsimp only
  intro first
  refine ⟨fun starts m_le rows_le src rows => ?macm, fun starts m_le rows => ?mfld,
    fun starts m_le nc_pos nc_le m_pos ra rb inA inB rows => ?mcmb, fun starts m_le nc_pos nc_le rows_le inS rows => ?mchn⟩ <;>
    refine congrArg Host.Outcome.next (State.takeArr_rows starts first _ rfl ?_ rfl ?_ ?_)
  case macm.refine_1 => simp [Nat.not_lt.mpr m_le, Nat.not_lt.mpr rows_le, src]
  case macm.refine_2 => rfl
  case macm.refine_3 =>
    intro i hi
    obtain ⟨x, y, v1, v2, source, target, written⟩ := rows i hi
    simp only [source, target, written]
    exact ⟨_, rfl⟩
  case mfld.refine_1 => simp [Nat.not_lt.mpr m_le]
  case mfld.refine_2 => rfl
  case mfld.refine_3 =>
    intro i hi
    obtain ⟨w, pr, v1, v2, partial_, wide, written⟩ := rows i hi
    simp only [partial_, wide, written]
    exact ⟨_, rfl⟩
  case mcmb.refine_1 => simp [Nat.not_lt.mpr m_le, Nat.not_lt.mpr nc_le, m_pos.ne', nc_pos.ne', ra, rb, inA, inB]
  case mcmb.refine_2 => exact if_neg nc_pos.ne'
  case mcmb.refine_3 =>
    intro i hi
    obtain ⟨x, y, w, c, v1, v2, v3, v4, ea, eb, wide, prior, written⟩ := rows i hi
    simp only [ea, eb, wide, prior, written]
    exact ⟨_, rfl⟩
  case mchn.refine_1 => simp [Nat.not_lt.mpr m_le, Nat.not_lt.mpr nc_le, Nat.not_lt.mpr rows_le, inS]
  case mchn.refine_2 => exact if_neg nc_pos.ne'
  case mchn.refine_3 =>
    intro i hi
    obtain ⟨f, x, y, v1, v2, v3, factor, source, target, written⟩ := rows i hi
    simp only [factor, source, target, written]
    exact ⟨_, rfl⟩

/-- Settles O29: the descriptor passes its checks; MEPI takes the branch without an error at each of its stages. -/
theorem fusedStages : Obligations.FusedStages := by
  intro s s1 s2 t a mf e d
  dsimp only
  refine ⟨fun starts parts read clean inside => ?_, fun starts parts read clean => ?_,
    fun sv bv rows n v1 v2 v3 v4 v5 starts desc m_pos nc_pos passes scales biases computed some_ stated written => ?_⟩
  · refine congrArg Host.Outcome.next ((State.takeArr_of_starts starts [none, none] d s2 ?_ parts ?_).trans rfl)
    · simp [read, clean, inside]
    · simp
  · refine congrArg Host.Outcome.next ((State.takeArr_of_starts starts [none] d s2 ?_ parts ?_).trans rfl)
    · simp [read, clean]
    · simp
  · have counts : ¬ ((fmtM e.word).m = 0 ∨ (fmtM e.word).nc = 0) := by omega
    subst desc
    refine congrArg Host.Outcome.next ((State.takeArr_of_starts starts _ (_, _) s1 rfl rfl passes).trans ?_)
    simp only [counts, if_false, scales, biases, computed, stated, some_, written, Option.isNone_none, if_true, List.take_length,
      Option.or_none]

end

section
/-! The element-wise vector instructions (R307 to R313). -/

namespace Sys2Proof.Machine

open Sys2Proof Sys2Proof.Laws

section
variable {s s' : State} {t : Fin 4} {e : QEntry} {j : VJob} {o k : Nat}

theorem isMx_of_okFloats {f : Fmt} {l : List Fmt} (h : okFloats (f :: l) = true) : f.isMx = false :=
  Fmt.isMx_of_plain (.inl (by simp only [okFloats, List.all_cons, Bool.and_eq_true] at h; exact h.1))

theorem isMx_of_okInts {f : Fmt} {l : List Fmt} (h : okInts (f :: l) = true) : f.isMx = false :=
  Fmt.isMx_of_plain (.inr (by simp only [okInts, List.all_cons, Bool.and_eq_true] at h; exact h.1))

/-- What `State.takeVe_starts` and `State.veElems_clean` give together: the instruction writes its elements. -/
theorem State.takeVe_writes {alt : Nat} {pos : Bool} (h : StartsVector s t o alt k pos e j s') (nsrc : Nat → Nat) (count : nsrc j.fn = k)
    (checks : State → Nat → VJob → List Check) (run : State → QEntry → VJob → State) (passes : Passes (checks s' (s'.partOf t e) j))
    (plain : j.dst.fmt.isMx = false) {counts : List Nat} {lanes : Nat} {val : State → Nat → Nat × FFlags} {blocks : State → Nat → FVal}
    (runs : run (s'.activate t 4 e) e j = (s'.activate t 4 e).veElems MemFaults.none t e j counts lanes val blocks) :
    s.takeVe t MemFaults.none o alt nsrc pos checks run = vectorWrites s' t e j j.n ((List.range j.n).map (val (s'.activate t 4 e))) := by
  obtain ⟨_, _, _, _, _, _, _, bad, _⟩ := id h
  rw [State.takeVe_starts h nsrc count checks run passes, runs, State.veElems_clean (show (s'.activate t 4 e).bad = [] from bad) plain]
  rfl

end

end Sys2Proof.Machine

open Sys2Proof Sys2Proof.Machine

/-- Settles O31: `veElem` on floating or integer formats, the shifts, and the comparison and the selection by their own checks. -/
theorem vectorElements : Obligations.VectorElements := by
  intro s s' t e j p v n fmts ok ends flt int bits shift none
  have starts2 {o : Nat} (h : ok o 2) := VJob.srcs_two (srcs_length_of_starts h.1)
  have starts1 {o : Nat} (h : ok o 1) := VJob.srcs_one (srcs_length_of_starts h.1)
  have starts3 {o : Nat} (h : ok o 3) := VJob.srcs_three (srcs_length_of_starts h.1)
  have floats {o k : Nat} {g i b} (h : ok o k) (formats : okFloats fmts = true) {l : FLayout} (layout : j.dst.fmt.layout? = some l) :
      s.veElem t none ⟨o, 0, k, some g, i, b⟩ =
        vectorWrites s' t e j j.n ((List.range j.n).map fun x => g j l (j.srcs.map fun y => s'.streamVal t y j.n x)) :=
    State.veElem_floats (x := ⟨o, 0, k, some g, i, b⟩) h.1 rfl formats layout h.2
  have ints {o k : Nat} {f g b} (h : ok o k) (formats : okInts fmts = true) :
      s.veElem t none ⟨o, 0, k, f, some g, b⟩ =
        vectorWrites s' t e j j.n ((List.range j.n).map fun x =>
          ((intOut j.dst.fmt (g j (j.srcs.map fun y => s'.streamInt t y j.n x))).1,
            if b then FFlags.none else (intOut j.dst.fmt (g j (j.srcs.map fun y => s'.streamInt t y j.n x))).2)) :=
    State.veElem_ints (x := ⟨o, 0, k, f, some g, b⟩) h.1 rfl formats h.2
  have flt1 {o : Nat} {g i b} (h : ok o 1) (formats : okFloats fmts = true) (l : FLayout) (layout : j.dst.fmt.layout? = some l) :
      s.veElem t none ⟨o, 0, 1, some g, i, b⟩ = vectorWrites s' t e j j.n ((List.range j.n).map fun x => g j l [v 0 x]) := by
    rw [floats h formats layout, starts1 h]; rfl
  have flt2 {o : Nat} {g i b} (h : ok o 2) (formats : okFloats fmts = true) (l : FLayout) (layout : j.dst.fmt.layout? = some l) :
      s.veElem t none ⟨o, 0, 2, some g, i, b⟩ = vectorWrites s' t e j j.n ((List.range j.n).map fun x => g j l [v 0 x, v 1 x]) := by
    rw [floats h formats layout, starts2 h]; rfl
  have flt3 {o : Nat} {g i b} (h : ok o 3) (formats : okFloats fmts = true) (l : FLayout) (layout : j.dst.fmt.layout? = some l) :
      s.veElem t none ⟨o, 0, 3, some g, i, b⟩ = vectorWrites s' t e j j.n ((List.range j.n).map fun x => g j l [v 0 x, v 1 x, v 2 x]) := by
    rw [floats h formats layout, starts3 h]; rfl
  have int1 {o : Nat} {f g} (h : ok o 1) (formats : okInts fmts = true) :
      s.veElem t none ⟨o, 0, 1, f, some g, false⟩ = vectorWrites s' t e j j.n ((List.range j.n).map fun x => intOut j.dst.fmt (g j [n 0 x])) := by
    rw [ints h formats, starts1 h]; rfl
  have int2 {o : Nat} {f g} (h : ok o 2) (formats : okInts fmts = true) :
      s.veElem t none ⟨o, 0, 2, f, some g, false⟩ =
        vectorWrites s' t e j j.n ((List.range j.n).map fun x => intOut j.dst.fmt (g j [n 0 x, n 1 x])) := by
    rw [ints h formats, starts2 h]; rfl
  have bit {o : Nat} {g : Nat → Nat → Nat} (h : ok o 2) (formats : okInts fmts = true) :
      s.veElem t none ⟨o, 0, 2, .none, some fun _ x => bitOp g x, true⟩ = vectorWrites s' t e j j.n ((List.range j.n).map fun x =>
        ((intOut j.dst.fmt (toSigned 32 (g (ofSigned 32 (n 0 x)) (ofSigned 32 (n 1 x))))).1, FFlags.none)) := by
    rw [ints h formats, starts2 h]; rfl
  have runs {i : Instr} {u w : State} (h : exec i s = .next u) (eq : u = w) : Runs i s w := h.trans (congrArg _ eq)
  refine ⟨fun h f l y => runs rfl (flt2 h f l y), fun h f => runs rfl (int2 h f), fun h f l y => runs rfl (flt2 h f l y), fun h f => runs rfl (int2 h f),
    fun h f l y => runs rfl (flt2 h f l y), fun h f => runs rfl (int2 h f), fun h f l y => runs rfl (flt3 h f l y),
    fun h f l y => runs rfl (flt3 h f l y), fun h f l y => runs rfl (flt2 h f l y), fun h f l y => runs rfl (flt1 h f l y),
    fun h f l y => runs rfl (flt2 h f l y), fun h f => runs rfl (int2 h f), fun h f l y => runs rfl (flt2 h f l y), fun h f => runs rfl (int2 h f),
    fun h f l y => runs rfl (flt1 h f l y), fun h f => runs rfl (int1 h f), fun h f l y => runs rfl (flt1 h f l y), fun h f => runs rfl (int1 h f),
    fun h f => runs rfl (bit h f), fun h f => runs rfl (bit h f), fun h f => runs rfl (bit h f),
    fun h f => State.veShift_starts h.1 f h.2 _, fun h f => State.veShift_starts h.1 f h.2 _, fun h f => State.veShift_starts h.1 f h.2 _,
    fun h dst formats fn => ?_, fun h dst formats fn => ?_, fun h mask formats l layout => ?_, fun h mask formats layout => ?_⟩
  · have notInts : okInts (j.srcs.map VStream.fmt) = false := okInts_of_okFloats (by simp [starts2 h]) formats
    refine runs rfl ((State.takeVe_writes h.1 _ rfl _ _ ?_ (by rw [dst]; rfl) rfl).trans ?_)
    · exact (passes_append _ _).2 ⟨by simp [dst, formats, Nat.not_le.2 fn], h.2⟩
    · simp only [notInts]; rfl
  · refine runs rfl ((State.takeVe_writes h.1 _ rfl _ _ ?_ (by rw [dst]; rfl) rfl).trans ?_)
    · exact (passes_append _ _).2 ⟨by simp [dst, formats, Nat.not_le.2 fn], h.2⟩
    · simp only [formats]; rfl
  · refine runs rfl ((State.takeVe_writes h.1 _ rfl _ _ ?_ (isMx_of_okFloats formats) rfl).trans ?_)
    · exact (passes_cons _ _).2 ⟨by simp [mask, formats], h.2⟩
    · refine congrArg _ (List.map_congr_left fun x _ => ?_)
      simp only [layout]
      exact (congrArg _ (apply_ite (s'.streamVal t · j.n x) (n 2 x = 0) (j.src 1) (j.src 0)) : _)
  · refine runs rfl ((State.takeVe_writes h.1 _ rfl _ _ ?_ (isMx_of_okInts formats) rfl).trans ?_)
    · exact (passes_cons _ _).2 ⟨by simp [mask, formats], h.2⟩
    · refine congrArg _ (List.map_congr_left fun x _ => ?_)
      simp only [layout]
      exact (congrArg _ (apply_ite (s'.streamInt t · j.n x) (n 2 x = 0) (j.src 1) (j.src 0)) : _)

end

section
/-! The bounded functions, the activations, the polynomials and the conversions (R309 to R315). -/

namespace Sys2Proof.Machine

open Sys2Proof Sys2Proof.Laws

section
variable {s s' : State} {t : Fin 4} {e : QEntry} {j : VJob} {o alt : Nat}

/-- An entry that becomes active leaves the arrays of its Tiller. -/
theorem State.activate_arr (s : State) (t q a : Nat) (e : QEntry) : (s.activate t q e).arr t a = s.arr t a := by
  simp [State.arr, State.activate, State.modQueue]

theorem State.veBounded_starts (h : StartsVector s t o alt 1 false e j s') (formats : okFloats [j.dst.fmt, (j.src 0).fmt] = true)
    (passes : Passes (s'.elemChecks t (s'.partOf t e) j [j.n])) {l : FLayout} (layout : j.dst.fmt.layout? = some l) :
    s.veBounded t MemFaults.none o alt = vectorWrites s' t e j j.n ((List.range j.n).map fun x =>
      match boundedSpecial o alt (s'.streamVal t (j.src 0) j.n x) with
      | some (y, f) => ((l.rnd .rne y).1, f)
      | .none => veBoundedNum o alt l (s'.streamVal t (j.src 0) j.n x)
          (boundedFree (2 * o + alt) (j.src 0).fmt j.dst.fmt (s'.streamCode t (j.src 0) j.n x) (s'.arr t 0).mcode)) := by
  refine (State.takeVe_writes h _ rfl _ _ ?_ (isMx_of_okFloats formats) rfl).trans ?_
  · exact (passes_cons _ _).2 ⟨by simp [formats], passes⟩
  · simp only [layout, State.activate_arr]; rfl

end

end Sys2Proof.Machine

open Sys2Proof Sys2Proof.Machine

/-- Settles O32: each is a take of its job; the conversion to an MX format writes whole blocks. -/
theorem vectorFunctions : Obligations.VectorFunctions := by
  intro s s' t e j p v nf code ends fn
  have runs {i : Instr} {u w : State} (h : exec i s = .next u) (eq : u = w) : Runs i s w := h.trans (congrArg _ eq)
  have bounded {o alt : Nat} {i : Instr} (h : exec i s = .next (s.veBounded t nf o alt)) : fn o alt i :=
    fun starts formats passes l layout => runs h (State.veBounded_starts starts formats passes layout)
  refine ⟨bounded rfl, bounded rfl, bounded rfl, bounded rfl, bounded rfl, bounded rfl, bounded rfl, bounded rfl, bounded rfl,
    fun starts dst src fn params bound ends passes l layout => ?_,
    fun starts formats pos lt compute coefs passes l layout => ?_, fun starts control passes => ⟨fun plain => ?_, fun mx => ?_⟩⟩
  · refine runs rfl ((State.takeVe_writes starts _ rfl _ _ ?_ ?_ rfl).trans ?_)
    · refine (passes_append _ _).2 ⟨?_, passes⟩
      have count := srcs_length_of_starts starts
      have kinds (h : j.srcs.length = 2) : (j.src 1).kind = 2 ∧ (j.src 1).fmt = .fp64 := params (by by_contra no; simp [count, no] at h)
      have float {f : Fmt} (h : f ∈ [Fmt.fp32, .fp16, .bf16]) : (f == .fp32 || f == .fp16 || f == .bf16) = true := by simpa [or_assoc] using h
      simp only [passes_cons, passes_nil, Laws.failIf_eq_none, and_true]
      refine ⟨by simp [float dst, float src], by simpa using fn, ?_, ?_, ?_⟩
      · by_cases two : j.srcs.length = 2
        · simp [kinds two]
        · simp [two]
      · by_cases soft : j.fn = 2
        · simpa [soft] using bound soft
        · simp [soft]
      · by_cases clamp : j.fn = 10
        · obtain ⟨a, b, lt⟩ := ends clamp
          simpa [clamp] using And.intro ⟨a, b⟩ lt
        · simp [clamp]
    · exact Fmt.isMx_of_plain (.inl (by simp only [List.mem_cons, List.not_mem_nil, or_false] at dst; rcases dst with h | h | h <;> rw [h] <;> rfl))
    · simp only [layout, State.activate_arr]; rfl
  · have checks : Passes ([failIf (!(okFloats [j.dst.fmt, (j.src 0).fmt, (j.src 1).fmt])) F_RSVD j.dst.fmtCode,
        failIf (decide (j.fn = 0 ∨ 16 ≤ j.fn)) F_RSVD j.fn,
        failIf (j.dst.fmt != veCompute [j.dst.fmt, (j.src 0).fmt, (j.src 1).fmt] || (j.src 1).fmt != veCompute [j.dst.fmt, (j.src 0).fmt, (j.src 1).fmt])
          F_RSVD j.dst.fmtCode] ++ s'.elemChecks t p j [j.n, if j.n = 0 then 0 else j.fn + 1]) :=
      (passes_append _ _).2 ⟨by rw [formats, ← compute, coefs]; simp; omega, passes⟩
    refine runs rfl ((State.takeVe_starts starts _ rfl _ _ checks).trans ?_)
    obtain ⟨_, _, _, _, _, _, _, bad, _⟩ := id starts
    have bad : (s'.activate t 4 e).bad = [] := bad
    by_cases zero : j.n = 0
    · simp [zero, vectorWrites, State.putCodes, State.veFlags, orFlags, State.setFlagIf, FFlags.none]
    · simp only [nf, zero, if_false, show (s'.activate t 4 e).scan MemFaults.none _ = _ from State.scan_clean bad _ VStream.granules_ge]
      refine (State.veElems_clean (j := { j with srcs := [j.src 0] }) bad (isMx_of_okFloats formats) _ _).trans ?_
      simp only [layout]; rfl
  · refine runs rfl ((State.takeVe_writes starts _ rfl _ _ ?_ plain rfl).trans rfl)
    exact (passes_cons _ _).2 ⟨by simp [Option.isNone_eq_false_iff.2 control], passes⟩
  · have checks : Passes (failIf (convControl j.dst.fmt j.conv).isNone F_RSVD j.conv :: s'.elemChecks t p j [j.n]) :=
      (passes_cons _ _).2 ⟨by simp [Option.isNone_eq_false_iff.2 control], passes⟩
    refine runs rfl ((State.takeVe_starts starts _ rfl _ _ checks).trans ?_)
    obtain ⟨_, _, _, _, _, _, _, bad, _⟩ := id starts
    have bad : (s'.activate t 4 e).bad = [] := bad
    simp only [nf, State.veElems, State.scanAll_clean bad, State.writeFail_clean bad, earlier, mx, if_true]; rfl

end

section
/-! The reductions, VTOPK and VRNG (R316 to R335). -/

namespace Sys2Proof.Machine

open Sys2Proof Sys2Proof.Laws

section
/-- Elements written to an output make no granule uncorrectable. -/
theorem State.putCodes_clean {s : State} (clean : s.bad = []) (t : Nat) (x : VStream) (count : Nat) (codes : List Nat) :
    (s.putCodes t x count codes).bad = [] :=
  List.foldlRecOn (motive := fun (u : State) => u.bad = []) _ _ clean fun u clean _ _ => by simp [State.poke, clean]

variable {s s' : State} {t : Fin 4} {e : QEntry} {j : VJob}

/-- The layout, the row and the lanes of a reduction are those of its job. -/
theorem State.veReduce_starts {x : RSpec} {rows row lanes : Nat} {int : Bool} {acc : FLayout} {fmts : List Fmt}
    (starts : StartsVector s t x.op 0 x.nsrc false e j s') (allFmts : fmts = j.dst.fmt :: j.srcs.map VStream.fmt)
    (formats : (okFloats fmts || okInts fmts) = true) (fn : j.fn < 2) (exact : j.fn = 1 → okInts fmts = false)
    (lengths : ∀ y ∈ j.srcs, y.rowLen = (j.src 0).rowLen) (rowOf : row = (j.src 0).row j.n) (rowsOf : rows = (j.n + row - 1) / row)
    (intOf : int = okInts fmts) (accOf : acc = if fmts.contains .fp64 || j.fn == 1 then fp64 else fp32)
    (lanesOf : lanes = if int then 1024 else if acc.width = 64 then 512 else 1024)
    (passes : Passes (s'.streamChecks t (s'.partOf t e) j.dst true rows ++ (j.srcs.flatMap fun y => s'.streamChecks t (s'.partOf t e) y false j.n) ++
      [overlapCheck [(j.dst, rows)] (j.srcs.map fun y => (y, j.n))])) :
    s.veReduce t MemFaults.none x = vectorWrites s' t e j rows ((List.range rows).map fun r => s'.reduceOne t x j int acc lanes row r rows) := by
  subst allFmts rowOf rowsOf intOf accOf lanesOf
  have bad : (s'.activate t 4 e).bad = [] := by
    obtain ⟨_, _, _, _, _, _, _, bad, _⟩ := starts
    exact bad
  refine (State.takeVe_starts starts _ rfl _ _ ?_).trans ?_
  · simp only [passes_append, passes_cons, passes_nil, failIf_eq_none, and_true] at passes ⊢
    obtain ⟨⟨dst, srcs⟩, apart⟩ := passes
    refine ⟨⟨⟨⟨by simp [formats], ?_, ?_⟩, dst⟩, srcs⟩, apart⟩
    · by_cases one : j.fn = 1
      · simp [one, exact one]
      · simp [one, fn]
    · simpa using lengths
  · have own : (if j.acc then (s'.activate t 4 e).scan MemFaults.none (j.dst.granules t ((j.n + (j.src 0).row j.n - 1) / (j.src 0).row j.n)) else (none, s'.activate t 4 e)) =
        (none, s'.activate t 4 e) := by
      split
      · exact State.scan_clean bad _ VStream.granules_ge
      · rfl
    simp only [State.scanAll_clean bad, own, State.writeFail_clean bad, Option.map_none, earlier]
    rfl

end

end Sys2Proof.Machine

open Sys2Proof Sys2Proof.Machine

/-- Settles O33: every granule reads, so each instruction writes all its rows or elements. -/
theorem vectorReductions : Obligations.VectorReductions := by
  intro s s' t e j p nf fmts row rows int acc lanes reduces
  have runs {i : Instr} {u w : State} (h : exec i s = .next u) (eq : u = w) : Runs i s w := h.trans (congrArg _ eq)
  have reduction {i : Instr} {x : RSpec} (h : exec i s = .next (s.veReduce t nf x)) : reduces i x :=
    fun starts formats fn exact lengths passes =>
      runs h (State.veReduce_starts starts rfl formats fn exact lengths rfl rfl rfl rfl rfl passes)
  have bad {o k : Nat} {pos : Bool} (h : StartsVector s t o 0 k pos e j s') : (s'.activate t 4 e).bad = [] := by
    obtain ⟨_, _, _, _, _, _, _, bad, _⟩ := h
    exact bad
  refine ⟨reduction rfl, reduction rfl, reduction rfl, reduction rfl, ?_, ?_⟩
  · intro k count res starts positive small fn formats same posFmt idxFmt passes l layout
    have bad := bad starts
    refine runs rfl ((State.takeVe_starts starts _ rfl _ _ ?_).trans ?_)
    · simp only [passes_append, passes_cons, passes_nil, Laws.failIf_eq_none, and_true, List.flatMap_map] at passes ⊢
      obtain ⟨⟨⟨dst, pos⟩, srcs⟩, apart⟩ := passes
      refine ⟨⟨⟨⟨⟨by simp only [decide_eq_false_iff_not]; omega, by simp [formats, same], ?_⟩, dst⟩, pos⟩, srcs⟩, apart⟩
      by_cases two : j.srcs.length = 2
      · simp [posFmt, idxFmt two]
      · simp [posFmt, two]
    · simp only [nf, State.scanAll_clean bad, State.writeFail_clean bad, Option.map_none, earlier, layout]
      rfl
  · intro ctr per u starts formats fn zero passes
    have bad := bad starts
    have checks : Passes ([failIf (!(okFloats [j.dst.fmt] || j.dst.fmt == .int32)) F_RSVD j.dst.fmtCode, failIf (decide (2 ≤ j.fn % 128)) F_RSVD j.fn,
        failIf ((j.src 0).w 3 != 0) F_RSVD ((j.src 0).w 3)] ++ s'.streamChecks t p j.dst true j.n) := by
      exact (passes_append _ _).2 ⟨by simp [formats, zero, fn], passes⟩
    refine ⟨fun keeps => ?_, fun advances apart => ?_⟩
    · refine runs rfl ((State.takeVe_starts starts _ rfl _ _ ((passes_append _ _).2 ⟨checks, ?_⟩)).trans ?_)
      · simp [Nat.not_le.2 keeps]
      · simp only [nf, State.writeFail_clean bad, Nat.not_le.2 keeps, if_false]
        rfl
    · refine runs rfl ((State.takeVe_starts starts _ rfl _ _ ((passes_append _ _).2 ⟨checks, ?_⟩)).trans ?_)
      · simp only [passes_cons, passes_nil, Laws.failIf_eq_none, and_true, Bool.and_eq_false_iff, List.any_eq_false, decide_eq_true_eq]
        refine .inr fun r mem => ?_
        have := apart r mem
        push_cast
        omega
      · have ubad : u.bad = [] := State.putCodes_clean bad ..
        simp only [nf, State.writeFail_clean bad, advances, if_true]
        have above : 0x8000000000 ≤ spmBase t + j.desc + 40 := by
          have := spmBase_ge t
          omega
        have step := State.storeChecked_clean (bs := leBytes 16 ((ctr + (j.n + per - 1) / per) % 2 ^ 128)) ubad above
        rw [← State.store_above above] at step
        rw [show State.storeChecked _ MemFaults.none _ _ = _ from step]

end

section
/-! Completion of vector instructions, and CSLC (R176 to R183, R303, R344, R402). -/

open Sys2Proof Sys2Proof.Machine

/-- Settles O34: the completions take the head of their queue; a CSLC passes its checks and goes through `cutRows`. -/
theorem vectorCompletionAndSlices : Obligations.VectorCompletionAndSlices := by
  intro s s' u t e rest mf
  refine ⟨fun active => ?_, fun active => ?_, fun takes clean least most rows length inc => ?_⟩
  · have head : (s.queue t 4).active ≠ [] := by simp [active]
    refine congrArg Host.Outcome.next ((if_neg head).trans (State.completeFirst_head (rest := rest) ?_ rfl))
    simpa [State.queue] using active
  · refine congrArg Host.Outcome.next ((State.completeFirst_head active rfl).trans ?_)
    rfl
  · have head : s.popHead t 5 (· == 0x81) = some (e, s') := takes
    have valid : Passes [failIf ((fmtX e.word).rsvd != 0 || decide ((fmtX e.word).s < 3 ∨ 8 < (fmtX e.word).s)) F_RSVD (fmtX e.word).s,
        failIf (decide (1024 < (fmtX e.word).rows)) F_BOUNDS (fmtX e.word).rows, failIf (decide (131072 < (fmtX e.word).l)) F_BOUNDS (fmtX e.word).l,
        s'.incCheck (s'.partOf t e) (fmtX e.word).ctr (fmtX e.word).ri] := by
      simp [clean, inc, Nat.not_lt.2 rows, Nat.not_lt.2 length, Nat.not_lt.2 least, Nat.not_lt.2 most]
    refine ⟨fun idle => ?_, fun some_rows some_length align_src align_srcs align_dst align_rows align_slices align_exp reads cut => ?_⟩
    · have first := Passes.eq_1 _ ▸ valid
      refine congrArg Host.Outcome.next ?_
      simp only [head, idle, true_or, if_true, List.append_nil, first]
    · have busy : ¬((fmtX e.word).rows = 0 ∨ (fmtX e.word).l = 0) := by omega
      have bounded : ¬(((fmtX e.word).rows = 0 ∨ (fmtX e.word).l = 0) ∨ 1024 < (fmtX e.word).rows ∨ 131072 < (fmtX e.word).l) := by omega
      have more : Passes ([failIf (decide (gaddr e.g (fmtX e.word).ra % 8 ≠ 0) || decide (gstride e.g (fmtX e.word).rb % 8 ≠ 0)) F_ALIGN
            (gaddr e.g (fmtX e.word).ra),
          failIf (decide (gaddr e.g (fmtX e.word).rc % 32 ≠ 0) || decide (gstride e.g (fmtX e.word).rd % 32 ≠ 0) ||
            decide (gstride e.g (fmtX e.word).re % 32 ≠ 0)) F_ALIGN (gaddr e.g (fmtX e.word).rc),
          failIf (decide (gaddr e.g (fmtX e.word).rf % 2 ≠ 0)) F_ALIGN (gaddr e.g (fmtX e.word).rf)] ++
        ((List.range (fmtX e.word).rows).flatMap fun (r : Nat) =>
          s'.spmCheck t (gaddr e.g (fmtX e.word).ra + r * gstride e.g (fmtX e.word).rb) (8 * (fmtX e.word).l) ::
          s'.spmCheck t (gaddr e.g (fmtX e.word).rf + 2 * r) 2 ::
          (List.range (fmtX e.word).s).map fun (i : Nat) =>
            s'.spmCheck t (gaddr e.g (fmtX e.word).rc + i * gstride e.g (fmtX e.word).re + r * gstride e.g (fmtX e.word).rd)
              (((fmtX e.word).l + 31) / 32 * 32))) := by
        refine (passes_append _ _).2 ⟨by simp [align_src, align_srcs, align_dst, align_rows, align_slices, align_exp], ?_⟩
        refine (Laws.firstCheck_eq_none _).2 fun c mem => ?_
        obtain ⟨r, inRows, mem⟩ := List.mem_flatMap.1 mem
        obtain ⟨row, exponent, slices⟩ := reads r (List.mem_range.1 inRows)
        rcases List.mem_cons.1 mem with rfl | mem
        · exact row
        rcases List.mem_cons.1 mem with rfl | mem
        · exact exponent
        obtain ⟨i, inSlices, rfl⟩ := List.mem_map.1 mem
        exact slices i (List.mem_range.1 inSlices)
      have run : (s'.activate t 5 e).cutRows mf t e (fmtX e.word) (fmtX e.word).rows 0 = _ := cut
      have first := Passes.eq_1 _ ▸ (passes_append _ _).2 ⟨valid, more⟩
      refine congrArg Host.Outcome.next ?_
      simp only [head]
      rw [if_neg bounded, first]
      simp only [busy, if_false, run]

end

section
/-! Husk snapshots, rollback and restore (R849 to R882). -/

open Sys2Proof Sys2Proof.Machine

/-- Settles O37: each event is taken where its guard holds; the point is taken or skipped as `huskCanFreeze` says. -/
theorem huskSnapshots : Obligations.HuskSnapshots := by
  intro s p c cfg h next
  dsimp only [h]
  refine ⟨fun enabled reached => ⟨fun can => ?_, fun can => ?_⟩, fun frozen kept => ?_, fun a data mf due reads => ?_, fun past => ?_,
    fun past before held => ?_, fun i mf x bs bad u shard draining runs read few => ?_, fun draining unsent drained done => ?_,
    fun draining sent done => ⟨fun shrink => ?_, fun reload => ?_⟩⟩ <;> refine congrArg Host.Outcome.next ?_
  · simp only [cfg, enabled, Nat.not_lt.2 reached, can, decide_false, Bool.not_true, Bool.or_self, if_true, Bool.false_eq_true, if_false, next]
  · simp only [cfg, enabled, Nat.not_lt.2 reached, can, decide_false, Bool.not_true, Bool.or_self, Bool.false_eq_true, if_false, next]
  · refine (if_neg (not_not.2 frozen)).trans ?_
    simp only [kept]
  · simp [due, State.storeChecked, State.mergeErr, reads]
  · exact if_pos past
  · exact if_pos ⟨past, before, held⟩
  · simp only [cfg, shard, draining, runs, read, ne_eq, not_true, decide_false, Bool.not_true, Bool.or_self, Bool.false_eq_true, if_false]
    simp only [List.length_map]
    refine (if_neg (Nat.not_lt.2 few)).trans ?_
    rfl
  · simp only [cfg, draining, unsent, List.all_eq_true.2 drained, done, ne_eq, not_true, decide_false, Bool.not_true, Bool.or_self,
      Bool.false_eq_true, if_false]
  · simp only [cfg, draining, sent, done, shrink, ne_eq, not_true, decide_false, Bool.not_true, Bool.or_self, Bool.false_eq_true, if_false, if_true]
  · simp only [cfg, draining, sent, done, reload, ne_eq, not_true, decide_false, Bool.not_true, Bool.or_self, Bool.false_eq_true, if_false]

/-- Settles O38: the rollback is one fold over the saved parts; the restore ends, goes on or fails as its checks say. -/
theorem huskRollbackAndRestore : Obligations.HuskRollbackAndRestore := by
  intro s p h
  dsimp only [h]
  refine ⟨fun rolling => ?_, fun r restore restoring => ⟨fun m verified unchecked bad => ?_, fun m unchecked magic version key => ?_,
    fun i x data checked shard waits length digest fits clean whole => ?_, fun checked done => ?_⟩⟩ <;> refine congrArg Host.Outcome.next ?_
  · refine (if_neg (not_not.2 rolling)).trans ?_
    rfl
  · simp [restore, restoring, unchecked, bad]
  · simp only [restore, restoring, unchecked, magic, version, key, ne_eq, not_true, decide_false, Bool.not_true, Bool.or_self, bne_self_eq_false,
      Bool.false_eq_true, if_false, if_true]
  · simp only [restore, restoring, checked, shard, waits, length, digest, fits, clean, whole, ne_eq, not_true, decide_false, Bool.not_true, Bool.or_self,
      beq_self_eq_true, Bool.and_self, Bool.false_eq_true, if_false, if_true]
    rfl
  · simp only [restore, restoring, checked, done, and_self, if_true]

end

section
/-! Frames at a port in ACTIVE (R744, R748 to R764, R776). -/

namespace Sys2Proof.Machine

open Sys2Proof Sys2Proof.Laws

theorem State.frameIn_active {s : State} {k ty : Nat} {f : Frame} (body : State → State) (formed : f.malformed = false)
    (active : (s.port k).st = stActive) (type : f.ty = ty) : s.frameIn k ty f body = body s := by
  simp [State.frameIn, formed, active, type]

theorem State.frameIn_malformed {s : State} {k ty : Nat} {f : Frame} (body : State → State) (malformed : f.malformed = true) :
    s.frameIn k ty f body = s.modPort k fun p => { p with frameErr := sat32 (p.frameErr + 1) } := by
  simp [State.frameIn, malformed]

end Sys2Proof.Machine

open Sys2Proof Sys2Proof.Machine

/-- Settles O39: `frameIn` hands a well-formed frame to the row of its type; the rows branch on its number and its lane. -/
theorem linkFrames : Obligations.LinkFrames := by
  intro s k f
  dsimp only
  have runs {i : Instr} {u w : State} (h : exec i s = .next u) (eq : u = w) : Runs i s w := h.trans (congrArg _ eq)
  refine ⟨fun formed active => ?_, fun malformed => ?_, fun crc n => rfl, fun active waits => ?_⟩
  · refine ⟨fun type next => ⟨_, runs rfl ((State.frameIn_active _ formed active type).trans (if_pos next)), rfl⟩,
      fun type ahead near quiet => runs rfl ((State.frameIn_active _ formed active type).trans ((if_neg ahead.ne').trans ((if_pos near).trans ?_))),
      fun type behind => runs rfl ((State.frameIn_active _ formed active type).trans ((if_neg (by omega)).trans (if_neg (Nat.not_le.2 behind)))),
      fun type => runs rfl (State.frameIn_active _ formed active type),
      fun i type found => runs rfl ((State.frameIn_active _ formed active type).trans ?_),
      fun sp type epoch lane found => runs rfl ((State.frameIn_active _ formed active type).trans ((if_neg ?_).trans ?_)),
      fun type => runs rfl ?_⟩
    · simp [quiet]
    · simp only [found]
    · exact not_or.2 ⟨epoch, Nat.not_le.2 lane⟩
    · simp only [found]
    · simp [formed, type, active]
  · exact ⟨runs rfl (State.frameIn_malformed _ malformed), runs rfl (State.frameIn_malformed _ malformed), runs rfl (State.frameIn_malformed _ malformed),
      runs rfl (State.frameIn_malformed _ malformed), runs rfl (if_pos (by simp [malformed]))⟩
  · exact ⟨runs rfl (if_pos ⟨active, waits⟩), runs rfl (if_pos ⟨active, waits⟩)⟩

end

section
/-! The training of optical ports, lane sparing and laser modules (R765 to R795). -/

namespace Sys2Proof.Machine

open Sys2Proof Sys2Proof.Laws

@[simp] theorem State.modPort_port (s : State) (k : Nat) (f : Port → Port) : (s.modPort k f).port k = f (s.port k) := Tbl.get_upd ..

section
variable {s : State} {k : Nat}

theorem State.stepTimeout_at {st : Nat} (at_ : (s.port k).st = st) : s.stepTimeout k st = s.trainFail k := if_pos at_

theorem State.trainFail_early (few : (s.port k).fails < 3) : s.trainFail k =
    ((s.modPort k fun p => { p.clearLink with trainFail := sat32 (p.trainFail + 1), fails := min 4 (p.fails + 1) }).logEv
      "PORT_TRAIN_FAIL" 1 k 0xFF []).setPortSt k stBackoff := if_pos few

/-- The fourth failure in a row of a port whose fibre is out. -/
theorem State.trainFail_fourth (fails : (s.port k).fails = 3) (out : (s.port k).fibre = false) : s.trainFail k =
    (((s.modPort k fun p => { p.clearLink with trainFail := sat32 (p.trainFail + 1), fails := min 4 (p.fails + 1) }).logEv
      "PORT_TRAIN_FAIL" 1 k 0xFF []).setPortSt k stDark).logEv "PORT_DARK" 1 k 0xFF [] := by
  simp [State.trainFail, fails, out]

theorem commonVersion_two : commonVersion 2 = 2 := by decide

end

end Sys2Proof.Machine

open Sys2Proof Sys2Proof.Machine

/-- Settles O40: each event acts in its own state; a training frame between peers of the domain passes its checks. -/
theorem portTraining : Obligations.PortTraining := by
  intro s k
  dsimp only
  have runs {i : Instr} {u w : State} (h : exec i s = .next u) (eq : u = w) : Runs i s w := h.trans (congrArg _ eq)
  refine ⟨fun detect => ⟨runs rfl (if_neg (not_not.2 detect)), fun few => runs rfl ((State.stepTimeout_at detect).trans (State.trainFail_early few)),
      fun fails out => runs rfl ((State.stepTimeout_at detect).trans (State.trainFail_fourth fails out))⟩,
    fun align few => runs rfl ((State.stepTimeout_at align).trans (State.trainFail_early few)),
    fun exchange few => runs rfl ((State.stepTimeout_at exchange).trans (State.trainFail_early few)),
    fun tx rx align goodTx goodRx => runs rfl (if_neg (by simp only [align]; omega)),
    fun f formed type exchange domain version role plane least0 most0 least1 most1 => ?_,
    fun backoff => runs rfl ((if_neg (not_not.2 backoff)).trans rfl), fun dark => runs rfl ((if_neg (not_not.2 dark)).trans rfl),
    fun fibre off => runs rfl ?_, fun fibre on => runs rfl ?_, fun out => ⟨fun other same => runs rfl ?_, fun fibreOut same => runs rfl ?_⟩,
    fun lit => runs rfl (if_pos lit), fun detect => runs rfl (if_neg (by simp [detect, stActive, stAlign, stExchange, stDetect]))⟩
  · have known : ¬(f.malformed || f.ty != frTrain) = true := by simp [formed, type]
    have two : commonVersion (f.payload.getD 0 0) = 2 := by rw [version]; exact commonVersion_two
    have trained : (s.port k).st ≠ stActive := by simp [exchange, stExchange, stActive]
    refine ⟨fun blank => runs rfl ?_, fun echoed near ready => runs rfl ?_⟩ <;>
      refine (if_neg known).trans ((if_neg trained).trans ((if_neg (not_not.2 exchange)).trans ((if_neg ?_).trans ?_)))
    case refine_1.refine_1 => simp [-List.getD_eq_getElem?_getD, domain, role, plane, Nat.one_le_iff_ne_zero.1 least0, most0, Nat.one_le_iff_ne_zero.1 least1, most1, two, blank]
    case refine_1.refine_2 => exact if_pos blank
    case refine_2.refine_1 => simpa [-List.getD_eq_getElem?_getD, domain, role, plane, Nat.one_le_iff_ne_zero.1 least0, most0, Nat.one_le_iff_ne_zero.1 least1, most1, two] using
      fun _ => near
    case refine_2.refine_2 =>
      refine (if_neg echoed).trans ((if_pos ready).trans ?_)
      simp only [two]
  · have kept : ((((s.modPort k fun p => { p with fibre := false }).setFlag (lnOp k) 2).setFlag lnLs 1).port k).st = stOff :=
      (congrArg Port.st (State.modPort_port ..)).trans off
    simp only [fibre, kept, Bool.not_true, Bool.false_eq_true, if_false, if_true]
  · have kept : ((((s.modPort k fun p => { p with fibre := false }).setFlag (lnOp k) 2).setFlag lnLs 1).port k).st ≠ stOff :=
      (congrArg Port.st (State.modPort_port ..)).trans_ne on
    simp only [fibre, kept, Bool.not_true, Bool.false_eq_true, if_false]
  · exact (if_neg (by simp [out])).trans (if_neg (same.trans_ne other))
  · exact (if_neg (by simp [out])).trans (if_pos (same.trans fibreOut))

/-- Settles O41: the rows branch on the state of the lane, the port and the module. -/
theorem lanesAndLasers : Obligations.LanesAndLasers := by
  intro s k m
  dsimp only
  have runs {i : Instr} {u w : State} (h : exec i s = .next u) (eq : u = w) : Runs i s w := h.trans (congrArg _ eq)
  refine ⟨fun lane active failing idle => ⟨fun spare => runs rfl ?_, fun none_ => runs rfl ?_⟩, fun sparing => runs rfl ?_, fun lane spare => runs rfl ?_,
    rfl, rfl, fun powers temp alarm lost lit => ⟨fun bad => runs rfl ?_, fun quiet fed cool => runs rfl ?_⟩,
    fun present => ⟨fun lit => runs rfl ?_, fun dark => runs rfl ?_⟩, fun ok v absent => runs rfl ?_, fun starting => runs rfl ?_,
    fun feed => ⟨fun lit => runs rfl ?_, fun dark => runs rfl ?_⟩, fun ok v unfed other same => runs rfl ?_, fun ok v waits unfed => runs rfl ?_⟩
  · refine (if_neg (by simp [active, failing, idle])).trans (if_neg ?_)
    simp only [idle, spare, Option.isSome_none, Bool.not_true, Bool.or_self, Bool.false_eq_true, not_false_eq_true]
  · refine (if_neg (by simp [active, failing, idle])).trans (if_pos ?_)
    simp only [none_, Bool.not_false, Bool.or_true]
  · exact if_pos (Option.isSome_iff_ne_none.2 sparing)
  · exact if_neg (not_not.2 spare)
  · refine (if_pos (by tauto)).trans (if_pos ⟨lit, ?_⟩)
    simpa [or_assoc] using bad
  · refine (if_pos (by tauto)).trans (if_neg fun h => ?_)
    obtain ⟨_, bad⟩ := h
    simp [quiet, fed] at bad
    omega
  · exact (if_neg (by simp [present])).trans (if_pos lit)
  · exact (if_neg (by simp [present])).trans (if_neg dark)
  · exact if_neg (by simp [absent])
  · exact if_neg (not_not.2 starting)
  · exact (if_neg (by simp [feed])).trans (if_pos lit)
  · exact (if_neg (by simp [feed])).trans (if_neg dark)
  · exact (if_neg (by simp [unfed])).trans (if_neg (same.trans_ne other))
  · exact (if_neg (by simp [unfed])).trans (if_pos waits)

end

section
/-! Loads, stores, atomics, LR, SC and FENCE of the application cores (R529, R538 to R542, R558 to R564, R610). -/

namespace Sys2Proof.Machine

open Sys2Proof Sys2Proof.Laws

section
variable {s s' u v : State} {h va n : Nat} {mf : MemFaults}

/-- The body of an instruction runs with the core that `Executes` names. -/
theorem State.coreRun_executes {len : Nat} (e : Executes s h len s') (body : Core → State → State) :
    s.coreRun h len body = body (s'.core h) s' := by
  obtain ⟨runs, quiet, rfl⟩ := e
  simp [State.coreRun, runs, quiet]

theorem misaligned_none {qs : List (Nat × Nat × Nat)} (whole : va % n = 0 ∨ misalignedFault qs = none) :
    (if va % n = 0 then none else misalignedFault qs) = none := by
  rcases whole with aligned | whole
  · exact if_pos aligned
  · rw [whole, ite_self]

/-- The bytes of a store of one run that covers the access are the run's. -/
theorem map_run_getD (bs : List Byte) :
    ((List.range bs.length).map fun i => (([(0, bs)].find? fun r => decide (r.1 ≤ i ∧ i < r.1 + r.2.length)).map fun r => r.2.getD (i - r.1) 0).getD 0) = bs := by
  refine List.ext_getElem (by simp) fun i _ inside => ?_
  simp [inside]

end

end Sys2Proof.Machine

open Sys2Proof Sys2Proof.Machine

/-- Settles O42: the translation, the checks and the accesses of each row, with none of them failing. -/
theorem coreMemoryAccesses : Obligations.CoreMemoryAccesses := by
  intro s s' u v h w fp short rd rs1 rs2 imm mf ps bs
  dsimp only
  have runs {i : Instr} {u w : State} (h : exec i s = .next u) (eq : u = w) : Runs i s w := h.trans (congrArg _ eq)
  refine ⟨fun e legal => ?_, fun w64 aq rl op pa e aligned => ?_, fun pred succ e => ?_⟩
  · have allowed : (fp && (!(s'.core h).fpOn || decide (w.val < 2))) = false := by
      cases fp
      · rfl
      · obtain ⟨on, wide⟩ := legal rfl
        simp [on, Nat.not_lt.2 wide]
    refine ⟨fun signed xlate whole => ⟨fun memory read => runs rfl ((State.coreRun_executes e _).trans ?_),
        fun aperture ok => runs rfl ((State.coreRun_executes e _).trans ?_)⟩,
      fun xlate whole => ⟨fun memory fits written => runs rfl ((State.coreRun_executes e _).trans ?_), fun aperture ok => ?_⟩⟩
    · simp only [allowed, Bool.false_eq_true, if_false, State.coreLoad, xlate, misaligned_none whole, memory, read]
    · simp only [allowed, Bool.false_eq_true, if_false, State.coreLoad, xlate, misaligned_none whole, aperture, ok, Bool.not_true, if_true]
    · simp only [allowed, Bool.false_eq_true, if_false, State.coreStore, xlate, misaligned_none whole, memory, Bool.false_eq_true, if_false]
      rw [List.find?_eq_none.2 fun x mem => by simp [fits x mem]]
      simp only [written]
    · let value := if fp then (s'.core h).fr rs2 else (s'.core h).xr rs2
      refine ⟨u.coreOp h .store ((ps.head?.map fun p => p.2.1).getD 0) (2 ^ w.val) ((List.range (2 ^ w.val)).map fun i =>
          (([(0, leBytes (2 ^ w.val) value.toNat)].find? fun r => decide (r.1 ≤ i ∧ i < r.1 + r.2.length)).map fun r => r.2.getD (i - r.1) 0).getD 0)
          ([(0, leBytes (2 ^ w.val) value.toNat)].map fun r => (r.1, r.2.length)), rfl, rfl, rfl, rfl, ?_,
        runs rfl ((State.coreRun_executes e _).trans ?_)⟩
      · have bytes := map_run_getD (leBytes (2 ^ w.val) value.toNat)
        rwa [leBytes_length] at bytes
      · simp only [allowed, Bool.false_eq_true, if_false, State.coreStore, xlate, misaligned_none whole, aperture, ok, Bool.not_true, if_true]
        rfl
  · have address {store : Bool} {pa : Nat} (xlate : s'.translate mf h store ((s'.core h).xr rs1).toNat (if w64 then 8 else 4) = (.ok pa, u)) :
        s'.atomicAddr mf h store ((s'.core h).xr rs1).toNat (if w64 then 8 else 4) = (some pa, u) := by
      simp only [State.atomicAddr, aligned, xlate, ne_eq, not_true, if_false]
    refine ⟨fun xlate memory hbm read fits => runs rfl ((State.coreRun_executes e _).trans ?_),
      fun xlate fits read => runs rfl ((State.coreRun_executes e _).trans ?_),
      fun xlate fits => ⟨fun lost => runs rfl ((State.coreRun_executes e _).trans ?_), fun kept stored => runs rfl ((State.coreRun_executes e _).trans ?_)⟩⟩
    · simp only [address xlate, memory, hbm, Bool.false_eq_true, if_false, if_true, State.amoLocal, read, fits]
    · simp only [address xlate, fits, Bool.false_eq_true, if_false, read]
    · simp only [address xlate, fits, if_true, lost, if_false]
    · simp only [address xlate, fits, if_true, kept, stored]
  · refine ⟨fun stores left => runs rfl ((State.coreRun_executes e _).trans (if_pos ?_)),
      fun free => runs rfl ((State.coreRun_executes e _).trans (if_neg ?_))⟩
    · simp [stores, left]
    · rcases free with free | free <;> simp [free]

end

section
/-! The SVX instructions (R568 to R573). -/

namespace Sys2Proof.Machine

open Sys2Proof Sys2Proof.Laws

section
variable (c : Core) (n k : Nat)

/-! The length of the instruction that executes plays no part in a register write, which leaves the program counter. -/

theorem Core.setX_ilen (v : W64) : Core.setX { c with ilen := k } n v = { c.setX n v with ilen := k } := by
  unfold Core.setX
  split <;> rfl

theorem Core.setP_ilen (v : BitVec 8) : Core.setP { c with ilen := k } n v = { c.setP n v with ilen := k } := by
  unfold Core.setP
  split <;> rfl

theorem Core.raise_ilen (f : FFlags) : Core.raise { c with ilen := k } f = { c.raise f with ilen := k } := by
  unfold Core.raise
  split <;> rfl

@[simp] theorem Core.setX_pc (v : W64) : (c.setX n v).pc = c.pc := by
  unfold Core.setX
  split <;> rfl

@[simp] theorem Core.setP_pc (v : BitVec 8) : (c.setP n v).pc = c.pc := by
  unfold Core.setP
  split <;> rfl

@[simp] theorem Core.setW_pc (v : W64) : (c.setW n v).pc = c.pc := rfl

@[simp] theorem Core.setQ_pc (v : W128) : (c.setQ n v).pc = c.pc := rfl

@[simp] theorem Core.raise_pc (f : FFlags) : (c.raise f).pc = c.pc := by
  unfold Core.raise
  split <;> rfl

end

section
variable {s : State} {h : Nat}

/-- A vector instruction whose effect `g` depends on no instruction length and leaves the program counter. -/
theorem State.vecRun_effect (e : ExecutesVector s h) {illegal : Core → Bool} (legal : illegal { s.core h with ilen := 4 } = false) {f g : Core → Core}
    (effect : f { s.core h with ilen := 4 } = { g (s.core h) with ilen := 4 }) (pc : (g (s.core h)).pc = (s.core h).pc) :
    s.vecRun h illegal f = coreDone s h g :=
  State.vecRun_done e _ legal f g (by simp only [effect, Core.nextPc, pc]; rfl)

theorem State.svInt_done (e : ExecutesVector s h) (sz pg : Nat) {rd : Nat} (rs1 rs2 : Nat) (file : rd < 32) (f : Core → Nat → Nat → Nat → Nat × Bool)
    (g : Nat → Nat → Nat × Bool) (same : f { s.core h with ilen := 4 } (8 * 2 ^ sz) = g) :
    s.svInt h sz pg rd rs1 rs2 f = coreDone s h fun c =>
      let r := svMap (2 ^ sz) ((s.core h).pr pg) ((s.core h).wr rd) ((s.core h).wr rs1) ((s.core h).wr rs2) g
      { c with w := Tbl.set c.w rd r.1, vxs := 3, fxsat := c.fxsat || r.2 } := by
  refine State.vecRun_effect e rfl ?_ rfl
  subst same
  simp only [Core.setW, Nat.mod_eq_of_lt file]
  split
  · rename_i saturated
    have saturated : (svMap (2 ^ sz) ((s.core h).pr pg) ((s.core h).wr rd) ((s.core h).wr rs1) ((s.core h).wr rs2)
      (f { s.core h with ilen := 4 } (8 * 2 ^ sz))).2 = true := saturated
    rw [saturated, Bool.or_true]
    rfl
  · rename_i within
    have within : (svMap (2 ^ sz) ((s.core h).pr pg) ((s.core h).wr rd) ((s.core h).wr rs1) ((s.core h).wr rs2)
      (f { s.core h with ilen := 4 } (8 * 2 ^ sz))).2 = false := Bool.eq_false_iff.2 within
    rw [within, Bool.or_false]
    rfl

theorem State.svCmp_done (e : ExecutesVector s h) {sz pg rd rs1 rs2 : Nat} (file : rd < 8) (f : Nat → Nat → Nat → Bool) :
    s.svCmp h sz pg rd rs1 rs2 f = coreDone s h fun c =>
      c.setP rd (svCompare (2 ^ sz) ((s.core h).pr pg) ((s.core h).wr rs1) ((s.core h).wr rs2) (f (8 * 2 ^ sz))) :=
  State.vecRun_effect e (decide_eq_false (Nat.not_le.2 file)) (Core.setP_ilen ..) (Core.setP_pc ..)

theorem State.svFloat_done (e : ExecutesVector s h) {sz pg rd rs1 rs2 : Nat} (f : RMode → FVal → FVal → FVal → FVal) {rm : RMode}
    (size : sz ≠ 3) (mode : (s.core h).frm = some rm) :
    s.svFloat h sz pg rd rs1 rs2 f =
      let c := s.core h
      let k := if sz = 2 then 4 else 2
      let l := szLayout sz
      let at_ := fun (r : W64) (i : Nat) => l.decode (elemAt r.toNat k i)
      let rs := (List.range (8 / k)).map fun i => if activeAt (c.pr pg) k i then l.rnd rm (f rm (at_ (c.wr rs1) i) (at_ (c.wr rs2) i) (at_ (c.wr rd) i))
        else (elemAt (c.wr rd).toNat k i, FFlags.none)
      coreDone s h fun c => (c.setW rd (BitVec.ofNat 64 (ofElems k (rs.map (·.1))))).raise (flagsOr (rs.map (·.2))) := by
  have mode' : Core.frm { s.core h with ilen := 4 } = some rm := mode
  refine State.vecRun_effect e (by simp [size, mode']) ?_ (Core.raise_pc ..)
  simp only [mode', Option.getD_some]
  exact Core.raise_ilen ((s.core h).setW rd _) 4 _

end

end Sys2Proof.Machine

open Sys2Proof Sys2Proof.Machine

/-- Settles O44: every row is `vecRun` of an effect on its core. -/
theorem svxInstructions : Obligations.SvxInstructions := by
  intro s h sz pg rd rs1 rs2 e b c int cmp flt
  have runs {i : Instr} {u w : State} (h : exec i s = .next u) (eq : u = w) : Runs i s w := h.trans (congrArg _ eq)
  have int_done := State.svInt_done e sz pg rs1 rs2 rd.isLt
  refine ⟨runs rfl (int_done _ _ rfl), runs rfl (int_done _ _ rfl), runs rfl (int_done _ _ rfl), runs rfl (int_done _ _ rfl), runs rfl (int_done _ _ rfl), runs rfl (int_done _ _ rfl), runs rfl (int_done _ _ rfl), runs rfl (int_done _ _ rfl), runs rfl (int_done _ _ rfl), runs rfl (int_done _ _ rfl),
    runs rfl (int_done _ _ rfl), runs rfl (int_done _ _ rfl), runs rfl (int_done _ _ rfl), runs rfl (int_done _ _ rfl), runs rfl (int_done _ _ rfl), runs rfl (int_done _ _ rfl), runs rfl (int_done _ _ rfl), runs rfl (int_done _ _ rfl), runs rfl (int_done _ _ rfl), runs rfl (int_done _ _ rfl),
    runs rfl (int_done _ _ rfl), fun file => runs rfl (State.svCmp_done e file _), fun file => runs rfl (State.svCmp_done e file _),
    fun file => runs rfl (State.svCmp_done e file _), fun rm size mode => runs rfl (State.svFloat_done e _ size mode),
    fun rm size mode => runs rfl (State.svFloat_done e _ size mode), fun rm size mode => runs rfl (State.svFloat_done e _ size mode),
    runs rfl (State.vecRun_effect e rfl rfl rfl),
    fun always bytes => ⟨fun k => ?_, fun k => ?_, fun k file => ?_, fun k file => ?_⟩, fun always d a b => runs rfl (State.vecRun_effect e ?_ ?_ (Core.setP_pc ..))⟩
  · exact runs rfl (State.vecRun_effect e (by simp [always, bytes, k]) (by simp only [k]; rfl) rfl)
  · exact runs rfl (State.vecRun_effect e (by simp [always, bytes, k]) (by simp only [k]; exact Core.setX_ilen ..) (Core.setX_pc ..))
  · exact runs rfl (State.vecRun_effect e (by simp [always, bytes, k, file]) (by simp only [k]; exact Core.setP_ilen ..) (Core.setP_pc ..))
  · exact runs rfl (State.vecRun_effect e (by simp [always, bytes, k, file]) (by simp only [k]; exact Core.setX_ilen ..) (Core.setX_pc ..))
  · simp [always, d, a, b]
  · refine (Core.setP_ilen ..).trans ?_
    fin_cases sz <;> rfl

end

section
/-! The LVX instructions and the vector loads and stores (R574 to R583). -/

namespace Sys2Proof.Machine

open Sys2Proof Sys2Proof.Laws

section
variable {s s' : State} {h : Nat}

theorem Core.lvFloat_ilen (c : Core) (k sz rd rs1 rs2 : Nat) (f : FLayout → Nat → Nat → Nat → Nat × FFlags) :
    Core.lvFloat { c with ilen := k } sz rd rs1 rs2 f = { c.lvFloat sz rd rs1 rs2 f with ilen := k } :=
  Core.raise_ilen (c.setQ rd _) k _

theorem State.lvRound_done (e : ExecutesVector s h) {sz rm rd rs1 rs2 : Nat} {r : RMode} (mode : (s.core h).rounding rm = some r)
    (f : RMode → FLayout → Nat → Nat → Nat → Nat × FFlags) :
    s.lvRound h sz rm rd rs1 rs2 false f = coreDone s h fun c => c.lvFloat sz rd rs1 rs2 (f r) := by
  have mode' : Core.rounding { s.core h with ilen := 4 } rm = some r := mode
  refine State.vecRun_effect e (by simp [mode']) ?_ (Core.raise_pc ..)
  simp only [mode', Option.getD_some]
  exact Core.lvFloat_ilen ..

theorem State.lvInt_done (e : ExecutesVector s h) {sz rm rd rs1 rs2 : Nat} (plain : rm = 0) (f : Nat → Nat → Nat → Nat)
    {g : Nat → Nat → Nat} (width : f (8 * lvBytes sz) = g) :
    s.lvInt h sz rm rd rs1 rs2 f = coreDone s h fun c => c.setQ rd (BitVec.ofNat 128
      (ofElems (lvBytes sz) ((List.range (16 / lvBytes sz)).map fun i =>
        g (elemAt ((s.core h).qr rs1).toNat (lvBytes sz) i) (elemAt ((s.core h).qr rs2).toNat (lvBytes sz) i)))) := by
  subst width
  exact State.vecRun_effect e (by simp [plain]) rfl rfl

/-- A vector load or store that is not illegal runs its body. -/
theorem State.vecMem_executes (e : ExecutesVector s h) (x : Executes s h 4 s') {illegal : Core → Bool} (legal : illegal (s'.core h) = false)
    (body : Core → State → State) : s.vecMem h illegal body = body (s'.core h) s' := by
  obtain ⟨_, _, on⟩ := e
  have on' : (s'.core h).vxs ≠ 0 := by
    obtain ⟨_, _, rfl⟩ := x
    simpa using on
  refine (State.coreRun_executes x _).trans (if_neg ?_)
  simpa [legal] using on'

/-- A first-fault load of elements that all answer ends with all of them. -/
theorem State.finishFirst_all {b rd reason : Nat} {el : Nat × Nat × Option Nat} {rest : List (Nat × Nat × Option Nat)}
    (answered : ((el :: rest).all fun (e : Nat × Nat × Option Nat) => e.2.2.isSome) = true) :
    s.finishFirst h b rd reason (el :: rest) = s.modCore h fun c =>
      ({ c.setQ rd (packElems b ((el :: rest).filterMap fun (e : Nat × Nat × Option Nat) => e.2.2)) with lvffc := ((el :: rest).filterMap fun (e : Nat × Nat × Option Nat) => e.2.2).length }).nextPc := by
  have first : el.2.2.isSome = true := List.all_eq_true.1 answered el List.mem_cons_self
  obtain ⟨x, first⟩ := Option.isSome_iff_exists.1 first
  simp only [State.finishFirst, List.takeWhile_eq_self_iff.2 (List.all_eq_true.1 answered), List.filterMap_cons, first]

end

end Sys2Proof.Machine

open Sys2Proof Sys2Proof.Machine

/-- Settles O45: the arithmetic is `vecRun` of an effect on the core, the memory accesses are `vecMem` of theirs. -/
theorem lvxAndVectorMemory : Obligations.LvxAndVectorMemory := by
  intro s s' h sz rm pg rd rs1 rs2 mf e x
  dsimp only
  have runs {i : Instr} {u w : State} (h : exec i s = .next u) (eq : u = w) : Runs i s w := h.trans (congrArg _ eq)
  have core : s'.core h = { s.core h with ilen := 4 } := by
    obtain ⟨_, _, rfl⟩ := x
    simp
  refine ⟨fun r mode => runs rfl (State.lvRound_done e mode _), fun r mode => runs rfl (State.lvRound_done e mode _),
    fun r mode => runs rfl (State.lvRound_done e mode _), fun r mode => runs rfl (State.lvRound_done e mode _),
    fun r mode => runs rfl (State.lvRound_done e mode _), fun r mode => runs rfl (State.lvRound_done e mode _), fun zero r mode => runs rfl ?_,
    fun zero => runs rfl ?_, fun zero => runs rfl ?_, fun r zero mode => runs rfl ?_, fun r fmt mode => runs rfl ?_,
    fun zero => runs rfl (State.lvInt_done e zero _ rfl), fun zero => runs rfl (State.lvInt_done e zero _ rfl),
    fun zero => runs rfl (State.lvInt_done e zero _ rfl), fun zero => runs rfl (State.lvInt_done e zero _ rfl),
    fun zero => runs rfl (State.lvInt_done e zero _ rfl),
    fun zero => ⟨runs rfl ?_, runs rfl ?_, fun zero2 => runs rfl ?_, fun aligned => ⟨runs rfl ?_, runs rfl ?_⟩,
      fun els v u aligned elems some_ all_ values => runs rfl ?_⟩,
    fun active aligned => ⟨runs rfl ?_, runs rfl ?_⟩, fun idle => ⟨runs rfl ?_, runs rfl ?_⟩⟩
  · simp only [zero, ne_eq, not_true, decide_false]
    exact State.lvRound_done e mode _
  · exact State.vecRun_effect e (by simp [zero]) (Core.lvFloat_ilen ..) (Core.raise_pc ..)
  · exact State.vecRun_effect e (by simp [zero]) (Core.lvFloat_ilen ..) (Core.raise_pc ..)
  · have mode' : Core.rounding { s.core h with ilen := 4 } rm = some r := mode
    refine State.vecRun_effect e (by simp [zero, mode']) ?_ (Core.raise_pc ..)
    simp only [mode', Option.getD_some]
    exact Core.raise_ilen ((s.core h).setQ rd _) 4 _
  · have mode' : Core.rounding { s.core h with ilen := 4 } rm = some r := mode
    refine State.vecRun_effect e (by simp [fmt, mode']) ?_ (Core.raise_pc ..)
    simp only [mode', Option.getD_some]
    exact Core.raise_ilen ((s.core h).setQ rd _) 4 _
  · exact State.vecRun_effect e (by simp [zero]) rfl rfl
  · exact State.vecRun_effect e (by simp [zero]) (Core.setX_ilen ..) (Core.setX_pc ..)
  · exact State.vecRun_effect e (by simp [zero, zero2]) rfl rfl
  · refine (State.vecMem_executes e x (by simp [zero]) _).trans ?_
    rw [core]
    exact if_neg (not_not.2 aligned)
  · refine (State.vecMem_executes e x (by simp [zero]) _).trans ?_
    rw [core]
    exact if_neg (not_not.2 aligned)
  · refine (State.vecMem_executes e x (by simp [zero]) _).trans ?_
    have sum : (s'.core h).sumAddr rs1 rs2 = (s.core h).sumAddr rs1 rs2 := by rw [core]; rfl
    obtain ⟨el, rest, rfl⟩ := List.exists_cons_of_ne_nil some_
    simp only [sum, aligned, elems, ne_eq, not_true, if_false]
    subst values
    exact (if_pos all_).trans (State.finishFirst_all all_)
  · refine (State.vecMem_executes e x rfl _).trans ?_
    rw [core]
    exact (if_neg active).trans (if_neg (not_not.2 aligned))
  · refine (State.vecMem_executes e x rfl _).trans ?_
    rw [core]
    exact (if_neg active).trans (if_neg (not_not.2 aligned))
  · refine (State.vecMem_executes e x rfl _).trans ?_
    rw [core]
    refine (if_pos idle).trans ?_
    obtain ⟨_, _, rfl⟩ := x
    exact State.modCore_modCore ..
  · refine (State.vecMem_executes e x rfl _).trans ?_
    rw [core]
    refine (if_pos idle).trans ?_
    obtain ⟨_, _, rfl⟩ := x
    exact State.modCore_modCore ..

end

section
/-! Reads of flag registers (R961, R653). -/

namespace Sys2Proof.Machine

open Sys2Proof Sys2Proof.Laws

section
variable {s u : State} {m : Master} {a o v : Nat} {b : Blk}

/-- A read of a block that answers, and whose mailbox, if it is one, is the reader's. -/
theorem State.readRow_block (runs : s.masterRuns m = true) (at_ : blockAt a = some (b, o)) (serves : s.blockRefuses b = false)
    (mine : ∀ mb, b = .mb mb → s.ownsMbox m mb = true) (read : s.readBlock m b o = (v, u)) :
    s.readRow m a = u.emit (.regRead a (BitVec.ofNat 32 v)) := by
  simp only [State.readRow, State.regRead, runs, at_, serves, read, Bool.not_true, Bool.false_eq_true, if_false]
  cases b
  case mb mb => simp only [mine mb rfl, Bool.not_true, Bool.false_eq_true, if_false]
  all_goals rfl

theorem State.readRow_flags (runs : s.masterRuns m = true) (at_ : blockAt a = some (b, o)) (serves : s.blockRefuses b = false)
    (mine : ∀ mb, b = .mb mb → s.ownsMbox m mb = true) (read : s.readBlock m b o = ((s.flagsOf b.line).toNat, s.setFlags b.line 0)) :
    s.readRow m a = (s.setFlags b.line 0).emit (.regRead a (s.flagsOf b.line)) := by
  rw [State.readRow_block runs at_ serves mine read, BitVec.ofNat_toNat, BitVec.setWidth_eq]

theorem ofNat_mod_32 (n : Nat) : BitVec.ofNat 32 (n % 2 ^ 32) = BitVec.ofNat 32 n := BitVec.eq_of_toNat_eq (by simp)

end

end Sys2Proof.Machine

open Sys2Proof Sys2Proof.Machine

/-- Settles O47: each address lies in its block, which answers, and there at the block's flag register. -/
theorem flagReads : Obligations.FlagReads := by
  intro s m master reads
  have runs {i : Instr} {u w : State} (h : exec i s = .next u) (eq : u = w) : Runs i s w := h.trans (congrArg _ eq)
  have flags {c : Instr} {a o : Nat} {b : Blk} (row : exec c s = .next (s.readRow m a)) (at_ : blockAt a = some (b, o))
      (serves : s.blockRefuses b = false) (mine : ∀ mb, b = .mb mb → s.ownsMbox m mb = true)
      (read : s.readBlock m b o = ((s.flagsOf b.line).toNat, s.setFlags b.line 0)) : reads c b.line a :=
    runs row (State.readRow_flags master at_ serves mine read)
  have single {c : Instr} (r o : Nat) (b : Blk) (row : exec c s = .next (s.readRow m (mmioBase + r + o))) (listed : (r, b) ∈ singleBlocks)
      (small : o < 0x1000) (serves : s.blockRefuses b = false) (mine : ∀ mb, b = .mb mb → s.ownsMbox m mb = true)
      (read : s.readBlock m b o = ((s.flagsOf b.line).toNat, s.setFlags b.line 0)) : reads c b.line (mmioBase + r + o) :=
    flags row (blockAt_single r o b listed small) serves mine read
  refine ⟨fun t up => ⟨fun a => ?_, ?_, ?_⟩, fun k => ?_, fun t => ?_, fun t up => ⟨?_, ?_, ?_⟩, fun k => ?_, fun mb mine => ?_,
    ?_, ?_, ?_, ?_, ?_, ?_, ?_, ?_, ?_, ?_, ?_, ?_⟩
  · exact flags rfl (blockAt_array t a 0xC t.isLt a.isLt (by decide)) (by simp [State.blockRefuses, up]) (fun _ => nofun) rfl
  · exact flags rfl (blockAt_ve t 0xC t.isLt (by decide)) (by simp [State.blockRefuses, up]) (fun _ => nofun) rfl
  · exact flags rfl (blockAt_sq t 0xC t.isLt (by decide)) (by simp [State.blockRefuses, up]) (fun _ => nofun) rfl
  · exact flags rfl (blockAt_hc k 0xC k.isLt (by decide)) rfl (fun _ => nofun) rfl
  · exact flags rfl (blockAt_wv t 4 t.isLt (by decide)) rfl (fun _ => nofun) rfl
  · exact flags rfl (blockAt_ct t 4 t.isLt (by decide)) up (fun _ => nofun) rfl
  · refine runs rfl ((State.readRow_block master (blockAt_ct t 8 t.isLt (by decide)) up (fun _ => nofun) rfl).trans ?_)
    exact congrArg (fun x => State.emit _ (.regRead _ x)) (ofNat_mod_32 _)
  · exact runs rfl (State.readRow_block master (blockAt_ct t 0xC t.isLt (by decide)) up (fun _ => nofun) rfl)
  · exact flags rfl (blockAt_op k 0xC k.isLt (by decide)) rfl (fun _ => nofun) rfl
  · exact flags rfl (blockAt_mb mb 8 mb.isLt (by decide)) rfl (fun _ same => by cases same; exact mine) rfl
  · exact flags rfl (blockAt_ac 0xC (by decide)) rfl (fun _ => nofun) rfl
  · exact single 0x4800000 8 .dm rfl (by decide) (by decide) rfl (fun _ => nofun) rfl
  · exact single 0x4900000 4 .xp rfl (by decide) (by decide) rfl (fun _ => nofun) rfl
  · exact single 0x5020000 8 .ls rfl (by decide) (by decide) rfl (fun _ => nofun) rfl
  · exact single 0x4840000 8 .pl rfl (by decide) (by decide) rfl (fun _ => nofun) rfl
  · exact single 0x4880000 4 .rk rfl (by decide) (by decide) rfl (fun _ => nofun) rfl
  · exact single 0x48C0000 4 .hk rfl (by decide) (by decide) rfl (fun _ => nofun) rfl
  · exact single 0x4940000 8 .st rfl (by decide) (by decide) rfl (fun _ => nofun) rfl
  · exact single 0x7000000 0x1C .id rfl (by decide) (by decide) rfl (fun _ => nofun) rfl
  · exact single 0x4980000 4 .fl rfl (by decide) (by decide) rfl (fun _ => nofun) rfl
  · exact single 0x5040000 8 .ck rfl (by decide) (by decide) rfl (fun _ => nofun) rfl
  · exact single 0x49C0000 8 .pw rfl (by decide) (by decide) rfl (fun _ => nofun) rfl

end

section
/-! Reads through INDEX and DATA, of 64-bit registers and of pending words (R966, R969, R987). -/

open Sys2Proof Sys2Proof.Machine

/-- Settles O48: each address lies in its block, which answers; DATA is read at the entry that INDEX names. -/
theorem dataReads : Obligations.DataReads := by
  intro s m master answers word
  have answer {c : Instr} {u : State} {a o v : Nat} {b : Blk} (row : exec c s = .next (s.readRow m a)) (at_ : blockAt a = some (b, o))
      (serves : s.blockRefuses b = false) (mine : ∀ mb, b = .mb mb → s.ownsMbox m mb = true) (read : s.readBlock m b o = (v, u)) : answers c u a v :=
    row.trans (congrArg _ (State.readRow_block master at_ serves mine read))
  have at_data {c : Instr} (b : Blk) (i : IndexReg) {base : Nat} {v : Nat → Nat} (row : exec c s = .next (s.readRow m (base + i.data)))
      (at_ : blockAt (base + i.data) = some (b, i.data)) (serves : s.blockRefuses b = false) (mine : ∀ mb, b = .mb mb → s.ownsMbox m mb = true)
      (block : s.readBlock m b i.data = ((s.readData b i.key (s.idx b i)).1, (s.readData b i.key (s.idx b i)).2.autoInc b i))
      (read : s.readData b i.key (s.idx b i) = (v (s.idx b i), s)) : word c b i base v := by
    rw [read] at block
    exact answer row at_ serves mine block
  have single {c : Instr} (r : Nat) (b : Blk) (i : IndexReg) {v : Nat → Nat} (row : exec c s = .next (s.readRow m (mmioBase + r + i.data)))
      (listed : (r, b) ∈ singleBlocks) (small : i.data < 0x1000) (serves : s.blockRefuses b = false) (mine : ∀ mb, b = .mb mb → s.ownsMbox m mb = true)
      (block : s.readBlock m b i.data = ((s.readData b i.key (s.idx b i)).1, (s.readData b i.key (s.idx b i)).2.autoInc b i))
      (read : s.readData b i.key (s.idx b i) = (v (s.idx b i), s)) : word c b i (mmioBase + r) v :=
    at_data b i row (blockAt_single r i.data b listed small) serves mine block read
  have low {c : Instr} {u : State} {a o v : Nat} {b : Blk} (row : exec c s = .next (s.readRow m a)) (at_ : blockAt a = some (b, o))
      (serves : s.blockRefuses b = false) (mine : ∀ mb, b = .mb mb → s.ownsMbox m mb = true) (read : s.readBlock m b o = (v % 2 ^ 32, u)) :
      answers c u a v := by
    have reads := answer row at_ serves mine read
    rwa [show answers c u a (v % 2 ^ 32) ↔ answers c u a v from by simp only [answers, ofNat_mod_32]] at reads
  refine ⟨fun t up => ⟨fun a inside => ?_, ⟨fun other => ?_, fun sixth => ?_⟩, ?_⟩, fun k => ⟨?_, ?_, ?_⟩, fun t => ⟨?_, fun w up => ?_⟩, fun k inside => ?_,
    ?_, ?_, ?_, ?_, fun inside => ?_, fun inside => ?_, ⟨fun low => ?_, fun high => ?_⟩, ?_, ?_, ?_, ?_, ?_, ?_, ?_, ?_, ?_⟩
  · exact at_data (.array t a) ⟨0x40, 0x50, 0, 10, false⟩ rfl (blockAt_array t a 0x50 t.isLt a.isLt (by decide))
      (by simp [State.blockRefuses, up]) (fun _ => nofun) rfl (if_neg (Nat.not_le.2 inside))
  · refine at_data (.sq t) ⟨0x18, 0x1C, 0, 18, true⟩ rfl (blockAt_sq t 0x1C t.isLt (by decide)) (by simp [State.blockRefuses, up]) (fun _ => nofun) rfl ?_
    exact congrArg (Prod.mk _) (if_neg other)
  · have read : s.readData (.sq t) 0 (s.idx (.sq t) ⟨0x18, 0x1C, 0, 18, true⟩) = (s.ringWord t (s.idx (.sq t) ⟨0x18, 0x1C, 0, 18, true⟩),
        s.modRing t (s.idx (.sq t) ⟨0x18, 0x1C, 0, 18, true⟩ / 32) fun x => { x with refusedTail := false }) := congrArg (Prod.mk _) (if_pos sixth)
    refine answer rfl (blockAt_sq t 0x1C t.isLt (by decide)) (by simp [State.blockRefuses, up]) (fun _ => nofun) ?_
    exact congrArg (fun r => (r.1, r.2.autoInc (.sq t) ⟨0x18, 0x1C, 0, 18, true⟩)) read
  · exact at_data (.sq t) ⟨0x20, 0x24, 1, 11, true⟩ rfl (blockAt_sq t 0x24 t.isLt (by decide)) (by simp [State.blockRefuses, up]) (fun _ => nofun) rfl rfl
  · exact at_data (.hc k) ⟨0x28, 0x2C, 0, 8, true⟩ rfl (blockAt_hc k 0x2C k.isLt (by decide)) rfl (fun _ => nofun) rfl rfl
  · exact at_data (.hc k) ⟨0x40, 0x44, 1, 12, false⟩ rfl (blockAt_hc k 0x44 k.isLt (by decide)) rfl (fun _ => nofun) rfl rfl
  · exact low rfl (blockAt_hc k 0x1C k.isLt (by decide)) rfl (fun _ => nofun) rfl
  · exact at_data (.wv t) ⟨8, 0xC, 0, 13, true⟩ rfl (blockAt_wv t 0xC t.isLt (by decide)) rfl (fun _ => nofun) rfl rfl
  · refine answer rfl (blockAt_rp t (4 * w) t.isLt (by omega)) up (fun _ => nofun) ?_
    have entry : 4 * w.val / 4 = w := by omega
    refine (show s.readBlock m (.rp t) (4 * w) = s.pendRead m t (4 * w.val / 4) from rfl).trans ?_
    rw [entry]
    rfl
  · exact at_data (.op k) ⟨0x28, 0x2C, 0, 9, true⟩ rfl (blockAt_op k 0x2C k.isLt (by decide)) rfl (fun _ => nofun) rfl (if_neg (Nat.not_le.2 inside))
  · exact at_data .ac ⟨0x10, 0x14, 0, 13, false⟩ (v := fun e => (Tbl.get 0 s.cores.coh e).toNat) rfl (blockAt_ac 0x14 (by decide)) rfl (fun _ => nofun) rfl rfl
  · exact at_data .ac ⟨0x18, 0x1C, 1, 6, false⟩ rfl (blockAt_ac 0x1C (by decide)) rfl (fun _ => nofun) rfl rfl
  · exact single 0x4800000 .dm ⟨0x18, 0x1C, 0, 10, true⟩ rfl (by decide) (by decide) rfl (fun _ => nofun) rfl rfl
  · exact single 0x4900000 .xp ⟨0x10, 0x14, 0, 20, true⟩ rfl (by decide) (by decide) rfl (fun _ => nofun) rfl rfl
  · exact single 0x5020000 .ls ⟨0x10, 0x14, 0, 9, true⟩ rfl (by decide) (by decide) rfl (fun _ => nofun) rfl (if_neg inside)
  · exact single 0x4840000 .pl ⟨0xC, 0x10, 0, 9, false⟩ rfl (by decide) (by decide) rfl (fun _ => nofun) rfl (if_neg (Nat.not_le.2 inside))
  · have read : s.readData .rk 0 (s.idx .rk ⟨8, 0xC, 0, 6, true⟩) = _ := if_pos low
    exact answer rfl (blockAt_single 0x4880000 0xC .rk (by decide) (by decide)) rfl (fun _ => nofun)
      (congrArg (fun r => (r.1, r.2.autoInc .rk ⟨8, 0xC, 0, 6, true⟩)) read)
  · have read : s.readData .rk 0 (s.idx .rk ⟨8, 0xC, 0, 6, true⟩) = _ := if_neg high
    exact answer rfl (blockAt_single 0x4880000 0xC .rk (by decide) (by decide)) rfl (fun _ => nofun)
      (congrArg (fun r => (r.1, r.2.autoInc .rk ⟨8, 0xC, 0, 6, true⟩)) read)
  · exact single 0x48C0000 .hk ⟨8, 0xC, 0, 8, true⟩ rfl (by decide) (by decide) rfl (fun _ => nofun) rfl rfl
  · exact single 0x4940000 .st ⟨0xC, 0x10, 0, 5, true⟩ rfl (by decide) (by decide) rfl (fun _ => nofun) rfl rfl
  · exact single 0x4980000 .fl ⟨0x18, 0x1C, 0, 6, true⟩ rfl (by decide) (by decide) rfl (fun _ => nofun) rfl rfl
  · exact single 0x5040000 .ck ⟨0xC, 0x10, 0, 6, true⟩ rfl (by decide) (by decide) rfl (fun _ => nofun) rfl rfl
  · exact single 0x49C0000 .pw ⟨0xC, 0x10, 0, 6, true⟩ rfl (by decide) (by decide) rfl (fun _ => nofun) rfl rfl
  · exact at_data .ic ⟨0, 4, 0, 11, true⟩ rfl (blockAt_ic 4 (by decide)) rfl (fun _ => nofun) rfl rfl
  · exact low rfl (blockAt_ac 0x3000 (by decide)) rfl (fun _ => nofun) rfl
  · exact low rfl (blockAt_single 0x7000000 0x10 .id (by decide) (by decide)) rfl (fun _ => nofun) rfl
  · exact low rfl (blockAt_single 0x4980000 0x10 .fl (by decide) (by decide)) rfl (fun _ => nofun) rfl

end

section
/-! Commands are performed in their turn, and denied where they may not be issued (R929 to R938). -/

namespace Sys2Proof.Machine

open Sys2Proof Sys2Proof.Laws

section
variable {s : State} {k : CmdSpec} {m : Nat}

theorem State.serve_elsewhere (body : Cmd → State → Reply) (other : s.nextMbox ≠ some m ∨ (s.mbox m).opcode ≠ k.op) : s.serve k m body = s := by
  refine if_neg ?_
  simpa [imp_iff_not_or] using other

theorem State.serve_denied (body : Cmd → State → Reply) (turn : s.nextMbox = some m) (op : (s.mbox m).opcode = k.op)
    (denied : k.allowed (k.read m (s.mbox m).header (s.mbox m).payload) = false) : s.serve k m body = answered (s.takeMbox m) m S_DENIED 0 [] := by
  simp only [State.serve, turn, op, beq_self_eq_true, Bool.and_self, if_true, State.judge, denied, Bool.not_false]
  rfl

end

end Sys2Proof.Machine

open Sys2Proof Sys2Proof.Machine

/-- Settles O51: every row of the table is `serve` of its command. -/
theorem mailboxTurns : Obligations.MailboxTurns := by
  intro s m peer o rows
  have serves : ∀ r ∈ rows, ∃ body, exec r.1 s = .next (s.serve r.2 m body) := by
    simp only [rows, List.forall_mem_append, List.forall_mem_cons, List.not_mem_nil, IsEmpty.forall_iff, implies_true, and_true]
    and_intros <;> exact ⟨_, rfl⟩
  intro i k row
  obtain ⟨body, row⟩ := serves (i, k) row
  exact ⟨fun other => row.trans (congrArg _ (State.serve_elsewhere body other)),
    fun turn op denied => row.trans (congrArg _ (State.serve_denied body turn op denied))⟩

end

section
/-! The Cricket segment (R1033 to R1056). -/

namespace Sys2Proof.Machine

open Sys2Proof Sys2Proof.Laws

/-- What a beacon counts and notes when no offset is outstanding (R1037, R1053). -/
def State.beaconGot (s : State) (frame : Nat) (diff : Int) : State :=
  (s.ckCount 0 1).modCk fun c => { c with frame := frame, missed := 0, offset := none, lastErr := diff }

/-- What a beacon does to the state `u` in which it has been counted and the burst it echoes settled; `c` is the port before it. -/
def State.beaconActs (u : State) (c : Cricket) (time : Nat) (diff : Int) : State :=
  if c.st = 0 then
    let s := u.modCk fun c => { c with seen := c.seen + 1 }
    if 2 ≤ s.cricket.seen then (s.modCk fun c => { c with seen := 0 }).setCkSt 1 else s
  else if c.st = 3 then
    let agree := if diff.natAbs ≤ 50 then c.agree + 1 else 0
    let s := u.modCk fun c => { c with agree := agree }
    if 2 ≤ agree then s.setCkSt c.workSt else s
  else if 250 < diff.natAbs then u.ckMute
  else
    let s := if c.assigned then (u.modCk fun c => { c with assigned := false }).setCkSt 2 else u
    if s.cricket.st = 2 then s.rackTime time else s

theorem State.setCkSt_st (s : State) (st : Nat) : (s.setCkSt st).cricket.st = st := by
  unfold State.setCkSt
  split
  · assumption
  · rfl

theorem State.ckRetry_st (s : State) : s.ckRetry.cricket.st = s.cricket.st := by
  unfold State.ckRetry
  split <;> rfl

theorem State.ckRetry_missed (s : State) : s.ckRetry.cricket.missed = s.cricket.missed := by
  unfold State.ckRetry
  split <;> rfl

section
variable {s u : State} {frame time echo : Nat} {diff : Int}

theorem execBeacon_eq (out : s.cricket.st ≠ 4) (offset : s.cricket.offset = none) (small : frame < 2 ^ 64) :
    execBeacon frame time echo diff s = .next (State.beaconActs
      (if s.cricket.inFlight.isSome && bitN echo s.cricket.sentSlot then (s.beaconGot frame diff).modCk fun c => { c with inFlight := none }
        else (s.beaconGot frame diff).ckRetry) s.cricket time diff) := by
  simp only [execBeacon, out, if_false, offset, Option.getD_none, Int.natAbs_zero, ge_iff_le, Nat.zero_le, if_true, Nat.mod_eq_of_lt small]
  rfl

theorem execBeacon_quiet (out : s.cricket.st ≠ 4) (offset : s.cricket.offset = none) (small : frame < 2 ^ 64) (quiet : s.cricket.inFlight = none) :
    execBeacon frame time echo diff s = .next (State.beaconActs (s.beaconGot frame diff) s.cricket time diff) := by
  have kept : (s.beaconGot frame diff).cricket.inFlight = none := quiet
  rw [execBeacon_eq out offset small]
  simp [quiet, State.ckRetry, kept]

end

end Sys2Proof.Machine

open Sys2Proof Sys2Proof.Machine

/-- Settles O50: each event of the segment, by the state of the port and of the burst in flight. -/
theorem cricketSegment : Obligations.CricketSegment := by
  intro s
  dsimp only
  have runs {i : Instr} {u w : State} (h : exec i s = .next u) (eq : u = w) : Runs i s w := h.trans (congrArg _ eq)
  refine ⟨fun frame time echo diff small offset => ⟨fun quiet search => ⟨fun first => ?_, fun second => ?_⟩, fun quiet muted agree close => ?_,
      fun quiet working far => ?_, fun quiet joining assigned near => ?_, fun member old near flight => ⟨fun echoed => ?_, fun lost => ?_⟩⟩,
    ⟨fun out few => ?_, fun working many => ?_⟩, fun m member working talks => ?_, fun joining old unsent due talks => ?_,
    fun joining sent => ?_, fun m d a joining d32 a32 => ?_,
    fun member => ⟨fun p site => ?_, fun seq data short idle free => ?_, fun seq data short idle => ?_, ?_, fun data some_ => ?_, fun ns offset => ?_⟩,
    fun st => ?_, fun st => ?_, fun q => ?_, ?_, fun in_ => ⟨?_, ?_, fun ok => ?_, ?_⟩, fun fibre => ?_, fun fibre out same => ?_⟩
  · refine (execBeacon_quiet (by simp [search]) offset small quiet).trans (congrArg _ ((if_pos search).trans ((if_neg ?_).trans ?_)))
    · show ¬2 ≤ s.cricket.seen + 1
      omega
    · have seen : (s.beaconGot frame diff).cricket.seen = 0 := first
      simp only [State.modCk, seen]
      rfl
  · refine (execBeacon_quiet (by simp [search]) offset small quiet).trans (congrArg _ ((if_pos search).trans ((if_pos ?_).trans ?_)))
    · show 2 ≤ s.cricket.seen + 1
      omega
    · rfl
  · refine (execBeacon_quiet (by simp [muted]) offset small quiet).trans (congrArg _ ((if_neg (by simp [muted])).trans ((if_pos muted).trans ?_)))
    simp only [close, agree, if_true]
    rfl
  · exact (execBeacon_quiet (by omega) offset small quiet).trans
      (congrArg _ ((if_neg (by omega)).trans ((if_neg (by omega)).trans (if_pos far))))
  · refine (execBeacon_quiet (by simp [joining]) offset small quiet).trans
      (congrArg _ ((if_neg (by simp [joining])).trans ((if_neg (by simp [joining])).trans ((if_neg (Nat.not_lt.2 near)).trans ?_))))
    simp only [assigned, if_true, State.setCkSt_st]
    rfl
  · have kept : ((s.beaconGot frame diff).modCk fun c => { c with inFlight := none }).cricket.st = 2 := member
    refine (execBeacon_eq (by simp [member]) offset small).trans (congrArg _ ?_)
    simp only [Option.isSome_iff_ne_none.2 flight, echoed, Bool.and_self, if_true, State.beaconActs, member, old, near, Nat.not_lt.2, if_false, kept,
      Bool.false_eq_true, reduceCtorEq, Nat.reduceEqDiff]
    rfl
  · have kept : (s.beaconGot frame diff).ckRetry.cricket.st = 2 := (State.ckRetry_st _).trans member
    refine (execBeacon_eq (by simp [member]) offset small).trans (congrArg _ ?_)
    simp only [lost, Bool.and_false, State.beaconActs, member, old, near, Nat.not_lt.2, if_true, if_false, kept, Bool.false_eq_true, Nat.reduceEqDiff]
    rfl
  · refine runs rfl ((if_neg out).trans (if_neg fun h => ?_))
    have missed := h.1
    rw [State.ckRetry_missed] at missed
    exact absurd (show 4 ≤ s.cricket.missed + 1 from missed) (by omega)
  · refine runs rfl ((if_neg (by omega)).trans (if_pos ?_))
    rw [State.ckRetry_missed, State.ckRetry_st]
    exact ⟨show 4 ≤ s.cricket.missed + 1 by omega, working⟩
  · refine runs rfl ?_
    simp only [member]
    exact if_neg (by simp [working, talks])
  · refine runs rfl (if_pos ?_)
    cases frame : s.cricket.joinFrame with
    | none => simp [joining, old, unsent, talks]
    | some f => simp [joining, old, unsent, talks, due f frame]
  · refine ⟨_, Nat.mod_lt (Config.randomDraw s.freeCtr) (by decide), runs rfl (if_pos ⟨joining, Option.isSome_iff_ne_none.2 sent⟩)⟩
  · refine runs rfl ((if_pos ⟨joining, rfl⟩).trans ?_)
    rw [Nat.mod_eq_of_lt d32, Nat.mod_eq_of_lt a32]
  · exact runs rfl (if_pos (Option.isSome_iff_ne_none.2 member))
  · refine runs rfl ((if_neg (by simp [member, Nat.not_lt.2 short])).trans ?_)
    simp only [idle, Fin.val_zero, Fin.val_one, beq_self_eq_true, if_true, Bool.not_true, Bool.false_and, Bool.false_eq_true, if_false, Nat.zero_add,
      List.nil_append]
    exact if_neg free
  · refine runs rfl ((if_neg (by simp [member, Nat.not_lt.2 short])).trans ?_)
    simp only [idle, Fin.val_zero, Fin.val_two, beq_self_eq_true, if_true, Bool.not_true, Bool.false_and, Bool.false_eq_true, if_false, Nat.zero_add,
      OfNat.one_ne_ofNat, List.nil_append]
  · exact runs rfl ((if_neg (by simp [member])).trans (if_pos rfl))
  · exact runs rfl ((if_neg (by simp [member])).trans (if_neg some_))
  · refine runs rfl ((if_neg (by simp [member])).trans ?_)
    simp only [State.modCk, offset]
  · exact runs rfl (if_pos st)
  · exact runs rfl (if_pos st)
  · rfl
  · rfl
  · exact runs rfl (if_neg in_)
  · exact runs rfl (if_neg in_)
  · exact runs rfl (if_neg in_)
  · exact runs rfl (if_neg in_)
  · refine runs rfl ?_
    simp only [fibre, if_true]
  · refine runs rfl ?_
    simp only [fibre, if_false, Bool.false_eq_true]
    exact if_pos same

end

section
/-! What the body of a command replies, and the general commands and those of partitions (R929 to R938). -/

namespace Sys2Proof.Machine

open Sys2Proof Sys2Proof.Laws

section
variable {c : Cmd} {r : Reply} {conds : List (Bool × Nat)}

/-- A command none of whose own conditions is met by a fault goes on. -/
theorem Cmd.check_passes (clean : ∀ x ∈ conds, x.1 = false) : c.check conds r = r := by
  have none_ : conds.filter (fun x => x.1) = [] := List.filter_eq_nil_iff.2 fun x mem => by simp [clean x mem]
  simp only [Cmd.check, none_, List.map_nil, leastOf]

@[simp] theorem Reply.unlessBusy_false (r : Reply) : Reply.unlessBusy false r = r := rfl

@[simp] theorem Reply.unlessBusy_true (r : Reply) : Reply.unlessBusy true r = .busy := rfl

end

section
variable {s t u : State} {k : CmdSpec} {m : Nat} {c : Cmd} {i : Instr} {body : Cmd → State → Reply}

theorem Serves.mbox_eq (h : Serves s k m c t) : c.m = m := by
  obtain ⟨_, _, _, rfl, _⟩ := h
  rfl

theorem Runs.of_done {p : List Byte} (h : Serves s k m c t) (row : exec i s = .next (s.serve k m body)) (reply : body c t = .done u p) :
    Runs i s (answered u m 0 0 p) := row.trans (congrArg _ (State.serve_done h reply))

theorem Runs.of_refuse {st d : Nat} (h : Serves s k m c t) (row : exec i s = .next (s.serve k m body)) (reply : body c t = .refuse st d)
    (allowed : st = S_DENIED → d = 0 := by decide) : Runs i s (answered t m st d []) := row.trans (congrArg _ (State.serve_refuse h reply allowed))

theorem Runs.of_own (h : Serves s k m c t) (row : exec i s = .next (s.serve k m body)) (reply : body c t = .own u) :
    Runs i s u.drainBad := row.trans (congrArg _ (State.serve_own h reply))

end

theorem State.otherPart_false {t : State} {p : Nat} {f : Part → Bool}
    (apart : ∀ q < 8, q ≠ p → (t.part q).st ≠ .unset → f (t.part q) = false) : t.otherPart p f = false := by
  refine List.any_eq_false.2 fun q mem => ?_
  have small := List.mem_range.1 mem
  by_cases own : q = p
  · simp [own]
  by_cases unset : (t.part q).st = .unset
  · simp [unset]
  simp [apart q small own unset]

theorem maskMeets_false {n a b : Nat} (apart : ∀ i < n, bitN b i = true → bitN a i = false) : maskMeets n a b = false := by
  refine List.any_eq_false.2 fun i mem => ?_
  cases taken : bitN b i with
  | false => simp
  | true => simp [apart i (List.mem_range.1 mem) taken]

end Sys2Proof.Machine

open Sys2Proof Sys2Proof.Machine

/-- Settles O52: the reply of each body, carried by `serve`. -/
theorem generalAndPartitionCommands : Obligations.GeneralAndPartitionCommands := by
  intro s m c t
  dsimp only
  refine ⟨fun h => Runs.of_done h rfl rfl, fun h => ⟨fun done => ?_, fun early at_ => ?_, fun early away => ?_⟩, fun h => ?_,
    fun h alive => ⟨fun held up => ?_, fun runs => ?_⟩, fun h => ⟨fun ready => ?_, fun early => ?_⟩, fun h => ⟨fun idle => ?_, fun q small runs => ?_⟩,
    fun h inside => ?_, fun h arrays cores counters inside apart => ?_, fun h => ⟨fun stopped free => ?_, fun other => ?_⟩,
    fun h => ⟨fun runs => ?_, fun other => ?_⟩, fun h => ⟨fun set_ => ?_, fun unset => ?_⟩, fun h most not1 not2 alg conv => ⟨fun idle => ?_, fun runs => ?_⟩,
    fun h => Runs.of_done h rfl rfl⟩
  · exact Runs.of_done h rfl (if_pos done)
  · exact Runs.of_done h rfl ((if_neg (Nat.not_le.2 early)).trans (if_pos at_))
  · exact Runs.of_refuse h rfl ((if_neg (Nat.not_le.2 early)).trans (if_neg (by simp [away])))
  · exact Runs.of_own h rfl (by rw [State.runRestart, Serves.mbox_eq h])
  · exact Runs.of_done h rfl ((Cmd.check_passes (by simp [held])).trans (if_neg (by simp [held, up])))
  · exact Runs.of_refuse h rfl ((Cmd.check_passes (by simp [runs])).trans (if_pos (by simp [runs])))
  · exact Runs.of_done h rfl (if_neg (by simpa using ready))
  · exact Runs.of_refuse h rfl (if_pos (by simpa using early))
  · exact Runs.of_done h rfl (if_neg (by simpa [State.anyRunning] using idle))
  · exact Runs.of_refuse h rfl (if_pos (by simpa [State.anyRunning] using ⟨q, small, runs⟩))
  · exact Runs.of_done h rfl (Cmd.check_passes (by simp [inside]))
  · have arraysFree : ((List.range 16).any (fun i => bitN (c.f 1) i && (t.arr (i / 4) (i % 4)).retired) ||
        t.otherPart (c.f 0) (fun q => maskMeets 16 q.arrays (c.f 1))) = false := by
      refine Bool.or_eq_false_iff.2 ⟨List.any_eq_false.2 fun i mem => ?_,
        State.otherPart_false fun q small other set_ => maskMeets_false fun i inside taken => (arrays i inside taken).2 q small other set_⟩
      simp only [Bool.and_eq_true, not_and]
      intro taken
      simp [(arrays i (List.mem_range.1 mem) taken).1]
    have coresFree : ((List.range 64).any (fun h => bitN (c.f 3) h && (t.core h).st == 2) ||
        t.otherPart (c.f 0) (fun q => maskMeets 64 q.cores (c.f 3))) = false := by
      refine Bool.or_eq_false_iff.2 ⟨List.any_eq_false.2 fun i mem => ?_,
        State.otherPart_false fun q small other set_ => maskMeets_false fun i inside taken => (cores i inside taken).2 q small other set_⟩
      simp only [Bool.and_eq_true, not_and]
      intro taken
      simp [(cores i (List.mem_range.1 mem) taken).1]
    have lowFree : t.otherPart (c.f 0) (fun q => maskMeets 64 q.cnt (c.f 4)) = false :=
      State.otherPart_false fun q small other set_ => maskMeets_false fun i inside taken => (counters i inside).1 taken q small other set_
    have highFree : t.otherPart (c.f 0) (fun q => maskMeets 64 (q.cnt / 2 ^ 64) (c.f 5)) = false :=
      State.otherPart_false fun q small other set_ => maskMeets_false fun i inside taken => (counters i inside).2 taken q small other set_
    have memoryFree : (!(t.userHbmOk (c.f 6) (c.f 7)) || t.otherPart (c.f 0) (fun q => overlaps (c.f 6) (c.f 7) q.hbmBase q.hbmLen)) = false := by
      rw [inside, State.otherPart_false apart]
      rfl
    refine ⟨fun idle => Runs.of_done h rfl ((Cmd.check_passes ?_).trans ((if_neg ?_).trans ?_)),
      fun runs => Runs.of_refuse h rfl ((Cmd.check_passes ?_).trans (if_pos (by simpa using runs)))⟩
    case refine_1 => simp [-Nat.reducePow, arraysFree, coresFree, lowFree, highFree, memoryFree]
    case refine_2 => rcases idle with idle | idle <;> simp [idle]
    case refine_3 => rcases idle with idle | idle <;> simp only [idle] <;> rfl
    case refine_4 => simp [-Nat.reducePow, arraysFree, coresFree, lowFree, highFree, memoryFree]
  · exact Runs.of_done h rfl (if_neg (by simp [stopped, free]))
  · exact Runs.of_refuse h rfl (if_pos (by simpa using other))
  · exact Runs.of_own h rfl ((if_neg (by simp [runs])).trans (by rw [Serves.mbox_eq h]))
  · exact Runs.of_refuse h rfl (if_pos (by simpa using other))
  · exact Runs.of_own h rfl ((if_neg (by simpa using set_)).trans (by rw [Serves.mbox_eq h]))
  · exact Runs.of_refuse h rfl (if_pos (by simp [unset]))
  · exact Runs.of_done h rfl ((Cmd.check_passes (by simp [alg, conv, not1, not2]; omega)).trans (if_neg (by simp [idle])))
  · exact Runs.of_refuse h rfl ((Cmd.check_passes (by simp [alg, conv, not1, not2]; omega)).trans (if_pos (by simp [runs])))

end

section
/-! The commands of ports, modules, tables, exports, replicas, windows and connections. -/

namespace Sys2Proof.Machine

open Sys2Proof Sys2Proof.Laws

section
variable {s t u : State} {k : CmdSpec} {m : Nat} {c : Cmd} {i : Instr} {body : Cmd → State → Reply}

/-- An activity that nothing blocks is performed at once (R943). -/
theorem State.maintain_unblocked {act : Activity} {res : List Res} (free : Unblocked t act res) (perform : State → Reply) :
    t.maintain c act res perform = perform t := if_neg (by rw [show t.actBlocked act res t.sunas.nextTicket = false from free]; decide)

theorem Runs.of_wait {w : CmdWait} (h : Serves s k m c t) (row : exec i s = .next (s.serve k m body)) (reply : body c t = .wait u w) :
    Runs i s (u.modMbox m fun b => { b with wait := w }).drainBad := row.trans (congrArg _ (State.serve_wait h reply))

/-- A resource that is its owner's own where it is in use is not denied. -/
theorem not_denied {used foreign : Bool} (own : used = true → foreign = false) : ¬(used && foreign) = true := by
  cases used
  · simp
  · simp [own rfl]

end

end Sys2Proof.Machine

open Sys2Proof Sys2Proof.Machine

/-- Settles O53: the reply of each body, carried by `serve`. -/
theorem fabricCommands : Obligations.FabricCommands := by
  intro s m c t
  dsimp only
  refine ⟨fun h roles => ⟨fun stopped free => ?_, fun runs => ?_⟩, fun h => Runs.of_done h rfl rfl, fun h on free => ?_, fun h late free => ?_,
    fun peer h => ⟨fun kind small other z6 z7 => ?_, fun kind z3 z4 z5 z6 z7 => ?_, fun kind small z3 z4 z5 => ?_⟩,
    fun h => ⟨fun on few inside apart owns => ?_, fun off => ?_⟩, fun h small inside => ?_, fun h => Runs.of_done h rfl rfl,
    fun h own => ⟨fun on inside owns => ?_, fun off valid none_ => ?_, fun off valid some_ => ?_⟩, fun h reach => ⟨fun small => ?_, fun full => ?_⟩,
    fun h own => ⟨fun free => ?_, fun failed => ?_, fun open_ => ?_⟩, fun h used own round => ?_⟩
  · exact Runs.of_done h rfl ((Cmd.check_passes (by simp [roles])).trans ((if_neg (by simp [stopped])).trans (State.maintain_unblocked free _)))
  · exact Runs.of_refuse h rfl ((Cmd.check_passes (by simp [roles])).trans (if_pos (by simp [runs])))
  · refine Runs.of_own h rfl ((if_neg ?_).trans ((State.maintain_unblocked free _).trans ?_))
    · simpa using on
    · rw [Serves.mbox_eq h]
  · exact Runs.of_done h rfl ((if_neg (Nat.not_lt.2 late)).trans (State.maintain_unblocked free _))
  · refine Runs.of_done h rfl ((Cmd.check_passes ?_).trans ?_)
    · have foreign : t.places.valid = true → hallOf t.places.place ≠ c.f 1 := not_and.1 other
      simpa [kind, small, z6, z7] using ⟨fun valid here => (foreign valid here).elim, fun valid here => (foreign valid here).elim⟩
    · simp only [kind, if_true]
      rfl
  · refine Runs.of_done h rfl ((Cmd.check_passes ?_).trans ?_)
    · simp [kind, z3, z4, z5, z6, z7]
    · simp only [kind, if_true]
      rfl
  · refine Runs.of_done h rfl ((Cmd.check_passes ?_).trans ?_)
    · simp [kind, z3, z4, z5, small]
    · simp only [kind]
      rfl
  · refine Runs.of_done h rfl ((Cmd.check_passes ?_).trans ?_)
    · have none_ : (((t.net.exports.filter fun e => e.1 != c.f 0 && e.2.valid && e.2.job == c.f 3).map (·.2)).any
          fun e => overlaps e.base e.len (c.f 5) (c.f 6)) = false := List.any_eq_false.2 fun y mem => by simp [apart y mem]
      simp only [on, inside, owns, none_, Nat.not_le.2 few, List.forall_mem_cons, decide_false, Bool.not_true, Bool.or_self, Bool.and_false, true_and,
        List.not_mem_nil, IsEmpty.forall_iff, implies_true]
    · rw [on]; rfl
  · refine Runs.of_done h rfl ((Cmd.check_passes ?_).trans rfl)
    simp [off]
  · refine Runs.of_done h rfl ((Cmd.check_passes ?_).trans rfl)
    simpa [inside] using fun _ => small
  · refine Runs.of_done h rfl ((if_neg (not_denied own)).trans ((Cmd.check_passes ?_).trans ((if_pos ?_).trans ?_)))
    · simp [inside, owns]
    · simp [on]
    · simp only [on]
  · refine Runs.of_own h rfl ((if_neg (not_denied own)).trans ((Cmd.check_passes ?_).trans ((if_neg ?_).trans ((if_pos none_).trans ?_))))
    · simp [off]
    · simp [off, valid]
    · rw [Serves.mbox_eq h]
  · refine Runs.of_wait h rfl ((if_neg (not_denied own)).trans ((Cmd.check_passes ?_).trans ((if_neg ?_).trans (if_neg some_))))
    · simp [off]
    · simp [off, valid]
  · exact Runs.of_done h rfl ((Cmd.check_passes (by simp [reach])).trans (if_neg (Nat.not_le.2 small)))
  · exact Runs.of_refuse h rfl ((Cmd.check_passes (by simp [reach])).trans (if_pos full))
  · exact Runs.of_refuse h rfl ((if_neg (by simp [free])).trans (if_pos free))
  · exact Runs.of_done h rfl ((if_neg (by simp [failed, own])).trans ((if_neg (by simp [failed])).trans (if_pos failed)))
  · refine Runs.of_own h rfl ((if_neg (by simp [open_, own])).trans ((if_neg (by simp [open_])).trans ((if_neg (by simp [open_])).trans ?_)))
    rw [Serves.mbox_eq h]
  · exact Runs.of_done h rfl ((if_neg (by simp [own])).trans ((Cmd.check_passes (by simp; omega)).trans (if_neg used)))

end

section
/-! The commands of memory, views, Husk, rings and groups. -/

namespace Sys2Proof.Machine

open Sys2Proof Sys2Proof.Laws

theorem checkAt_passes {conds : List (Bool × Nat)} {r : Reply} (clean : ∀ x ∈ conds, x.1 = false) : checkAt conds r = r := by
  have none_ : conds.filter (fun x => x.1) = [] := List.filter_eq_nil_iff.2 fun x mem => by simp [clean x mem]
  simp only [checkAt, none_, List.map_nil, leastOf]

end Sys2Proof.Machine

open Sys2Proof Sys2Proof.Machine

/-- Settles O54: the reply of each body, carried by `serve`. -/
theorem memoryAndViewCommands : Obligations.MemoryAndViewCommands := by
  intro s m c t
  dsimp only
  refine ⟨fun h => ⟨fun early => ?_, fun late stopped => ?_, fun late runs => ?_⟩, fun h order sums => ?_,
    fun h => ⟨fun stopped => ?_, fun other => ?_⟩, fun h => Runs.of_done h rfl rfl, fun h => Runs.of_done h rfl rfl,
    fun h => ⟨fun k r pending => ?_, fun none_ => ?_⟩, fun h => Runs.of_done h rfl rfl, fun h own ownNew clean => ?_, fun h own => ?_,
    fun h shards conn trig done inside thick regions => ?_, fun h => ⟨fun can => ?_, fun cannot => ?_⟩,
    fun h => ⟨fun early => ?_, fun not2 not3 => ?_⟩, fun h => ⟨fun drained => ?_, fun other => ?_⟩, fun h committed stopped free => ?_,
    fun h conn inside can free => ?_, fun h own idle owns => ⟨fun on slots records => ?_, fun off => ?_⟩,
    fun h new rank inside members inPart buf owns cnt window => ?_,
    fun h => ⟨fun none_ => ?_, fun k g found own idle => ?_⟩⟩
  · exact Runs.of_done h rfl (if_pos early)
  · exact Runs.of_done h rfl ((if_neg (Nat.not_lt.2 late)).trans (if_neg (by simp [stopped])))
  · exact Runs.of_refuse h rfl ((if_neg (Nat.not_lt.2 late)).trans (if_pos (by simp [runs])))
  · have bounded : ((List.range 8).any fun k => bitN (c.f 0) k && decide (256 < (t.stack k).guarSum (c.f 1) (c.f 2))) = false := by
      refine List.any_eq_false.2 fun k mem => ?_
      simpa using sums k (List.mem_range.1 mem)
    exact Runs.of_done h rfl (Cmd.check_passes (by simp [bounded, order]))
  · exact Runs.of_done h rfl (if_neg (by simp [stopped]))
  · exact Runs.of_refuse h rfl (if_pos (by simpa using other))
  · exact Runs.of_done h rfl (by simp only [State.runRowAck, pending]; rfl)
  · exact Runs.of_refuse h rfl (by simp only [State.runRowAck, none_]; rfl)
  · exact Runs.of_done h rfl ((if_neg (by simp [own, ownNew])).trans (checkAt_passes clean))
  · exact Runs.of_done h rfl (if_neg (by simp [own]))
  · have clean : ∀ x ∈ [(decide (32768 < c.huskCfg.shardCount), c.pos.getD 2 0), ((t.connTo (c.f 0) c.huskCfg.destPlace).isNone, c.pos.getD 7 0),
        (!(t.ownsCtr (c.f 0) c.huskCfg.trigCtr), c.pos.getD 8 0), (!(t.ownsCtr (c.f 0) c.huskCfg.doneCtr), c.pos.getD 9 0),
        (!(t.inPartition (c.f 0) c.huskCfg.resBase c.huskCfg.resLen), c.pos.getD 10 0), (t.reserveThin c.huskCfg, c.pos.getD 11 0)] ++
        (List.range (c.f 4)).map fun i => (t.regionBad (c.f 0) c.huskCfg i, 72 + 16 * i), x.1 = false := by
      refine List.forall_mem_append.2 ⟨by simp [shards, Option.isSome_iff_ne_none.2 conn, trig, done, inside, thick], ?_⟩
      rw [List.forall_mem_map]
      exact fun i mem => regions i (List.mem_range.1 mem)
    exact ⟨fun idle => Runs.of_done h rfl ((checkAt_passes clean).trans (if_neg (by simpa using idle))),
      fun busy => Runs.of_refuse h rfl ((checkAt_passes clean).trans (if_pos (by simpa using busy)))⟩
  · exact Runs.of_wait h rfl (if_neg (by simp [can]))
  · exact Runs.of_refuse h rfl (if_pos (by simp [cannot]))
  · exact Runs.of_done h rfl (if_neg (by rcases early with early | early <;> simp [early]))
  · exact Runs.of_refuse h rfl (if_pos (by simp [not2, not3]))
  · exact Runs.of_done h rfl (if_neg (by simp [drained]))
  · exact Runs.of_refuse h rfl (if_pos (by simpa using other))
  · exact Runs.of_wait h rfl ((if_neg (by simp [State.canRollback, committed, stopped])).trans (State.maintain_unblocked free _))
  · exact Runs.of_done h rfl ((Cmd.check_passes (by simp [Option.isSome_iff_ne_none.2 conn, inside])).trans ((if_neg (by simp [can])).trans (State.maintain_unblocked free _)))
  · refine Runs.of_done h rfl ((if_neg (not_denied own)).trans ((Cmd.check_passes ?_).trans ((if_neg ?_).trans ?_)))
    · simpa [slots, records] using owns
    · simp [idle]
    · simp only [on]; rfl
  · refine Runs.of_done h rfl ((if_neg (not_denied own)).trans ((Cmd.check_passes ?_).trans ((if_neg ?_).trans ?_)))
    · simpa [off] using owns
    · simp [idle]
    · simp only [off]; rfl
  · have fresh : ((t.tile (c.f 0)).groups.any fun g => g.2.group == c.f 1) = false := List.any_eq_false.2 fun g mem => by simp [new g mem]
    have places : ((t.members (c.f 5) (c.f 3)).any fun x => decide (2 ^ 22 ≤ x)) = false :=
      List.any_eq_false.2 fun y mem => by simpa using members y mem
    have served : (t.scopeOf (t.members (c.f 5) (c.f 3)) != 0 && !(t.groupWindow (c.f 2) (c.f 10))) = false := by
      by_cases domain : t.scopeOf (t.members (c.f 5) (c.f 3)) = 0
      · simp [domain]
      · simp [window domain]
    have clean : ∀ x ∈ [((t.tile (c.f 0)).groups.any fun g => g.2.group == c.f 1, 1), (decide (c.f 3 ≤ c.f 4), 4),
        (!(t.userHbmOk (c.f 5) (4 * c.f 3)) || (t.members (c.f 5) (c.f 3)).any fun x => decide (2 ^ 22 ≤ x), 5),
        (!(t.inPartition (c.f 2) (c.f 8) (groupBytes (c.f 6) (c.f 7))) ||
          !(t.bufCovered (t.scopeOf (t.members (c.f 5) (c.f 3))) (c.f 2) (c.f 10) (c.f 8) (groupBytes (c.f 6) (c.f 7))), 8),
        (!(t.ownsBlocks (c.f 2) (c.f 9) 1) || !(t.cntCovered (t.scopeOf (t.members (c.f 5) (c.f 3))) (c.f 2) (c.f 10) (c.f 9)), 9),
        (t.scopeOf (t.members (c.f 5) (c.f 3)) != 0 && !(t.groupWindow (c.f 2) (c.f 10)), 10)], x.1 = false := by
      simp only [List.forall_mem_cons, fresh, places, served, inside, inPart, buf, owns, cnt, Nat.not_le.2 rank, decide_false, Bool.not_true, Bool.or_self,
        true_and, List.not_mem_nil, IsEmpty.forall_iff, implies_true]
    exact ⟨fun room => Runs.of_done h rfl ((Cmd.check_passes clean).trans (if_neg (Nat.not_le.2 room))),
      fun full => Runs.of_refuse h rfl ((Cmd.check_passes clean).trans (if_pos full))⟩
  · have unknown : ((t.tile (c.f 0)).groups.find? fun g => g.2.group == c.f 1) = none :=
      List.find?_eq_none.2 fun g mem => by simp [none_ g mem]
    exact Runs.of_refuse h rfl (by simp only [State.runGroupReset, unknown]; rfl)
  · refine Runs.of_done h rfl ?_
    simp only [State.runGroupReset, found, own, idle]
    rfl

end

section
/-! The commands of power, firmware, logs and diagnostics. -/

namespace Sys2Proof.Machine

open Sys2Proof Sys2Proof.Laws

section
variable {s t u : State} {k : CmdSpec} {m : Nat} {c : Cmd} {i : Instr} {body : Cmd → State → Reply}

theorem Runs.of_failed {d : Nat} (h : Serves s k m c t) (row : exec i s = .next (s.serve k m body)) (reply : body c t = .failed u d) :
    Runs i s (answered u m S_FAILED d []) := row.trans (congrArg _ (State.serve_failed h reply))

/-- An activity that conflicts is deferred with a ticket where the table has room and its end can be announced (R943, R945). -/
theorem State.maintain_deferred {act : Activity} {res : List Res} (blocked : ¬ Unblocked t act res) (room : t.heldCommands < 64)
    (waits : c.nowait = false) (told : t.sunas.notify ≠ none) (perform : State → Reply) :
    t.maintain c act res perform =
      .own ((t.newTicket (c.ticket 0 act res true)).2.writeResponse c.m S_DEFERRED (t.newTicket (c.ticket 0 act res true)).1 []) := by
  have blocked : t.actBlocked act res t.sunas.nextTicket = true := Bool.not_eq_false _ ▸ blocked
  exact (if_pos blocked).trans ((if_neg (Nat.not_le.2 room)).trans ((if_neg (by simp [waits])).trans (if_neg (by simpa using told))))

end

/-- A write leaves what every other number reads, in any table: it goes in before the first larger number. -/
theorem Tbl.get_set_other {α : Type} (d : α) {i k : Nat} (v : α) (other : i ≠ k) (t : Tbl α) : Tbl.get d (Tbl.set t k v) i = Tbl.get d t i := by
  induction t with
  | nil => simp [Tbl.set, Tbl.get, other]
  | cons p t ih =>
    obtain ⟨j, x⟩ := p
    unfold Tbl.set
    split_ifs with before same
    · by_cases below : i < k
      · have : i ≠ j := by omega
        have : i < j := by omega
        simp [Tbl.get, *]
      · simp [Tbl.get, *]
    · subst same
      simp [Tbl.get, other]
    · simp only [Tbl.get, ih]

/-- What TILLER_CAP does at one Tiller: its cap, and the clock that its island takes from it. -/
def State.capTiller (mhz : Nat) (s : State) (t : Nat) : State :=
  let s := s.modTile t fun x => { x with capMhz := mhz }
  let clock := s.setClock t
  s.modIsland t fun i => if i.up then { i with setMhz := clock, mhz := min i.mhz clock } else i

theorem State.capTiller_capMhz (mhz : Nat) (s : State) (t i : Nat) :
    ((s.capTiller mhz t).tile i).capMhz = if i = t then mhz else (s.tile i).capMhz := by
  have frame : (s.capTiller mhz t).tile i = (s.modTile t fun x => { x with capMhz := mhz }).tile i := rfl
  rw [frame]
  by_cases same : i = t
  · rw [same, State.modTile_tile, if_pos rfl]
  · rw [if_neg same]
    exact congrArg Tile.capMhz (Tbl.get_set_other _ _ same _)

theorem State.capTillers_capMhz (mhz i : Nat) (ts : List Nat) (s : State) :
    ((ts.foldl (State.capTiller mhz) s).tile i).capMhz = if i ∈ ts then mhz else (s.tile i).capMhz := by
  induction ts generalizing s with
  | nil => simp
  | cons t ts ih =>
    rw [List.foldl_cons, ih, State.capTiller_capMhz]
    by_cases later : i ∈ ts <;> simp [later]

theorem State.capTillers_mem (mhz : Nat) (ts : List Nat) (s : State) : (ts.foldl (State.capTiller mhz) s).mem = s.mem := by
  induction ts generalizing s with
  | nil => rfl
  | cons t ts ih => exact ih _

theorem mem_maskTillers {mask i : Nat} (small : i < 4) : i ∈ maskTillers mask ↔ bitN mask i = true := by
  simp [maskTillers, small]

end Sys2Proof.Machine

open Sys2Proof Sys2Proof.Machine

/-- Settles O55: the reply of each body, carried by `serve`. -/
theorem firmwareAndDiagnosticCommands : Obligations.FirmwareAndDiagnosticCommands := by
  intro s m c t o
  dsimp only
  refine ⟨fun h => Runs.of_done h rfl rfl, fun h low high => ?_, fun h free late => ⟨fun off => ?_, fun on up => ?_, fun on down passes arrays => ?_⟩,
    fun h => Runs.of_done h rfl rfl, fun h fits committed free blocks => ⟨fun running => ?_, fun failed reason good => ?_⟩,
    fun h fits free => ⟨fun good => ?_, fun bad => ?_⟩,
    fun h => ⟨fun bad => ?_, fun good dead free => ?_, fun good live idle free => ?_⟩,
    fun h act slot free => ?_, fun h idle free => ?_, fun h => ⟨fun n first => ?_, fun empty => ?_⟩, fun h => ?_,
    fun h free => ⟨_, Runs.of_done h rfl (State.maintain_unblocked free _)⟩, fun h idle free => ⟨fun clean => ?_, fun a fails => ?_⟩,
    fun h free => ⟨fun writes => ?_, fun v reads known => ?_, fun reads unknown => ?_⟩,
    fun h serves free => ⟨fun soft => ⟨fun spare => ?_, fun lacks => ?_⟩, fun hard => ⟨fun spare => ?_, fun lacks => ?_⟩⟩,
    fun h up free inside => ?_, fun h => ⟨fun x found => ?_, fun unknown => ?_⟩,
    fun h => ⟨fun unknown => ?_, fun x found => ⟨fun queued => ?_, fun j runs evac module => ?_⟩⟩,
    fun h idle blocked room waits told => ?_, fun n x found free => ⟨fun j own module => ?_, fun q other known => ?_⟩⟩
  · refine ⟨_, Runs.of_done h rfl (Cmd.check_passes (by simp; omega)), fun i small => ?_, State.capTillers_mem _ _ _⟩
    exact (State.capTillers_capMhz _ _ _ _).trans (by simp only [mem_maskTillers small])
  · exact Runs.of_done h rfl ((if_neg (by simp [free]; omega)).trans (if_pos (by simp [off])))
  · exact Runs.of_done h rfl ((if_neg (by simp [free]; omega)).trans ((if_neg (by simp [on])).trans (if_pos up)))
  · exact Runs.of_done h rfl ((if_neg (by simp [free]; omega)).trans ((if_neg (by simp [on])).trans ((if_neg (by simp [down])).trans
      (if_neg (by simp [passes]; omega)))))
  · exact Runs.of_done h rfl ((Cmd.check_passes (by simpa using fits)).trans ((if_neg (by simp [committed])).trans
      ((State.maintain_unblocked free _).trans ((if_neg (Nat.not_lt.2 blocks)).trans (if_neg (by simp [running]))))))
  · exact Runs.of_own h rfl ((Cmd.check_passes (by simpa using fits)).trans ((if_neg (by simp [committed])).trans
      ((State.maintain_unblocked free _).trans ((if_neg (Nat.not_lt.2 blocks)).trans ((if_pos ⟨failed, reason, good⟩).trans
        (by rw [Serves.mbox_eq h]))))))
  · exact Runs.of_done h rfl ((Cmd.check_passes (by simpa using fits)).trans ((State.maintain_unblocked free _).trans (if_pos good)))
  · exact Runs.of_own h rfl ((Cmd.check_passes (by simpa using fits)).trans ((State.maintain_unblocked free _).trans
      ((if_neg (by simp [bad])).trans (by rw [Serves.mbox_eq h]))))
  · exact Runs.of_refuse h rfl (if_pos (by simp [bad]))
  · refine Runs.of_done h rfl ((if_neg (by simp [good])).trans ((if_neg (by simp [dead])).trans ((State.maintain_unblocked free _).trans ?_)))
    rw [dead]
    rfl
  · refine Runs.of_done h rfl ((if_neg (by simp [good])).trans ((if_neg (by simp [idle])).trans ((State.maintain_unblocked free _).trans ?_)))
    rw [live]
    rfl
  · exact Runs.of_done h rfl ((if_neg (by simp [act, slot])).trans (State.maintain_unblocked free _))
  · exact Runs.of_done h rfl ((if_neg (by simpa using idle)).trans (State.maintain_unblocked free _))
  · exact Runs.of_done h rfl (by simp only [State.runLogInfo, first])
  · exact ⟨_, Runs.of_done h rfl (by simp only [State.runLogInfo, empty, List.map_nil, leastOf]; rfl)⟩
  · exact Runs.of_done h rfl (by rw [← Serves.mbox_eq h]; rfl)
  · exact Runs.of_done h rfl ((if_neg (by simp [idle])).trans ((State.maintain_unblocked free _).trans (by simp only [State.hbmBist, clean]; rfl)))
  · exact Runs.of_failed h rfl ((if_neg (by simp [idle])).trans ((State.maintain_unblocked free _).trans (by simp only [State.hbmBist, fails])))
  · exact Runs.of_done h rfl ((State.maintain_unblocked free _).trans (if_pos writes))
  · exact Runs.of_done h rfl ((State.maintain_unblocked free _).trans ((if_neg (by simp [reads])).trans (by rw [known])))
  · exact ⟨_, Runs.of_done h rfl ((State.maintain_unblocked free _).trans ((if_neg (by simp [reads])).trans (by rw [unknown]; rfl)))⟩
  · exact Runs.of_done h rfl ((if_neg (by simp [serves])).trans ((State.maintain_unblocked free _).trans ((if_neg (by simp [soft])).trans (if_neg spare))))
  · exact ⟨_, Runs.of_failed h rfl ((if_neg (by simp [serves])).trans ((State.maintain_unblocked free _).trans ((if_neg (by simp [soft])).trans (if_pos lacks))))⟩
  · exact Runs.of_done h rfl ((if_neg (by simp [serves])).trans ((State.maintain_unblocked free _).trans ((if_pos hard).trans (if_neg spare))))
  · exact ⟨_, Runs.of_failed h rfl ((if_neg (by simp [serves])).trans ((State.maintain_unblocked free _).trans ((if_pos hard).trans (if_pos lacks))))⟩
  · exact Runs.of_done h rfl ((if_neg (by simp [up])).trans ((State.maintain_unblocked free _).trans (if_neg (Nat.not_le.2 inside))))
  · exact Runs.of_done h rfl (by simp only [State.runMaintStatus, found])
  · exact Runs.of_refuse h rfl (by simp only [State.runMaintStatus, unknown]; rfl)
  · exact Runs.of_refuse h rfl (by simp only [State.runMaintCancel, unknown]; rfl)
  · exact Runs.of_done h rfl (by simp only [State.runMaintCancel, found, queued, if_true]; rfl)
  · exact Runs.of_done h rfl (by simp [State.runMaintCancel, found, runs, evac, module]; rfl)
  · refine Runs.of_own h rfl ((if_neg (by simp [idle])).trans ((State.maintain_deferred blocked room waits told _).trans ?_))
    rw [Serves.mbox_eq h]
  · refine congrArg Host.Outcome.next ?_
    simp only [found, free, Bool.not_true, Bool.false_eq_true, if_false, own, if_true, module]
  · refine congrArg Host.Outcome.next ?_
    simp only [found, free, Bool.not_true, Bool.false_eq_true, if_false, other, known]
end

section
/-! Pins, the tray bus and the test port (R27, R888 to R895, R1063 to R1071). -/

namespace Sys2Proof.Machine

open Sys2Proof Sys2Proof.Laws

section
variable {s : State} {ms m : Nat}

/-- Taking a module back from evacuation is what a short press does first (R1098). -/
theorem State.pressEffect_cancel (short : ms ≤ 3000) (evacuating : s.cancelTarget = some m) : s.pressEffect ms = (2, s.evacCancel m) := by
  simp only [State.pressEffect, short, evacuating, if_true]

theorem State.pressEffect_request (short : ms ≤ 3000) (none_ : s.cancelTarget = none) (lit : s.evacTarget = some m) :
    s.pressEffect ms = (1, s.requestEvac m) := by
  simp only [State.pressEffect, short, none_, lit, if_true]

end

end Sys2Proof.Machine

open Sys2Proof Sys2Proof.Machine

/-- Settles O56: what each pin, transfer and scan does in the states named. -/
theorem pinsAndBuses : Obligations.PinsAndBuses := by
  intro s
  have runs {i : Instr} {u w : State} (h : exec i s = .next u) (eq : u = w) : Runs i s w := h.trans (congrArg _ eq)
  dsimp only
  refine ⟨fun a b i m off => runs rfl (if_neg (by simp [off])), fun up => runs rfl (if_neg (by simp [up])), fun high => runs rfl (if_neg (by simp [high])),
    fun low => runs rfl (if_neg (by simp [low])), fun live => runs rfl (if_neg (by simp [live])), fun lost => runs rfl (if_neg (by simp [lost])),
    fun closed => ⟨fun begun => ?_, fun idle => ?_⟩, fun open_ => runs rfl (if_neg (by simp [open_])), fun up => runs rfl (if_neg (by simp [up])),
    fun down => ⟨runs rfl (if_pos down), fun ms => ⟨fun discarded => ?_, fun trip rail latch => ⟨fun early => ?_, fun late => ?_⟩⟩⟩,
    fun a => rfl, rfl, fun off data up short => ⟨fun alignedOff alignedData => ?_, fun askew => ?_⟩, fun n bs u up short words => ?_,
    fun data => ⟨fun refused => ⟨?_, ?_⟩, fun free => ⟨(s.fresh 30).1.toNat, ?_, ?_⟩, rfl, fun op => rfl⟩, rfl, fun off lo hi u v low high => ?_⟩
  · exact runs rfl ((if_neg (by simp [closed])).trans (if_pos begun))
  · exact runs rfl ((if_neg (by simp [closed])).trans (if_neg (by simp [idle])))
  · exact runs rfl ((if_neg (by simp [down])).trans (if_pos (by rcases discarded with held | held | held <;> simp [held])))
  · exact runs rfl ((if_neg (by simp [down])).trans ((if_neg (by simp [trip, rail, latch])).trans (if_pos early)))
  · have pressed {r : Nat} {v : State} (effect : (s.modPower fun w => { w with btnDown := false }).pressEffect ms = (r, v)) :
        Runs (.serviceButton ms) s (v.logEv "SERVICE_BUTTON" 5 0 0xFF [(4, ms), (1, r)]) := by
      refine runs rfl ((if_neg (by simp [down])).trans ((if_neg (by simp [trip, rail, latch])).trans ((if_neg (Nat.not_lt.2 late)).trans ?_)))
      simp only [State.pressDone, effect]
    refine ⟨fun m short some_ => pressed (State.pressEffect_cancel short some_),
      fun m short none_ lit => pressed (State.pressEffect_request short none_ lit), fun long bounded idle => pressed ?_,
      fun long bounded asked => pressed ?_⟩
    · exact (if_neg (by omega)).trans ((if_neg (by omega)).trans (if_neg (by simp [idle])))
    · exact (if_neg (by omega)).trans ((if_neg (by omega)).trans (if_pos asked))
  · exact runs rfl ((if_neg (by simp [up]; omega)).trans (if_neg (by simp [alignedOff, alignedData])))
  · exact runs rfl ((if_neg (by simp [up]; omega)).trans (if_pos askew))
  · refine runs rfl ((if_neg (by simp [up]; omega)).trans ?_)
    simp only [words]
  · exact runs rfl (if_pos refused)
  · exact runs rfl (if_pos refused)
  · exact runs rfl (if_neg (by simp [free]))
  · exact runs rfl (if_neg (by simp [free]))
  · refine ⟨runs rfl ?_, fun d => runs rfl ?_⟩
    · simp only [low, high]
      rfl
    · simp only [low, high]
      rfl
end

section
/-! The stages of the start, and the log in flash: two statements that fail in states they do not exclude. -/

namespace Sys2Proof.Machine

open Sys2Proof Sys2Proof.Laws

/-- Powered and not yet running, with the service request of a halted Scarab raised and a place for notifications still set:
the rise of PWRGD_IN withdraws the request, and the notification of that is stored to memory. -/
def notifiedBeforeStart : State :=
  { State.reset with
    power := { State.reset.power with powered := true }
    log := { State.reset.log with service := [(5, 1)] }
    sunas := { State.reset.sunas with notify := some (0x1000000, 4, 0) } }

def someFuses : Fuses := ⟨true, 0, 0, 0, 0, []⟩

/-- A record of the log of which only the number matters. -/
def numberedRecord (n : Nat) : LogRec := ⟨n, 0, 0, 0, 0, 0, 1, "START_STAGE", []⟩

/-- The second ring holds an older record than the first. -/
def olderInSecondRing : State :=
  { State.reset with log := { State.reset.log with ring := [numberedRecord 2, numberedRecord 3], ring2 := [numberedRecord 1] } }

/-- Notification 1 stands 64 bytes after the base, and its first byte is its number. -/
theorem pwrgdRise_notifies {u : State} (run : Runs (.pwrgdRise someFuses notifiedBeforeStart.power.latchClosed) notifiedBeforeStart u) :
    Memory.read u.mem 0x1000040 = 1 := by
  obtain rfl := Host.Outcome.next.inj run
  decide

/-- Programming takes the record of the least number, which stands in the second ring. -/
theorem program_takes_older : (olderInSecondRing.log.program 1).ring = olderInSecondRing.log.ring := by decide

end Sys2Proof.Machine

open Sys2Proof Sys2Proof.Machine

/-- Refutes O58: the clause of PWRGD_IN says that memory stays, and where the withdrawn service request is notified it does not. -/
theorem not_stagedStart : ¬ Obligations.StagedStart := by
  intro holds
  obtain ⟨rise, -⟩ := holds notifiedBeforeStart
  obtain ⟨u, run, -, -, -, -, -, -, -, -, -, -, -, mem⟩ := rise someFuses rfl rfl
  have stored := pwrgdRise_notifies run
  rw [mem] at stored
  exact absurd stored (by decide)

/-- Refutes O59: `program` takes the buffered records of all three rings in the order of their numbers, so with an older record
in the second ring the first ring keeps what the statement says has left it. -/
theorem not_restartsAndFlash : ¬ Obligations.RestartsAndFlash := by
  intro holds
  obtain ⟨-, -, -, -, -, programs, -⟩ := holds olderInSecondRing
  have left := congrArg Flash.ring (programs 1 (by decide) (by decide))
  rw [program_takes_older] at left
  exact absurd left (by decide)
end
